-- ==== Sys2Proof/Word.lean ====
section
/-!
DEFINITION. The words of the UVG-3208's link and aperture (chapter 1, R2; chapter 9, 9.12).

What the manual treats as bits is a bit vector here: the 46-bit byte address, the 64-bit byte mask and the
64-byte line of a TML packet.  Indices and counts (granules, tag lines, table indices) are natural numbers.
-/

namespace Sys2Proof

/-- A TML byte address (R2): 46 bits. -/
abbrev Address := BitVec 46

/-- The byte mask of a WRITE_MASKED request (R2): bit b stands for byte b of the line. -/
abbrev ByteMask := BitVec 64

/-- One 64-byte line.  Byte b of the line is bits 8b+7 down to 8b, so byte 0 is the least significant
(the byte order of R180: "stored least significant byte first, at the byte offsets shown"). -/
abbrev Line := BitVec 512

end Sys2Proof
end

