-- ==== Sys2Proof/Config.lean ====
section
/-!
DEFINITION. The constants of the part: the capacities of 1.3 and R184, the limits its rules name and the
sizes of the link.  The manual leaves no implementation-defined value open, so Config holds no free value.
-/

namespace Sys2Proof.Config

/-- Bytes in a granule (1.6, R20). -/
def granuleBytes : Nat := 4096
/-- Bytes of the management aperture: 64 KiB (R20). -/
def apertureBytes : Nat := 65536
/-- The end of the TML address space, 2^46 (R19). -/
def addressEnd : Nat := 70368744177664
/-- 64 GiB, the unit of the SPAN_BASE straps (R18). -/
def gib64 : Nat := 68719476736
/-- 256 GiB, the smallest strap size (R18). -/
def gib256 : Nat := 274877906944
/-- Sets of the Tag Cache (R40). -/
def cacheSets : Nat := 256
/-- Ways of each set of the Tag Cache (R40). -/
def cacheWays : Nat := 8
/-- Fill Table entries (R47). -/
def fillEntries : Nat := 8
/-- Miss Queue entries (R50). -/
def missEntries : Nat := 64
/-- In-Flight Table entries (R80). -/
def inFlightEntries : Nat := 256
/-- Poison list entries (R57). -/
def poisonEntries : Nat := 16
/-- Grant Table entries (R134). -/
def grantEntries : Nat := 1024
/-- The most grants that one record counts (R28, R142). -/
def grantsPerGranule : Nat := 7
/-- Domain tags (R89). -/
def domainTags : Nat := 512
/-- Management channels (R165). -/
def channels : Nat := 4
/-- Depth of each channel's control queue and of its work queue (R165). -/
def queueDepth : Nat := 4
/-- Response slots of a channel, ready and reserved together (R165). -/
def responseSlots : Nat := 8
/-- The Domain Request Unit's queue (R140). -/
def requestQueue : Nat := 16
/-- Violation Log records (R186). -/
def logRecords : Nat := 32
/-- Notice sources (R188). -/
def noticeSources : Nat := 14
/-- Region Table entries (R195). -/
def regionEntries : Nat := 8
/-- Track slots (R152). -/
def trackSlots : Nat := 4
/-- Dirty-queue entries of a track slot (R152). -/
def trackQueue : Nat := 512
/-- Entries of one harvest group (R158). -/
def groupSize : Nat := 16
/-- Scrub Units (R125). -/
def scrubUnits : Nat := 2
/-- Lines of a granule (1.7). -/
def granuleLines : Nat := 64
/-- The most granules that one command's range may name (R23). -/
def rangeMax : Nat := 65536
/-- Format writes and cache write-backs kept outstanding by FORMAT, FLUSH_TAGS, the warm reset and the
POWER_WARN flush (R34, R60, R62, R202). -/
def writesOutstanding : Nat := 16
/-- Violation counter limit (R89). -/
def violationMax : Nat := 15
/-- Corrected-error counter limit (R53). -/
def correctedMax : Nat := 255
/-- The forwarded, write-back, format, zero and harvest timeout, in µs (R10). -/
def writeTimeout : Nat := 100
/-- The fill timeout, in µs (R10). -/
def fillTimeout : Nat := 50
/-- The orphan limit and the hold of a timed-out tag, in µs (R12, R84). -/
def holdLimit : Nat := 1000
/-- The bound on the micro-steps that one step of the part makes without waiting (assumption 4). -/
def stepFuel : Nat := 1048576

end Sys2Proof.Config
end

