-- ==== Sys2Proof/Syntax.lean ====
section
/-!
DEFINITION. The commands of the block: one constructor of `Instr` for each row of spec/opcode_table.json,
with the operands that come from outside the part (the packet offered, the tag of a completion, the strap
levels, the channel whose turn it is).
-/

namespace Sys2Proof

/-- The kind of a TML request (R2). -/
inductive AccessKind where
  | read
  | write
  | writeMasked
  deriving DecidableEq, Repr

/-- One upstream request as the socket offers it (R2).  A READ carries mask and data fields that are not used. -/
structure Request where
  kind    : AccessKind
  tag     : Fin 1024
  domain  : Fin 512
  address : Address
  mask    : ByteMask
  data    : Line
  deriving DecidableEq, Repr

/-- The classes of downstream requests, in the rotation order of the table of R10. -/
inductive ReqClass where
  | forwarded
  | fill
  | writeBack
  | formatWrite
  | zeroWrite
  | harvestWrite
  deriving DecidableEq, Repr

/-- The status of a downstream completion (R9). -/
inductive DownStatus where
  | ok
  | error
  deriving DecidableEq, Repr

/-- The granule states of R28 and R29. -/
inductive GState where
  | gOpen
  | gPrivate
  | gClearingIn
  | gClearingOut
  | gPoisoned
  | gReserved
  deriving DecidableEq, Repr

/-- What the check code of one part of a tag record says of the part as it was read from the tag store
(R27, R28): good, one flipped bit corrected (with the value the code restores), or uncorrectable. -/
inductive PartRead (α : Type) where
  | good (value : α)
  | corrected (value : α)
  | lost
  deriving DecidableEq, Repr

/-- The state part of a tag record (R28), without its code. -/
structure StatePart where
  state  : GState
  pinned : Bool
  dirty  : Bool
  count  : Fin 8
  deriving DecidableEq, Repr

/-- One tag record as a fill reads it (R26, R52): its owner part, where `none` is UNKNOWN (R27), and its
state part, each with what its code says.  The manual gives records by their fields and gives no byte
layout for them (2.4), so a fill's data is these four readings and not 64 bytes. -/
structure RecordRead where
  ownerPart : PartRead (Option (Fin 512))
  statePart : PartRead StatePart
  deriving DecidableEq, Repr

/-- What the expander returns for a fill read (R48, R49): the four records of the tag line, or an ERROR. -/
inductive FillReply where
  | records (r0 r1 r2 r3 : RecordRead)
  | error
  deriving DecidableEq, Repr

/-- The party whose drained revocation makes its removal step (R136): a channel's REVOKE_GRANT, the Domain
Request Unit's WITHDRAW, or the warm reset. -/
inductive Remover where
  | channel (c : Fin 4)
  | request
  | warmReset
  deriving DecidableEq, Repr

/-- The commands of the block, one per row of spec/opcode_table.json. -/
inductive Instr where
  /-- COLD_RESET (R15): the values the straps present. -/
  | coldReset (spanBase : Fin 1024) (spanSize : Fin 8)
  /-- REQUEST_TAKEN (R3): the request the socket offers. -/
  | requestTaken (r : Request)
  | presentReleasedWaiter
  | heldTransactionForward
  | completionTaken
  | noticePacketTaken
  | upstreamLinkDown
  | upstreamLinkUp
  | downstreamLinkDown
  | downstreamLinkUp
  | downstreamOfferTaken
  | downstreamTagGrant (cls : ReqClass)
  /-- FORWARDED_COMPLETION (R81, R83): downstream tag, status and read data. -/
  | forwardedCompletion (tag : Fin 256) (status : DownStatus) (data : Line)
  | staleCompletionDiscard (tag : Fin 1024)
  | forwardedTimeout (tag : Fin 256)
  | orphanLimit (tag : Fin 256)
  | ownRequestTimeout (tag : Fin 1024)
  | heldTagRelease (tag : Fin 1024)
  | fillReadCompletion (tag : Fin 1024) (reply : FillReply)
  /-- FILL_CLAIMS_WAY (R44): the way that has left use and its set. -/
  | fillClaimsWay (set : Fin 256) (way : Fin 8)
  | fillWaitListStart
  | writeBackCompletion (tag : Fin 1024) (status : DownStatus)
  | formatWriteCompletion (tag : Fin 1024) (status : DownStatus)
  | formatDrainDone (c : Fin 4)
  | zeroWriteCompletion (tag : Fin 1024) (status : DownStatus)
  | scrubUnitGrant
  | granuleDrainDone (c : Fin 4)
  | retireClearanceDrainsDone (c : Fin 4)
  | retireClaimReleased (c : Fin 4)
  | revocationRemoval (who : Remover)
  | harvestGroupDrained (c : Fin 4)
  | harvestWriteCompletion (tag : Fin 1024) (status : DownStatus)
  /-- SUBMISSION (R167): a root WRITE of the block to channel c's submit line, under an upstream tag. -/
  | submission (tag : Fin 1024) (c : Fin 4) (block : Line)
  | responseRead (tag : Fin 1024) (c : Fin 4)
  /-- APERTURE_OTHER_WRITE (R166): a root access to the aperture line of this number (offset 64·line). -/
  | apertureOtherWrite (tag : Fin 1024) (kind : AccessKind) (line : Fin 1024) (mask : ByteMask) (data : Line)
  /-- DOMAIN_REQUEST_WRITE (R139): a guest's write to the domain request line, masked or not. -/
  | domainRequestWrite (tag : Fin 1024) (domain : Fin 512) (masked : Bool) (mask : ByteMask) (data : Line)
  | domainRequestRead (tag : Fin 1024) (domain : Fin 512)
  | offer
  | withdraw
  | pin
  | unpin
  | query
  | format (c : Fin 4)
  | assign (c : Fin 4)
  | release (c : Fin 4)
  | restore (c : Fin 4)
  | queryGranules (c : Fin 4)
  | retire (c : Fin 4)
  | revokeGrant (c : Fin 4)
  | trackStart (c : Fin 4)
  | trackCollect (c : Fin 4)
  | flushTags (c : Fin 4)
  | regionSet (c : Fin 4)
  | create (c : Fin 4)
  | start (c : Fin 4)
  | pause (c : Fin 4)
  | resume (c : Fin 4)
  | unfence (c : Fin 4)
  | setQuota (c : Fin 4)
  | setFence (c : Fin 4)
  | clearDomainCounters (c : Fin 4)
  | domainStatus (c : Fin 4)
  | activateGrant (c : Fin 4)
  | grantRead (c : Fin 4)
  | trackStop (c : Fin 4)
  | trackStatus (c : Fin 4)
  | violationPop (c : Fin 4)
  | noticeConfig (c : Fin 4)
  | noticeClear (c : Fin 4)
  | noticeStatus (c : Fin 4)
  | regionClear (c : Fin 4)
  | regionLockdown (c : Fin 4)
  | freeze (c : Fin 4)
  | setFaultPolicy (c : Fin 4)
  | contain (c : Fin 4)
  | resumePart (c : Fin 4)
  | ackIntegrity (c : Fin 4)
  | clearIntegrityCount (c : Fin 4)
  | setCorrectedLimit (c : Fin 4)
  | poisonRead (c : Fin 4)
  | partStatus (c : Fin 4)
  | abort (c : Fin 4)
  | resetEngines (c : Fin 4)
  | warmResetSettled
  | powerWarn
  | powerWarnQuiesced
  | platformFaultAssert
  | platformFaultDeassert
  | powerWarnDeassert
  deriving DecidableEq, Repr

end Sys2Proof
end

