-- ==== Sys2Proof/Decode.lean ====
section
/-!
DEFINITION. The block's commands have no encoding: spec/opcode_table.json gives bits to none of its rows, so
no word spells a command (assumption 11).
-/

namespace Sys2Proof

/-- The command that a word spells by the table's bits.  No row has bits. -/
def decodeTableWord (_nbits _w : Nat) : Option Instr := none

end Sys2Proof
end

