-- ==== Sys2Proof/Machine/Span.lean ====
section
/-!
DEFINITION. The governed span: what the straps give (R18, R19) and the quantities derived from the base B
and the clamped size S (R20), before any state.
-/

namespace Sys2Proof.Machine

/-- The span size that a SPAN_SIZE strap value asks for (R18). -/
def strapSize (k : Nat) : Nat := Config.gib256 * 2 ^ (min k 4)

/-- The span base that a SPAN_BASE strap value gives (R18). -/
def strapBase (k : Nat) : Nat := Config.gib64 * min k 960

/-- The clamped span size (R19): the requested size if base, size and aperture fit below 2^46, and
otherwise the largest strap size that does. -/
def clampSize (base requested : Nat) : Nat :=
  let fits := fun size => decide (base + size + Config.apertureBytes ≤ Config.addressEnd)
  if fits requested then requested
  else (([4, 3, 2, 1, 0].map strapSize).find? fits).getD 0

/-- The granule count N of a span of S bytes (R20). -/
def granuleCountOf (size : Nat) : Nat := size / Config.granuleBytes

/-- The tag region size R, in granules (R20). -/
def tagRegionSizeOf (size : Nat) : Nat := granuleCountOf size / 256

/-- The number of tag lines of the tag store, N/4 (R20). -/
def tagLineCountOf (size : Nat) : Nat := granuleCountOf size / 4

end Sys2Proof.Machine
end

