-- ==== Sys2Proof/Machine/State.lean ====
section
/-!
DEFINITION. The state of the UVG-3208: every block of 1.3 with the fields its chapter gives it, as plain
data, the faults and refusals, and the state after a cold reset.

A table that is indexed (domains, grants, ways, In-Flight entries, …) is a list of (index, entry) pairs in
strictly rising order of index.  Where an entry has a reset value, an index that is not listed holds that
value and no listed entry equals it, so equal tables are equal lists (`Laws/Tables.lean`).
-/

namespace Sys2Proof.Machine

/-- An indexed table: (index, entry) pairs, indices strictly rising. -/
abbrev Table (α : Type) := List (Nat × α)

/-! ### Modes and containment (chapters 2 and 11) -/

/-- The part mode (1.5, R30, R198, R202). -/
inductive Mode where
  | unformatted
  | formatting
  | operational
  | contained
  | halted
  deriving DecidableEq, Repr

/-- The containment causes (R198). -/
inductive Cause where
  | platformFault
  | command
  | ownerLost
  | cascade
  | poisonFull
  | tagWrite
  deriving DecidableEq, Repr

/-- The fault policy (R201). -/
inductive Policy where
  | contain
  | ignore
  deriving DecidableEq, Repr

/-- A write-back of the whole Tag Cache under way, of the warm reset or of the POWER_WARN flush (R62, R202): the tag
lines whose write-back has failed in it, and those whose write-back was outstanding already when it began and has not
ended since (R61, assumption 42). -/
structure CacheWrites where
  failed  : List Nat
  earlier : List Nat
  deriving DecidableEq, Repr

/-- How far the POWER_WARN flush has come (R202): not begun, waiting for its four conditions, writing the
Tag Cache back, or ended (mode HALTED). -/
inductive Flush where
  | none
  | waiting
  | writing (w : CacheWrites)
  | done
  deriving DecidableEq, Repr

/-! ### Upstream port (R4 to R8) -/

/-- The completion statuses (R4). -/
inductive Status where
  | ok
  | blocked
  | stopped
  | poisoned
  | addressError
  | tagUnavailable
  | downstreamError
  | timeout
  | refused
  | halted
  deriving DecidableEq, Repr

/-- One decided completion (R4).  `data` is present for a READ.  `duplicate` marks the REFUSED of a
duplicate tag, whose sending does not change whether the tag is in use (R5). -/
structure Completion where
  tag       : Nat
  status    : Status
  data      : Option Line
  duplicate : Bool
  deriving DecidableEq, Repr

/-- A notice packet (R8). -/
structure Notice where
  source : Nat
  cls    : Nat
  deriving DecidableEq, Repr

/-- The two things the upstream transmit direction carries (R6). -/
inductive TxSort where
  | completion
  | notice
  deriving DecidableEq, Repr

/-! ### Tag records and the Tag Cache (R27 to R29, R40) -/

/-- A tag record's fields (R27, R28).  `owner = none` is UNKNOWN. -/
structure TagRecord where
  owner  : Option Nat
  state  : GState
  pinned : Bool
  dirty  : Bool
  count  : Nat
  deriving DecidableEq, Repr

/-- The four records of a tag line, in slot order (R25). -/
structure Quad where
  r0 : TagRecord
  r1 : TagRecord
  r2 : TagRecord
  r3 : TagRecord
  deriving DecidableEq, Repr

/-- One valid way of the Tag Cache (R40).  A way that is not valid is not listed in `State.ways`; the in-use
mark is computed from its holders (R43, `wayInUse`). -/
structure Way where
  line    : Nat
  records : Quad
  dirty   : Bool
  deriving DecidableEq, Repr

/-- A Fill Table entry (R47).  `serial` tells one entry from a later one of the same line; its waiters are
the Miss Queue entries and command steps that name its line. -/
structure Fill where
  serial : Nat
  line   : Nat
  way    : Option Nat
  tag    : Option Nat
  data   : Option (RecordRead × RecordRead × RecordRead × RecordRead)
  deriving DecidableEq, Repr

/-- A Miss Queue entry (R50). -/
structure Miss where
  request  : Request
  granule  : Nat
  line     : Nat
  released : Bool
  deriving DecidableEq, Repr

/-- Why a granule was poisoned (R57). -/
inductive PoisonCause where
  | record
  | orphanWrite
  | scrubFailed
  deriving DecidableEq, Repr

/-- An entry of the poison list (R57). -/
structure PoisonEntry where
  granule : Nat
  owner   : Option Nat
  cause   : PoisonCause
  deriving DecidableEq, Repr

/-- Who ordered a poisoning that waits on a tag line (R51): the In-Flight entry at its orphan limit (R84),
or the channel whose zeroing failed (R127). -/
inductive PoisonSource where
  | orphan (index : Nat)
  | scrub (channel : Nat)
  deriving DecidableEq, Repr

/-- What a command, request or poisoning waits for.  `running` is no wait: its next micro-step can be made.
`landed` is none either: the fill it waited on has installed its line, whose way stays in use until the step has
been made (R43).  `suspended` is a pending undo or poisoning that may start no fill yet (R174, R202). -/
inductive Wait where
  | running
  | fill (line : Nat)
  | landed (line : Nat)
  | drain
  | unit
  | zero
  | writes
  | claim (granule : Nat)
  | poison
  | suspended
  deriving DecidableEq, Repr

/-- A poisoning ordered for a granule whose line is not cached (R51). -/
structure PendingPoison where
  granule : Nat
  cause   : PoisonCause
  source  : PoisonSource
  wait    : Wait
  deriving DecidableEq, Repr

/-! ### The check stage, the In-Flight Table and drains (R77, R80, R85) -/

/-- A permitted transaction holding the check stage (R77). -/
structure HeldTx where
  request     : Request
  granule     : Nat
  unformatted : Bool
  deriving DecidableEq, Repr

/-- An In-Flight Table entry (R80).  `limitReached` marks an orphaned write that has reached its orphan
limit and whose poisoning waits on a tag line (R84). -/
structure InFlight where
  upstreamTag  : Nat
  domain       : Nat
  granule      : Nat
  write        : Bool
  orphaned     : Bool
  suppress     : Bool
  unformatted  : Bool
  timer        : Nat
  limitReached : Bool
  deriving DecidableEq, Repr

/-- The user of a drain (R85): a channel's command for its granule, FORMAT range or grant; a channel's
RETIRE for its grant clearance; a channel's TRACK_COLLECT for its group; the running guest request; the
warm reset's revocation stage. -/
inductive DrainUser where
  | command (c : Nat)
  | clearance (c : Nat)
  | group (c : Nat)
  | request
  | warmReset
  deriving DecidableEq, Repr

/-- A drain in progress: its user and its counted set (R85), the In-Flight indices and whether the
transaction holding the check stage is a member.  A drain whose set has become empty has finished and is
no longer listed. -/
structure Drain where
  user    : DrainUser
  members : List Nat
  held    : Bool
  deriving DecidableEq, Repr

/-! ### The downstream port (R9 to R12) -/

/-- The part's own requests, by the engine that issued them (R10). -/
inductive OwnJob where
  | fill (serial line : Nat)
  | writeBack (key line : Nat)
  | formatLine (line : Nat)
  | zeroLine (unit line : Nat)
  | harvest (channel : Nat)
  deriving DecidableEq, Repr

/-- The data a downstream write carries (R9): none for a READ, a line as taken from upstream, a tag line
given by its records, or the zero or harvest line. -/
inductive DownData where
  | none
  | line (data : Line)
  | tagLine (records : Quad)
  deriving DecidableEq, Repr

/-- A request offered downstream and not yet taken by the expander (R9, R11). -/
structure DownRequest where
  tag     : Nat
  kind    : AccessKind
  domain  : Nat
  address : Nat
  mask    : ByteMask
  data    : DownData
  deriving DecidableEq, Repr

/-- An own request outstanding under its downstream tag (R10, R11).  `changed` is set on a write-back when
a record of its line changes after its issue (R42). -/
structure Outstanding where
  tag     : Nat
  job     : OwnJob
  changed : Bool
  timer   : Nat
  deriving DecidableEq, Repr

/-- A downstream tag held after a timeout (R12). -/
structure HeldTag where
  tag   : Nat
  timer : Nat
  deriving DecidableEq, Repr

/-! ### Domains, grants and guest requests (chapters 5 and 7) -/

/-- The domain states (R89, R90). -/
inductive DState where
  | free
  | preparing
  | running
  | paused
  | fenced
  | retiring
  | root
  deriving DecidableEq, Repr

/-- A Domain Table entry (R89). -/
structure Domain where
  state        : DState
  quota        : Nat
  owned        : Nat
  violations   : Nat
  threshold    : Nat
  firstAddress : Option Nat
  given        : Nat
  held         : Nat
  slot         : Option Nat
  retireActive : Bool
  deriving DecidableEq, Repr

/-- The grant states (R135). -/
inductive GrantState where
  | offered
  | active
  | revoking
  deriving DecidableEq, Repr

/-- A Grant Table entry (R134).  `serial` is the entry's identity from its creation to its removal. -/
structure Grant where
  serial    : Nat
  granule   : Nat
  owner     : Nat
  grantee   : Nat
  readWrite : Bool
  state     : GrantState
  deriving DecidableEq, Repr

/-- A request in the Domain Request Unit, as written and stamped (R139). -/
structure GuestRequest where
  requester : Nat
  kind      : Nat
  granule   : Nat
  grantee   : Nat
  access    : Nat
  deriving DecidableEq, Repr

/-- The running guest request (R140): what it waits for and, for a WITHDRAW past its tests, the index and
serial of the entry it removes (R143). -/
structure GuestRun where
  wait  : Wait
  entry : Option (Nat × Nat)
  deriving DecidableEq, Repr

/-- The result codes (R179). -/
inductive Result where
  | done
  | aborted
  | empty
  | pending
  | unknownCommand
  | parameter
  | mode
  | domainState
  | domainInUse
  | domainBusy
  | quotaReached
  | keepNotAllowed
  | granuleState
  | granuleBusy
  | granulePinned
  | granuleShared
  | regionConflict
  | poisoned
  | tagUnavailable
  | downstreamError
  | tableFull
  | grantLimit
  | duplicate
  | grantState
  | notOwner
  | noEntry
  | slotState
  | frozen
  | locked
  | lineAsserted
  deriving DecidableEq, Repr

/-- The query part of a last-result record (R141, R145). -/
inductive QueryPart where
  | absent
  | ownerView (state : GState) (pinned : Bool) (count : Nat)
  | granteeView (state : GState) (grant : GrantState) (readWrite : Bool)
  deriving DecidableEq, Repr

/-- A last-result record (R141).  Kind 0 is NONE. -/
structure LastResult where
  kind    : Nat
  result  : Result
  granule : Nat
  grant   : Option Nat
  query   : QueryPart
  deriving DecidableEq, Repr

/-! ### Write tracking (R152) -/

inductive SlotState where
  | idle
  | arming
  | active
  | overflowed
  deriving DecidableEq, Repr

/-- A dirty-queue entry with its group and keep marks (R152). -/
structure QueueEntry where
  granule : Nat
  group   : Bool
  keep    : Bool
  deriving DecidableEq, Repr

/-- A track slot (R152).  `armedBy` is the channel whose TRACK_START arms it (R154: "ARMING under this
command"). -/
structure Slot where
  state      : SlotState
  domain     : Option Nat
  fillMark   : Nat
  queue      : List QueueEntry
  collecting : Option Nat
  armedBy    : Option Nat
  deriving DecidableEq, Repr

/-! ### Regions (R195) -/

inductive RegionState where
  | empty
  | pending
  | set
  | lockedDown
  deriving DecidableEq, Repr

/-- A Region Table entry (R195). -/
structure Region where
  first    : Nat
  count    : Nat
  noAccess : Bool
  state    : RegionState
  deriving DecidableEq, Repr

/-! ### Violations and notices (chapter 10) -/

/-- The violation reasons that are logged (R185). -/
inductive Reason where
  | management
  | unknownDomain
  | tagRegion
  | region
  | notOwner
  | grantMode
  | grantInactive
  | clearing
  | poisoned
  deriving DecidableEq, Repr

/-- A violation record (R185). -/
structure Violation where
  domain    : Nat
  write     : Bool
  address   : Nat
  reason    : Reason
  counted   : Bool
  ownerSeen : Option Nat
  stateSeen : Option GState
  deriving DecidableEq, Repr

/-- A notice source (R189). -/
structure Source where
  cls      : Nat
  pending  : Bool
  notified : Bool
  deriving DecidableEq, Repr

/-! ### The Command Unit (chapter 9) -/

/-- The commands of the catalogue (R178). -/
inductive Cmd where
  | format
  | assign
  | release
  | restore
  | queryGranules
  | retire
  | revokeGrant
  | trackStart
  | trackCollect
  | flushTags
  | regionSet
  | create
  | start
  | pause
  | resume
  | unfence
  | setQuota
  | setFence
  | clearDomainCounters
  | domainStatus
  | activateGrant
  | grantRead
  | trackStop
  | trackStatus
  | violationPop
  | noticeConfig
  | noticeClear
  | noticeStatus
  | regionClear
  | regionLockdown
  | freeze
  | setFaultPolicy
  | contain
  | resumePart
  | ackIntegrity
  | clearIntegrityCount
  | setCorrectedLimit
  | poisonRead
  | partStatus
  | abort
  | resetEngines
  deriving DecidableEq, Repr

/-- A response (R181), by its fields; `Operands.encodeResponse` gives its 64 bytes. -/
structure Response where
  code      : Nat
  result    : Result
  channel   : Nat
  cookie    : Nat
  finished  : Nat
  remaining : Nat
  next      : Nat
  w0        : Nat
  w1        : Nat
  w2        : Nat
  w3        : Nat
  w4        : Nat
  deriving DecidableEq, Repr

/-- Where RETIRE stands in its walk (R106): the granule it visits next, whether it is still in the hint
range, whether its present pass of the span has found a granule of the domain, and the granule after the
last one visited. -/
structure RetireWalk where
  position : Nat
  inHint   : Bool
  found    : Bool
  after    : Nat
  deriving DecidableEq, Repr

/-- Progress of a RETIRE (R103 to R110).  `collected` holds the index and serial of each collected grant
entry not yet removed; `poisonedAtVisit` says that the granule in progress has the POISONED handling of
R107. -/
structure RetireWork where
  domain          : Nat
  hintFirst       : Nat
  hintCount       : Nat
  collected       : List (Nat × Nat)
  removed         : Nat
  slotReleased    : Option Nat
  ownedAtWalk     : Nat
  released        : Nat
  walk            : RetireWalk
  poisonedAtVisit : Bool
  deriving DecidableEq, Repr

/-- Progress of a REVOKE_GRANT (R147): the entry's index, identity and fixed fields. -/
structure RevokeWork where
  index     : Nat
  serial    : Nat
  granule   : Nat
  owner     : Nat
  grantee   : Nat
  readWrite : Bool
  deriving DecidableEq, Repr

/-- Progress of a TRACK_COLLECT (R158 to R161): `group` is the group being delivered and `visited` how many
of its granules the clearing phase has visited. -/
structure CollectWork where
  slot      : Nat
  buffer    : Nat
  capacity  : Nat
  count     : Nat
  delivered : Nat
  lines     : Nat
  group     : List Nat
  visited   : Nat
  deriving DecidableEq, Repr

/-- Progress of a FLUSH_TAGS (R60): the way it visits next, the lines whose write-backs it issued or
counted and still waits for, all the lines it issued or counted, those of them whose write-back it
produced itself and waits for, how many completed OK and failed, and the lowest line that failed. -/
structure FlushWork where
  position : Nat
  waiting  : List Nat
  found    : List Nat
  issued   : List Nat
  good     : Nat
  failed   : Nat
  lowest   : Option Nat
  deriving DecidableEq, Repr

/-- The parameters and progress of an active work command. -/
inductive Work where
  | format (base next : Nat) (lowest : Option Nat)
  | assign (domain first count : Nat) (keep : Bool) (finished : Nat)
  | release (domain first count finished : Nat)
  | restore (granule : Nat)
  | queryGranules (first count : Nat) (words : List Nat)
  | retire (r : RetireWork)
  | revoke (r : RevokeWork)
  | trackStart (slot domain first count finished cleared : Nat)
  | trackCollect (k : CollectWork)
  | flushTags (f : FlushWork)
  | regionSet (index first count : Nat) (noAccess : Bool) (finished : Nat)
  deriving DecidableEq, Repr

/-- Where a work command stands (R112, R105, R159): visiting or validating its next granule, `visiting` being RETIRE's
visit once it has begun and its lookup is still to be made (R106, R108); in its drain, at the lookup after the drain, asking for a Scrub Unit, zeroing, at the lookup after the zeroing, undoing,
waiting out a failed zeroing, in RETIRE's grant clearance or a grant's removal, and in TRACK_COLLECT's
buffer test, clearing, draining and writing; `writes` is FORMAT's and FLUSH_TAGS's writing. -/
inductive Phase where
  | visit
  | visiting
  | drain
  | afterDrain
  | unit
  | zero
  | afterZero
  | undo
  | scrubFailed
  | clearance
  | removal
  | buffer
  | clearing
  | draining
  | harvest
  | writes
  deriving DecidableEq, Repr

/-- The active work command of a channel (R165).  `ending` is the result that a stop already under way
will report. -/
structure Active where
  block  : Line
  work   : Work
  phase  : Phase
  wait   : Wait
  ending : Option Result
  deriving DecidableEq, Repr

/-- A pending undo kept across a warm reset (R132): the granule, the operation whose change is undone, and
whether a poisoning takes its place. -/
structure PendingUndo where
  granule : Nat
  work    : Work
  poison  : Bool
  wait    : Wait
  deriving DecidableEq, Repr

/-- A management channel (R165).  `retake` is the model's own mark, set when the rules let the channel take
again in the same step (R168, R171) and clear between steps. -/
structure Channel where
  control  : List Line
  work     : List Line
  active   : Option Active
  stop     : Bool
  ready    : List Response
  reserved : Nat
  undo     : Option PendingUndo
  claim    : Option Nat
  retake   : Bool
  deriving DecidableEq, Repr

/-- The stages of the warm reset (R174).  `tagCache` holds how far its write-back of the cache has come;
`revocation` the index and serial of the REVOKING entries still to be removed, the first being in hand, and
whether its drain has finished. -/
inductive WarmStage where
  | settling
  | tagCache (w : CacheWrites)
  | revocation (todo : List (Nat × Nat)) (drained : Bool) (wait : Wait)
  deriving DecidableEq, Repr

/-- A warm reset in progress (R173, R174): its channel and command block, its stage and the counts of its
response. -/
structure WarmReset where
  channel   : Nat
  block     : Line
  stage     : WarmStage
  stopped   : Nat
  discarded : Nat
  lost      : Nat
  removed   : Nat
  left      : Nat
  deriving DecidableEq, Repr

/-- A Scrub Unit while ZEROING (R125).  `halted` says that it issues no further line. -/
structure Zeroing where
  channel   : Nat
  granule   : Nat
  issued    : Nat
  completed : Nat
  failed    : Bool
  halted    : Bool
  deriving DecidableEq, Repr

/-! ### The state -/

/-- The state of the part.  Index sets: `ways` is keyed by 8·set + way, `lru` by set, `inFlight` by
In-Flight index, `domains` and `results` by domain tag, `grants` by grant index, `channels`, `units`,
`slots`, `regions` and `notices` by their numbers.  `produced` is the model's own: the requests that the running
step has produced, which are issued at its end (R10), so that it is empty between steps. -/
structure State where
  -- Governed span (R18 to R20)
  base           : Nat
  requested      : Nat
  size           : Nat
  -- Mode Control (R30, R195 to R204)
  mode           : Mode
  cause          : Option Cause
  integrityMark  : Bool
  policy         : Policy
  faultLine      : Bool
  warnLine       : Bool
  flush          : Flush
  -- Tag region and FORMAT (R24, R33, R34)
  tagBase        : Option Nat
  progress       : Nat
  -- Upstream port (R3 to R8)
  upLink         : Bool
  tagsInUse      : List Nat
  completions    : List Completion
  noticeSlot     : Option Notice
  txOffered      : Option TxSort
  txLast         : Option TxSort
  -- Downstream port (R9 to R12, R14)
  downLink       : Bool
  outstanding    : List Outstanding
  heldTags       : List HeldTag
  tagWaits       : List OwnJob
  produced       : List OwnJob
  offers         : List DownRequest
  downOffered    : Option Nat
  lastClass      : Option ReqClass
  -- Check Engine and In-Flight Table (R63, R80, R85)
  stage          : Option HeldTx
  inFlight       : Table InFlight
  drains         : List Drain
  -- Tag Cache, Fill Table, Miss Queue (R40 to R51)
  ways           : Table Way
  lru            : Table (List Nat)
  fills          : List Fill
  fillWaits      : List Nat
  fillSerial     : Nat
  missQueue      : List Miss
  poisonings     : List PendingPoison
  -- Integrity Checker (R53, R57, R58)
  corrected      : Nat
  correctedLimit : Nat
  firstCorrected : Option Nat
  hold           : Option Nat
  poisonList     : List PoisonEntry
  -- Domain Table (R89)
  domains        : Table Domain
  -- Grant Table (R134)
  grants         : Table Grant
  grantSerial    : Nat
  -- Domain Request Unit (R139 to R141)
  requests       : List GuestRequest
  running        : Option GuestRun
  results        : Table LastResult
  -- Command Unit (R165, R174)
  channels       : Table Channel
  warm           : Option WarmReset
  -- Scrub Units (R125, R126)
  units          : Table Zeroing
  lastServed     : Nat
  -- Track Unit (R152)
  slots          : Table Slot
  -- Region Table (R195)
  regions        : Table Region
  freeze         : Bool
  -- Violation Log and Notice Unit (R186, R189)
  log            : List Violation
  notices        : Table Source
  -- The commands that wait (the queue of the block's interface)
  pending        : List Instr
  deriving DecidableEq, Repr

/-! ### Faults and refusals -/

/-- The reasons for which a step could stop the machine.  The manual gives every step of the part an
effect, so no meaning of this model raises one; the type is closed. -/
inductive Fault where
  /-- Raised by no meaning (safe: an unused name adds no behaviour). -/
  | unreachable
  deriving DecidableEq, Repr

/-- The reasons for which a command has no meaning. -/
inductive Refusal where
  /-- Raised by a dispatch arm whose meaning is not written (safe: the model stops).  No arm of this model
  uses it. -/
  | notModelled (mnemonic : String)
  deriving DecidableEq, Repr

/-! ### Reset values -/

/-- A Domain Table entry in state FREE (R89, R111). -/
def Domain.reset : Domain :=
  { state := .free, quota := 0, owned := 0, violations := 0, threshold := 0, firstAddress := none,
    given := 0, held := 0, slot := none, retireActive := false }

/-- The cold-reset entry of each domain: domain 0 is ROOT, the others FREE (R111). -/
def Domain.resetOf (d : Nat) : Domain :=
  if d = 0 then { Domain.reset with state := .root } else Domain.reset

/-- A channel after cold reset (R176). -/
def Channel.reset : Channel :=
  { control := [], work := [], active := none, stop := false, ready := [], reserved := 0,
    undo := none, claim := none, retake := false }

/-- A track slot after cold reset (R164). -/
def Slot.reset : Slot :=
  { state := .idle, domain := none, fillMark := 512, queue := [], collecting := none, armedBy := none }

/-- A Region Table entry after cold reset (R204: EMPTY).  DESIGN CHOICE (assumption 2, unsafe): range,
count and kind, which are meaningful only while not EMPTY, start at 0, 0 and ROOT_ONLY. -/
def Region.reset : Region :=
  { first := 0, count := 0, noAccess := false, state := .empty }

/-- A notice source after cold reset (R189): sources 3 to 6 have class 3, the others class 2. -/
def Source.resetOf (n : Nat) : Source :=
  { cls := if 3 ≤ n ∧ n ≤ 6 then 3 else 2, pending := false, notified := false }

/-- A last-result record of kind NONE (R141). -/
def LastResult.reset : LastResult :=
  { kind := 0, result := .empty, granule := 0, grant := none, query := .absent }

/-- The cold-reset order of every set: way 0 least, way 7 most recently used (R41). -/
def lruReset : List Nat := [0, 1, 2, 3, 4, 5, 6, 7]

/-- The part right after a cold reset, with the levels its straps present and the levels of the two
platform lines, which the part samples continuously and a cold reset does not change (R15, R18 to R20,
R39, R62, R88, R111, R133, R151, R164, R176, R194, R204).  DESIGN CHOICE (assumption 3, unsafe): the
upstream link is down until UPSTREAM_LINK_UP, the downstream link is up. -/
def coldState (baseStrap sizeStrap : Nat) (faultLine warnLine : Bool) : State :=
  { base := strapBase baseStrap
    requested := strapSize sizeStrap
    size := clampSize (strapBase baseStrap) (strapSize sizeStrap)
    mode := .unformatted, cause := none, integrityMark := false, policy := .contain
    faultLine := faultLine, warnLine := warnLine, flush := .none
    tagBase := none, progress := 0
    upLink := false, tagsInUse := [], completions := [], noticeSlot := none
    txOffered := none, txLast := none
    downLink := true, outstanding := [], heldTags := [], tagWaits := [], produced := []
    offers := []
    downOffered := none, lastClass := none
    stage := none, inFlight := [], drains := []
    ways := [], lru := [], fills := [], fillWaits := [], fillSerial := 0, missQueue := [], poisonings := []
    corrected := 0, correctedLimit := 16, firstCorrected := none, hold := none, poisonList := []
    domains := [], grants := [], grantSerial := 0
    requests := [], running := none, results := []
    channels := [], warm := none
    units := [], lastServed := 3
    slots := [], regions := [], freeze := false
    log := [], notices := []
    pending := [] }

/-- The machine right after reset.  DESIGN CHOICE (assumption 1, unsafe): the straps present 0 and 0
(span base 0, 256 GiB) and both platform lines are deasserted. -/
def State.reset : State := coldState 0 0 false false

end Sys2Proof.Machine
end

