-- ==== Sys2Proof/Machine/Ops.lean ====
section
/-!
DEFINITION. The named operations over the tables of the state: reading and writing an indexed table, and one
reader and one writer for each table of the part.
-/

namespace Sys2Proof.Machine

/-! ### Indexed tables -/

/-- The entry listed at an index. -/
def tblGet {α : Type} : Table α → Nat → Option α
  | [], _ => none
  | (k, v) :: t, x => if k = x then some v else tblGet t x

/-- Lists an entry at an index, keeping the indices in rising order. -/
def tblPut {α : Type} : Table α → Nat → α → Table α
  | [], x, v => [(x, v)]
  | (k, w) :: t, x, v =>
    if k = x then (x, v) :: t
    else if x < k then (x, v) :: (k, w) :: t
    else (k, w) :: tblPut t x v

/-- Removes the entry at an index. -/
def tblDel {α : Type} (t : Table α) (x : Nat) : Table α := t.filter (fun p => p.1 != x)

/-- Writes a table whose unlisted indices hold `d`: an entry equal to `d` is removed. -/
def tblSet {α : Type} [DecidableEq α] (d : α) (t : Table α) (x : Nat) (v : α) : Table α :=
  if v = d then tblDel t x else tblPut t x v

/-- The lowest index below `limit` that the table does not list. -/
def tblFree {α : Type} (limit : Nat) (t : Table α) : Option Nat :=
  (List.range limit).find? (fun k => (tblGet t k).isNone)

/-- The form of every table: indices strictly rising. -/
def tblWf {α : Type} : Table α → Bool
  | [] => true
  | [_] => true
  | (k, _) :: (k', w) :: t => decide (k < k') && tblWf ((k', w) :: t)

/-! ### Records of a tag line (R25) -/

/-- The record in slot i of a tag line. -/
def quadGet (q : Quad) : Nat → TagRecord
  | 0 => q.r0
  | 1 => q.r1
  | 2 => q.r2
  | _ => q.r3

/-- The tag line with another record in slot i. -/
def quadSet (q : Quad) (i : Nat) (r : TagRecord) : Quad :=
  match i with
  | 0 => { q with r0 := r }
  | 1 => { q with r1 := r }
  | 2 => { q with r2 := r }
  | _ => { q with r3 := r }

/-! ### Readers and writers of the part's tables -/

/-- The Domain Table entry of a domain (R89); an unlisted domain holds its cold-reset entry. -/
def dom (s : State) (d : Nat) : Domain := (tblGet s.domains d).getD (Domain.resetOf d)

/-- Writes a Domain Table entry. -/
def setDom (d : Nat) (e : Domain) (s : State) : State :=
  { s with domains := tblSet (Domain.resetOf d) s.domains d e }

/-- The channel numbered c (R165). -/
def chan (s : State) (c : Nat) : Channel := (tblGet s.channels c).getD Channel.reset

/-- Writes a channel. -/
def setChan (c : Nat) (e : Channel) (s : State) : State :=
  { s with channels := tblSet Channel.reset s.channels c e }

/-- The track slot numbered k (R152). -/
def slotOf (s : State) (k : Nat) : Slot := (tblGet s.slots k).getD Slot.reset

/-- Writes a track slot. -/
def setSlot (k : Nat) (e : Slot) (s : State) : State :=
  { s with slots := tblSet Slot.reset s.slots k e }

/-- The Region Table entry numbered i (R195). -/
def regionOf (s : State) (i : Nat) : Region := (tblGet s.regions i).getD Region.reset

/-- Writes a Region Table entry. -/
def setRegion (i : Nat) (e : Region) (s : State) : State :=
  { s with regions := tblSet Region.reset s.regions i e }

/-- The notice source numbered n (R188, R189). -/
def sourceOf (s : State) (n : Nat) : Source := (tblGet s.notices n).getD (Source.resetOf n)

/-- Writes a notice source. -/
def setSource (n : Nat) (e : Source) (s : State) : State :=
  { s with notices := tblSet (Source.resetOf n) s.notices n e }

/-- The last-result record of a domain (R141). -/
def resultOf (s : State) (d : Nat) : LastResult := (tblGet s.results d).getD LastResult.reset

/-- Writes a last-result record. -/
def setResult (d : Nat) (e : LastResult) (s : State) : State :=
  { s with results := tblSet LastResult.reset s.results d e }

/-- The Grant Table entry at an index, if the index holds one (R134). -/
def grantAt (s : State) (i : Nat) : Option Grant := tblGet s.grants i

/-- Writes a Grant Table entry. -/
def setGrant (i : Nat) (g : Grant) (s : State) : State := { s with grants := tblPut s.grants i g }

/-- The index and entry for a pair (granule, grantee), of which there is at most one (R134). -/
def grantFor (s : State) (granule grantee : Nat) : Option (Nat × Grant) :=
  s.grants.find? (fun p => p.2.granule == granule && p.2.grantee == grantee)

/-- A Scrub Unit while ZEROING, `none` while IDLE (R125). -/
def unitOf (s : State) (u : Nat) : Option Zeroing := tblGet s.units u

/-- Makes a Scrub Unit ZEROING. -/
def setUnit (u : Nat) (z : Zeroing) (s : State) : State := { s with units := tblPut s.units u z }

/-- Makes a Scrub Unit IDLE. -/
def idleUnit (u : Nat) (s : State) : State := { s with units := tblDel s.units u }

/-- The least-to-most-recently-used order of a set (R41). -/
def lruOf (s : State) (set : Nat) : List Nat := (tblGet s.lru set).getD lruReset

/-- The channel numbers, in order. -/
def channelNumbers : List Nat := [0, 1, 2, 3]

/-- Whether a POWER_WARN edge has been sensed since cold reset (R168, R202). -/
def warned (s : State) : Bool := s.flush != .none

/-- Whether the POWER_WARN flush is in progress: begun and the mode not yet HALTED (R7, R202). -/
def flushing (s : State) : Bool :=
  match s.flush with
  | .waiting => true
  | .writing _ => true
  | _ => false

/-- Updates a channel's active work command, if it has one. -/
def mapActive (c : Nat) (f : Active → Active) (s : State) : State :=
  let ch := chan s c
  setChan c { ch with active := ch.active.map f } s

/-- Sets the phase and the wait of a channel's active work command. -/
def goPhase (c : Nat) (p : Phase) (w : Wait) (s : State) : State :=
  mapActive c (fun a => { a with phase := p, wait := w }) s

/-- Sets the wait of a channel's active work command. -/
def goWait (c : Nat) (w : Wait) (s : State) : State := mapActive c (fun a => { a with wait := w }) s

/-- Sets the progress of a channel's active work command. -/
def goWork (c : Nat) (w : Work) (s : State) : State := mapActive c (fun a => { a with work := w }) s

/-- Records the result that a stop under way will report; the first one stands, but for ABORTED (`requestStop`). -/
def goEnding (c : Nat) (r : Result) (s : State) : State :=
  mapActive c (fun a => { a with ending := some (a.ending.getD r) }) s

/-- Takes or releases a channel's granule claim (R113). -/
def setClaim (c : Nat) (g : Option Nat) (s : State) : State :=
  setChan c { chan s c with claim := g } s

/-- The channel that holds a claim on a granule (R113). -/
def claimant (s : State) (g : Nat) : Option Nat :=
  channelNumbers.find? (fun c => (chan s c).claim == some g)

/-- Whether a granule is under a claim (R113). -/
def claimed (s : State) (g : Nat) : Bool := (claimant s g).isSome

end Sys2Proof.Machine
end

