-- ==== Sys2Proof/Machine/Operands.lean ====
section
/-!
DEFINITION. Operands and formats: the arithmetic of the span (R20 to R25), the command catalogue (R178), the
fields of a command block (R180), the codes of enumerations (R179, R180) and the byte layouts that software
reads or writes (R181 to R184).
-/

namespace Sys2Proof.Machine

/-! ### The span (R20 to R25) -/

/-- The granule count N (R20). -/
def granuleCount (s : State) : Nat := granuleCountOf s.size

/-- The tag region size R in granules (R20). -/
def tagRegionSize (s : State) : Nat := tagRegionSizeOf s.size

/-- The number of tag lines, N/4 (R20). -/
def tagLineCount (s : State) : Nat := tagLineCountOf s.size

/-- Where the aperture begins: B + S (R20). -/
def apertureBase (s : State) : Nat := s.base + s.size

/-- The classes of R21. -/
inductive AddressClass where
  | governed (granule : Nat)
  | aperture (offset : Nat)
  | outside
  deriving DecidableEq, Repr

/-- The byte address of a request's line: its low 6 bits ignored (R2). -/
def lineAddress (a : Address) : Nat := a.toNat / 64 * 64

/-- The granule of a governed address (R22). -/
def granuleOf (s : State) (address : Nat) : Nat := (address - s.base) / Config.granuleBytes

/-- The class of an address (R21, R22). -/
def classify (s : State) (a : Address) : AddressClass :=
  let x := lineAddress a
  if s.base ≤ x ∧ x < s.base + s.size then .governed (granuleOf s x)
  else if s.base + s.size ≤ x ∧ x < s.base + s.size + Config.apertureBytes then
    .aperture (x - (s.base + s.size))
  else .outside

/-- The tag line of a granule (R25). -/
def tagLineOf (g : Nat) : Nat := g / 4

/-- The slot of a granule within its tag line (R25). -/
def slotInLine (g : Nat) : Nat := g % 4

/-- The Tag Cache set of a tag line (R25). -/
def cacheSet (line : Nat) : Nat := line % Config.cacheSets

/-- The byte address of a tag line (R25). -/
def tagLineAddress (s : State) (line : Nat) : Nat :=
  s.base + s.tagBase.getD 0 * Config.granuleBytes + 64 * line

/-- Whether a granule lies in the tag region (R24). -/
def inTagRegion (s : State) (g : Nat) : Bool :=
  match s.tagBase with
  | none => false
  | some t => decide (t ≤ g ∧ g < t + tagRegionSize s)

/-- The range check of R23: a range that it refuses. -/
def rangeBad (s : State) (f n : Nat) : Bool :=
  n == 0 || decide (Config.rangeMax < n) || decide (granuleCount s < f + n)

/-- Whether two granule ranges share a granule. -/
def rangesMeet (f n f' n' : Nat) : Bool := decide (f < f' + n' ∧ f' < f + n)

/-! ### Fields of a line -/

/-- The little-endian field of `len` bytes at byte offset `off` (R180). -/
def lineField (l : Line) (off len : Nat) : Nat := l.toNat / 256 ^ off % 256 ^ len

/-- A number whose bytes hold the given fields (offset, length, value), each little-endian. -/
def packFields : List (Nat × Nat × Nat) → Nat
  | [] => 0
  | (off, len, v) :: t => v % 256 ^ len * 256 ^ off + packFields t

/-- All-ones across `len` bytes (R181). -/
def allOnes (len : Nat) : Nat := 256 ^ len - 1

/-- All-ones in a value word. -/
def onesWord : Nat := allOnes 8

/-- An optional field: all-ones across its own bytes when it is absent (R181). -/
def optField (len : Nat) (o : Option Nat) : Nat := o.getD (allOnes len)

def boolBit (b : Bool) : Nat := if b then 1 else 0

/-- The 64 bytes whose fields are given. -/
def packLine (fs : List (Nat × Nat × Nat)) : Line := BitVec.ofNat 512 (packFields fs)

/-! ### Command blocks (R180) -/

def blockCode (b : Line) : Nat := lineField b 0 2
def blockCookie (b : Line) : Nat := lineField b 4 4
def wordA (b : Line) : Nat := lineField b 8 8
def wordB (b : Line) : Nat := lineField b 16 8
def wordC (b : Line) : Nat := lineField b 24 8
def wordD (b : Line) : Nat := lineField b 32 8
def wordE (b : Line) : Nat := lineField b 40 8

/-- The command catalogue (R178): the command that a code names. -/
def cmdOfCode : Nat → Option Cmd
  | 0x10 => some .format
  | 0x11 => some .assign
  | 0x12 => some .release
  | 0x13 => some .restore
  | 0x14 => some .queryGranules
  | 0x15 => some .retire
  | 0x16 => some .revokeGrant
  | 0x17 => some .trackStart
  | 0x18 => some .trackCollect
  | 0x19 => some .flushTags
  | 0x1A => some .regionSet
  | 0x40 => some .create
  | 0x41 => some .start
  | 0x42 => some .pause
  | 0x43 => some .resume
  | 0x44 => some .unfence
  | 0x45 => some .setQuota
  | 0x46 => some .setFence
  | 0x47 => some .clearDomainCounters
  | 0x48 => some .domainStatus
  | 0x49 => some .activateGrant
  | 0x4A => some .grantRead
  | 0x4B => some .trackStop
  | 0x4C => some .trackStatus
  | 0x4D => some .violationPop
  | 0x4E => some .noticeConfig
  | 0x4F => some .noticeClear
  | 0x50 => some .noticeStatus
  | 0x51 => some .regionClear
  | 0x52 => some .regionLockdown
  | 0x53 => some .freeze
  | 0x54 => some .setFaultPolicy
  | 0x55 => some .contain
  | 0x56 => some .resumePart
  | 0x57 => some .ackIntegrity
  | 0x58 => some .clearIntegrityCount
  | 0x59 => some .setCorrectedLimit
  | 0x5A => some .poisonRead
  | 0x5B => some .partStatus
  | 0x5C => some .abort
  | 0x5D => some .resetEngines
  | _ => none

/-- Whether a command joins the work queue (R178). -/
def isWork : Cmd → Bool
  | .format => true
  | .assign => true
  | .release => true
  | .restore => true
  | .queryGranules => true
  | .retire => true
  | .revokeGrant => true
  | .trackStart => true
  | .trackCollect => true
  | .flushTags => true
  | .regionSet => true
  | _ => false

/-- The commands that pass the mode test in UNFORMATTED and FORMATTING (R169, R178's last column). -/
def runsUnformatted : Cmd → Bool
  | .format => true
  | .partStatus => true
  | .abort => true
  | .resetEngines => true
  | .noticeConfig => true
  | .noticeClear => true
  | .noticeStatus => true
  | .setFaultPolicy => true
  | _ => false

/-! ### Codes (R179, R180) -/

def resultCode : Result → Nat
  | .done => 0
  | .aborted => 1
  | .empty => 2
  | .pending => 3
  | .unknownCommand => 4
  | .parameter => 5
  | .mode => 6
  | .domainState => 7
  | .domainInUse => 8
  | .domainBusy => 9
  | .quotaReached => 10
  | .keepNotAllowed => 11
  | .granuleState => 12
  | .granuleBusy => 13
  | .granulePinned => 14
  | .granuleShared => 15
  | .regionConflict => 16
  | .poisoned => 17
  | .tagUnavailable => 18
  | .downstreamError => 19
  | .tableFull => 20
  | .grantLimit => 21
  | .duplicate => 22
  | .grantState => 23
  | .notOwner => 24
  | .noEntry => 25
  | .slotState => 26
  | .frozen => 27
  | .locked => 28
  | .lineAsserted => 29

def gstateCode : GState → Nat
  | .gOpen => 0
  | .gPrivate => 1
  | .gClearingIn => 2
  | .gClearingOut => 3
  | .gPoisoned => 4
  | .gReserved => 5

def dstateCode : DState → Nat
  | .free => 0
  | .preparing => 1
  | .running => 2
  | .paused => 3
  | .fenced => 4
  | .retiring => 5
  | .root => 6

def grantStateCode : GrantState → Nat
  | .offered => 1
  | .active => 2
  | .revoking => 3

def accessCode (readWrite : Bool) : Nat := if readWrite then 2 else 1

def slotStateCode : SlotState → Nat
  | .idle => 0
  | .arming => 1
  | .active => 2
  | .overflowed => 3

def regionStateCode : RegionState → Nat
  | .empty => 0
  | .pending => 1
  | .set => 2
  | .lockedDown => 3

def regionKindCode (noAccess : Bool) : Nat := if noAccess then 2 else 1

def policyCode : Policy → Nat
  | .contain => 1
  | .ignore => 2

def modeCode : Mode → Nat
  | .unformatted => 0
  | .formatting => 1
  | .operational => 2
  | .contained => 3
  | .halted => 4

def causeCode : Option Cause → Nat
  | none => 0
  | some .platformFault => 1
  | some .command => 2
  | some .ownerLost => 3
  | some .cascade => 4
  | some .poisonFull => 5
  | some .tagWrite => 6

def poisonCauseCode : PoisonCause → Nat
  | .record => 1
  | .orphanWrite => 2
  | .scrubFailed => 3

def reasonCode : Reason → Nat
  | .management => 1
  | .unknownDomain => 2
  | .tagRegion => 3
  | .region => 4
  | .notOwner => 5
  | .grantMode => 6
  | .grantInactive => 7
  | .clearing => 8
  | .poisoned => 9

/-! ### Byte layouts -/

/-- The 64 bytes of a response (R181).  DESIGN CHOICE (assumption 30): of a count that does not fit its four bytes,
as the n or the capacity that a refusal of R23, R153 or R158 returns may be, the low 32 bits are written. -/
def encodeResponse (r : Response) : Line :=
  packLine [(0, 2, r.code), (2, 1, resultCode r.result), (3, 1, r.channel), (4, 4, r.cookie),
    (8, 4, r.finished), (12, 4, r.remaining), (16, 8, r.next), (24, 8, r.w0), (32, 8, r.w1),
    (40, 8, r.w2), (48, 8, r.w3), (56, 8, r.w4)]

/-- The EMPTY record that a read of an empty ready list returns (R171). -/
def emptyResponse (c : Nat) : Response :=
  { code := 0, result := .empty, channel := c, cookie := 0, finished := 0, remaining := 0, next := 0,
    w0 := 0, w1 := 0, w2 := 0, w3 := 0, w4 := 0 }

/-- The value word of a record that QUERY_GRANULES has read (R181, R124). -/
def recordWord (r : TagRecord) : Nat :=
  packFields [(0, 1, gstateCode r.state), (2, 2, optField 2 r.owner), (4, 1, boolBit r.pinned),
    (5, 1, boolBit r.dirty), (6, 1, r.count)]

/-- Word 1 of the grant commands (R181); an absent state is 0xFF. -/
def grantWord (owner grantee : Nat) (readWrite : Bool) (state : Option GrantState) : Nat :=
  packFields [(0, 2, owner), (2, 2, grantee), (4, 1, accessCode readWrite),
    (5, 1, optField 1 (state.map grantStateCode))]

/-- Word 1 of REGION_CLEAR and REGION_LOCKDOWN (R181). -/
def regionWord (r : Region) : Nat :=
  packFields [(0, 4, r.count), (4, 1, regionKindCode r.noAccess), (5, 1, regionStateCode r.state)]

/-- Word 1 of VIOLATION_POP (R181). -/
def violationWord (v : Violation) : Nat :=
  packFields [(0, 2, v.domain), (2, 1, if v.write then 2 else 1), (3, 1, reasonCode v.reason),
    (4, 1, boolBit v.counted), (5, 1, optField 1 (v.stateSeen.map gstateCode)),
    (6, 2, optField 2 v.ownerSeen)]

/-- The last-result record as a read of the domain request line returns it (R182).  DESIGN CHOICE (assumption 31):
bytes 5 to 7 are 0 while the query part is absent. -/
def encodeLastResult (r : LastResult) : Line :=
  let q : Nat × Nat × Nat × Nat :=
    match r.query with
    | .absent => (0, 0, 0, 0)
    | .ownerView st p n => (1, gstateCode st, boolBit p, n)
    | .granteeView st g rw => (2, gstateCode st, grantStateCode g, accessCode rw)
  packLine [(0, 1, r.kind), (1, 1, resultCode r.result), (2, 2, optField 2 r.grant), (4, 1, q.1),
    (5, 1, q.2.1), (6, 1, q.2.2.1), (7, 1, q.2.2.2), (8, 8, r.granule)]

/-- A guest request read from the 64 bytes written (R139, R182). -/
def decodeGuestRequest (requester : Nat) (l : Line) : GuestRequest :=
  { requester := requester, kind := lineField l 0 1, access := lineField l 1 1,
    grantee := lineField l 2 2, granule := lineField l 8 8 }

/-- A harvest buffer line (R183): the group's indices, then all-ones. -/
def encodeHarvest (group : List Nat) : Line :=
  packLine ((List.range Config.groupSize).map (fun i => (4 * i, 4, (group[i]?).getD (allOnes 4))))

/-- The identity line (R177, R184). -/
def identityLine (s : State) : Line :=
  packLine [(0, 8, s.base), (8, 8, s.size), (16, 8, granuleCount s), (24, 4, Config.granuleBytes),
    (28, 2, Config.channels), (30, 2, Config.queueDepth), (32, 2, Config.queueDepth),
    (34, 2, Config.responseSlots), (36, 2, Config.cacheSets * Config.cacheWays),
    (38, 2, Config.fillEntries), (40, 2, Config.missEntries), (42, 2, Config.inFlightEntries),
    (44, 2, Config.domainTags), (46, 2, Config.grantEntries), (48, 2, Config.regionEntries),
    (50, 2, Config.scrubUnits), (52, 2, Config.trackSlots), (54, 2, Config.trackQueue),
    (56, 2, Config.logRecords), (58, 2, Config.poisonEntries), (60, 2, Config.requestQueue),
    (62, 2, Config.noticeSources)]

/-! ### Tag records as a fill reads them (R27, R28, R52) -/

/-- The owner as State holds it. -/
def ownerOf (o : Option (Fin 512)) : Option Nat := o.map (·.val)

/-- The record with this owner and this state part. -/
def recordOf (o : Option (Fin 512)) (p : StatePart) : TagRecord :=
  { owner := ownerOf o, state := p.state, pinned := p.pinned, dirty := p.dirty, count := p.count.val }

/-- An OPEN record (R29). -/
def openRecord : TagRecord := { owner := some 0, state := .gOpen, pinned := false, dirty := false, count := 0 }

/-- A RESERVED record (R29). -/
def reservedRecord : TagRecord :=
  { owner := some 0, state := .gReserved, pinned := false, dirty := false, count := 0 }

/-- A POISONED record with the owner given (R29, R54). -/
def poisonedRecord (o : Option Nat) : TagRecord :=
  { owner := o, state := .gPoisoned, pinned := false, dirty := false, count := 0 }

/-- The records that FORMAT writes in a tag line (R34). -/
def formatQuad (s : State) (line : Nat) : Quad :=
  let r := fun g => if inTagRegion s g then reservedRecord else openRecord
  { r0 := r (4 * line), r1 := r (4 * line + 1), r2 := r (4 * line + 2), r3 := r (4 * line + 3) }

end Sys2Proof.Machine
end

