-- ==== Sys2Proof/Machine/Flags.lean ====
section
/-!
DEFINITION. The marks that blocks raise for one another: notice marks and the choice of the next notice
(R189, R190), the entry causes of containment (R198), violation records with their counts and fences
(R75, R100, R101, R186) and the response of a completing command (R170).
-/

namespace Sys2Proof.Machine

/-! ### Notices (R188 to R190) -/

/-- The notice sources by number (R188). -/
inductive NoticeName where
  | violation
  | logFull
  | domainFenced
  | tagCorrectedLimit
  | tagUncorrectable
  | tagFetchFailed
  | contained
  | channelDone (c : Nat)
  | trackAttention
  | downstreamTimeout
  | formatDone
  deriving DecidableEq, Repr

def noticeNumber : NoticeName → Nat
  | .violation => 0
  | .logFull => 1
  | .domainFenced => 2
  | .tagCorrectedLimit => 3
  | .tagUncorrectable => 4
  | .tagFetchFailed => 5
  | .contained => 6
  | .channelDone c => 7 + c
  | .trackAttention => 11
  | .downstreamTimeout => 12
  | .formatDone => 13

/-- A raising of a source (R189): it sets the pending mark of a source that is not pending. -/
def raise (n : NoticeName) (s : State) : State :=
  let m := sourceOf s (noticeNumber n)
  if m.pending then s else setSource (noticeNumber n) { m with pending := true, notified := false } s

/-- Whether a source is a candidate for the notice slot (R190). -/
def isCandidate (s : State) (n : Nat) : Bool :=
  let m := sourceOf s n
  m.pending && !m.notified && decide (1 ≤ m.cls)

/-- The candidate of highest class and, among equals, lowest number (R190). -/
def noticeChoice (s : State) : Option Nat :=
  let cands := (List.range Config.noticeSources).filter (isCandidate s)
  [3, 2, 1].findSome? (fun k => cands.find? (fun n => (sourceOf s n).cls == k))

/-- The Notice Unit fills an empty notice slot (R190). -/
def placeNotice (s : State) : State :=
  match s.noticeSlot with
  | some _ => s
  | none =>
    match noticeChoice s with
    | none => s
    | some n =>
      let m := sourceOf s n
      setSource n { m with notified := true } { s with noticeSlot := some { source := n, cls := m.cls } }

/-! ### Mode Control (R198) -/

/-- The integrity causes (R198). -/
def isIntegrityCause : Cause → Bool
  | .platformFault => false
  | .command => false
  | .ownerLost => true
  | .cascade => true
  | .poisonFull => true
  | .tagWrite => true

/-- Mode Control takes an entry cause (R198, R59). -/
def enterCause (c : Cause) (s : State) : State :=
  if warned s then s
  else match s.mode with
    | .operational =>
      raise .contained
        { s with mode := .contained, cause := some c, integrityMark := s.integrityMark || isIntegrityCause c }
    | .contained => raise .contained { s with integrityMark := s.integrityMark || isIntegrityCause c }
    | _ => s

/-! ### Violations (R75, R100, R101, R185, R186) -/

/-- The counted reasons (R75). -/
def isCounted : Reason → Bool
  | .management => true
  | .tagRegion => true
  | .region => true
  | .notOwner => true
  | .grantMode => true
  | .unknownDomain => false
  | .grantInactive => false
  | .clearing => false
  | .poisoned => false

/-- The Violation Log takes a record (R186). -/
def logViolation (v : Violation) (s : State) : State :=
  if s.log.length = 0 then raise .violation { s with log := [v] }
  else if s.log.length < Config.logRecords then { s with log := s.log ++ [v] }
  else raise .logFull s

/-- Whether the domain states and marks of R101 fence a domain. -/
def fences (e : Domain) : Bool :=
  (e.state == .preparing || e.state == .running || e.state == .paused) &&
    e.threshold != 0 && decide (e.threshold ≤ e.violations)

/-- The fencing test (R101). -/
def fenceTest (d : Nat) (s : State) : State :=
  let e := dom s d
  if fences e then raise .domainFenced (setDom d { e with state := .fenced } s) else s

/-- A counted refusal reaches its domain's entry (R100). -/
def countViolation (d address : Nat) (s : State) : State :=
  let e := dom s d
  fenceTest d (setDom d
    { e with
      firstAddress := if e.violations = 0 then some address else e.firstAddress
      violations := min (e.violations + 1) Config.violationMax } s)

/-- A logged refusal: the record goes to the log and, for a counted reason, to the Domain Table (R75). -/
def violate (d : Nat) (write : Bool) (address : Nat) (reason : Reason) (seen : Option TagRecord)
    (s : State) : State :=
  let v : Violation :=
    { domain := d, write := write, address := address, reason := reason, counted := isCounted reason,
      ownerSeen := seen.bind (·.owner), stateSeen := seen.map (·.state) }
  let s := logViolation v s
  if isCounted reason then countViolation d address s else s

/-! ### Upstream completions (R4, R6) -/

/-- A completion is decided: it joins the completion queue, a READ carrying the data given (R4, R6). -/
def decideFor (r : Request) (status : Status) (data : Line) (s : State) : State :=
  { s with completions := s.completions ++
      [{ tag := r.tag.val, status := status, data := if r.kind = .read then some data else none,
         duplicate := false }] }

/-- A request is answered with a status other than OK: a READ carries zero data (R4, R74). -/
def answer (r : Request) (status : Status) (s : State) : State := decideFor r status 0 s

/-! ### Responses (R170, R181) -/

/-- The counts and value words of a response: a value word that no rule names is 0 (R181).  DESIGN CHOICE
(assumption 41): a count or next granule that no rule gives is 0, too. -/
structure Report where
  finished  : Nat := 0
  remaining : Nat := 0
  next      : Nat := 0
  w0        : Nat := 0
  w1        : Nat := 0
  w2        : Nat := 0
  w3        : Nat := 0
  w4        : Nat := 0
  deriving DecidableEq, Repr

/-- The response to a command block (R181). -/
def mkResponse (b : Line) (c : Nat) (r : Result) (p : Report) : Response :=
  { code := blockCode b, result := r, channel := c, cookie := blockCookie b, finished := p.finished,
    remaining := p.remaining, next := p.next, w0 := p.w0, w1 := p.w1, w2 := p.w2, w3 := p.w3, w4 := p.w4 }

/-- A response takes its place at the end of a channel's ready list and raises CHANNEL_DONE (R170). -/
def pushResponse (c : Nat) (r : Response) (s : State) : State :=
  let ch := chan s c
  raise (.channelDone c) (setChan c { ch with ready := ch.ready ++ [r] } s)

/-- A taken command's response becomes ready in the slot reserved for it (R170). -/
def respond (c : Nat) (b : Line) (r : Result) (p : Report) (s : State) : State :=
  let ch := chan s c
  pushResponse c (mkResponse b c r p) (setChan c { ch with reserved := ch.reserved - 1 } s)

/-- The active work command of a channel completes (R170): the channel is without one, its claim is
released and it may take again in the same step (R168).  During a warm reset no response is made and the
reservation is released (R173). -/
def completeWork (c : Nat) (r : Result) (p : Report) (s : State) : State :=
  match (chan s c).active with
  | none => s
  | some a =>
    let cleared : State := setChan c { chan s c with active := none, stop := false, claim := none } s
    match s.warm with
    | some w =>
      let ch := chan cleared c
      setChan c { ch with reserved := ch.reserved - 1 } { cleared with warm := some { w with stopped := w.stopped + 1 } }
    | none =>
      let t := respond c a.block r p cleared
      setChan c { chan t c with retake := true } t

end Sys2Proof.Machine
end

