-- ==== Sys2Proof/Machine/Downstream.lean ====
section
/-!
DEFINITION. The downstream port (1.5): tag classes, the issue of own requests and their tags (R9, R10), the
rotation among classes (R11), and the timers that run at the port and in the In-Flight Table (R10, R12, R80).
-/

namespace Sys2Proof.Machine

/-- The first downstream tag of a class (R10). -/
def classLow : ReqClass → Nat
  | .forwarded => 0
  | .fill => 256
  | .writeBack => 272
  | .formatWrite => 304
  | .zeroWrite => 336
  | .harvestWrite => 592

/-- The number of downstream tags of a class (R10). -/
def classTags : ReqClass → Nat
  | .forwarded => 256
  | .fill => 16
  | .writeBack => 32
  | .formatWrite => 32
  | .zeroWrite => 256
  | .harvestWrite => 16

/-- The classes in the rotation order of R10's table. -/
def classOrder : List ReqClass := [.forwarded, .fill, .writeBack, .formatWrite, .zeroWrite, .harvestWrite]

/-- Whether a downstream tag is of a class (R10). -/
def tagInClass (cls : ReqClass) (tag : Nat) : Bool :=
  decide (classLow cls ≤ tag ∧ tag < classLow cls + classTags cls)

/-- The class of a downstream tag; the part issues none from 608 on (R10). -/
def tagClass (tag : Nat) : Option ReqClass := classOrder.find? (fun cls => tagInClass cls tag)

/-- The class of an own request (R10). -/
def jobClass : OwnJob → ReqClass
  | .fill _ _ => .fill
  | .writeBack _ _ => .writeBack
  | .formatLine _ => .formatWrite
  | .zeroLine _ _ => .zeroWrite
  | .harvest _ => .harvestWrite

/-- The lowest-numbered free tag of a class: neither outstanding nor held (R10, R12). -/
def freeTag (cls : ReqClass) (s : State) : Option Nat :=
  ((List.range (classTags cls)).map (· + classLow cls)).find? (fun t =>
    !(s.outstanding.any (fun o => o.tag == t)) && !(s.heldTags.any (fun h => h.tag == t)))

/-- The request that an own job offers downstream, with domain tag 0 and, for a write, the contents at its
issue (R9, R42, R125, R158, R183). -/
def packetOf (tag : Nat) (job : OwnJob) (s : State) : DownRequest :=
  match job with
  | .fill _ line =>
    { tag := tag, kind := .read, domain := 0, address := tagLineAddress s line, mask := 0, data := .none }
  | .writeBack key line =>
    { tag := tag, kind := .write, domain := 0, address := tagLineAddress s line, mask := 0
      data := match tblGet s.ways key with
        | some w => .tagLine w.records
        | none => .none }
  | .formatLine line =>
    { tag := tag, kind := .write, domain := 0, address := tagLineAddress s line, mask := 0
      data := .tagLine (formatQuad s line) }
  | .zeroLine u i =>
    { tag := tag, kind := .write, domain := 0, mask := 0, data := .line 0
      address := s.base + Config.granuleBytes * ((unitOf s u).map (·.granule)).getD 0 + 64 * i }
  | .harvest c =>
    match ((chan s c).active).map (·.work) with
    | some (Work.trackCollect k) =>
      { tag := tag, kind := .write, domain := 0, mask := 0, data := .line (encodeHarvest k.group)
        address := s.base + Config.granuleBytes * k.buffer + 64 * k.lines }
    | _ => { tag := tag, kind := .write, domain := 0, address := 0, mask := 0, data := .none }

/-- What the engine of a job notes when its request is issued under a tag (R47, R125). -/
def noteIssue (tag : Nat) (job : OwnJob) (s : State) : State :=
  match job with
  | .fill serial _ =>
    { s with fills := s.fills.map (fun f => if f.serial = serial then { f with tag := some tag } else f) }
  | .zeroLine u _ =>
    match unitOf s u with
    | some z => setUnit u { z with issued := z.issued + 1 } s
    | none => s
  | _ => s

/-- An own request is handed to the port under a tag (R9, R11). -/
def sendJob (tag : Nat) (job : OwnJob) (s : State) : State :=
  noteIssue tag job
    { s with
      outstanding := s.outstanding ++ [{ tag := tag, job := job, changed := false, timer := 0 }]
      offers := s.offers ++ [packetOf tag job s] }

/-- The own requests that have been produced and have no tag yet: those that wait for one, and those of the running
step, which are issued at its end (R10). -/
def waitingJobs (s : State) : List OwnJob := s.tagWaits ++ s.produced

/-- An engine produces a request, which is issued, or joins those that wait, when the step ends (R10). -/
def produceJob (job : OwnJob) (s : State) : State := { s with produced := s.produced ++ [job] }

/-- The requests without a tag that `keep` rejects are not issued. -/
def keepJobs (keep : OwnJob → Bool) (s : State) : State :=
  { s with tagWaits := s.tagWaits.filter keep, produced := s.produced.filter keep }

/-- A produced request takes the lowest free tag of its class, or waits behind the requests of its class
produced before it (R10). -/
def issueJob (job : OwnJob) (s : State) : State :=
  if s.tagWaits.any (fun j => jobClass j == jobClass job) then { s with tagWaits := s.tagWaits ++ [job] }
  else match freeTag (jobClass job) s with
    | some t => sendJob t job s
    | none => { s with tagWaits := s.tagWaits ++ [job] }

/-- The place of a request among those of its class that one step produces (R10): zero writes by Scrub Unit
number, harvest writes by channel number, write-backs and format writes by tag line index. -/
def jobOrder : OwnJob → Nat
  | .fill _ _ => 0
  | .writeBack _ line => line
  | .formatLine line => line
  | .zeroLine u _ => u
  | .harvest c => c

/-- The number of a class in the rotation. -/
def classIndex : ReqClass → Nat
  | .forwarded => 0
  | .fill => 1
  | .writeBack => 2
  | .formatWrite => 3
  | .zeroWrite => 4
  | .harvestWrite => 5

/-- Puts a request in front of the first that does not come before it, by class and then by its place in it. -/
def insertJob (x : OwnJob) : List OwnJob → List OwnJob
  | [] => [x]
  | y :: t =>
    if classIndex (jobClass x) < classIndex (jobClass y) ∨
        (jobClass x = jobClass y ∧ jobOrder x ≤ jobOrder y) then x :: y :: t
    else y :: insertJob x t

/-- The requests that the step from `old` to `s` has produced, in the order of R10: those behind the ones that the
list held before the step, which are none in a run. -/
def producedJobs (old s : State) : List OwnJob := (s.produced.drop old.produced.length).foldr insertJob []

/-- At the end of a step the requests it has produced are issued, or wait for a tag, in the order of R10. -/
def issueProduced (old s : State) : State :=
  (producedJobs old s).foldl (fun t j => issueJob j t) { s with produced := old.produced }

/-- A free tag of a class goes to the waiting request of the class that was produced first (R10). -/
def grantTag (cls : ReqClass) (s : State) : State :=
  match s.tagWaits.find? (fun j => jobClass j == cls), freeTag cls s with
  | some job, some t => sendJob t job { s with tagWaits := s.tagWaits.erase job }
  | _, _ => s

/-- A request not yet taken by the expander is withdrawn from the offer (R11). -/
def withdrawOffer (tag : Nat) (s : State) : State :=
  { s with
    offers := s.offers.filter (fun r => r.tag != tag)
    downOffered := if s.downOffered = some tag then none else s.downOffered }

/-- The own request outstanding under a tag. -/
def outstandingAt (s : State) (tag : Nat) : Option Outstanding :=
  s.outstanding.find? (fun o => o.tag == tag)

/-- The tag of an outstanding own request leaves it (R11).  DESIGN CHOICE (assumption 34): a request that the expander
has not taken when a completion that carries its tag ends it, which R11 and R12 withdraw on a timeout only, is no longer
offered. -/
def retireTag (tag : Nat) (s : State) : State :=
  withdrawOffer tag { s with outstanding := s.outstanding.filter (fun o => o.tag != tag) }

/-- A tag is held after its request's timeout (R12). -/
def holdTag (tag : Nat) (s : State) : State :=
  { s with heldTags := s.heldTags ++ [{ tag := tag, timer := 0 }] }

/-- A held tag becomes free (R11, R12). -/
def freeHeldTag (tag : Nat) (s : State) : State :=
  { s with heldTags := s.heldTags.filter (fun h => h.tag != tag) }

/-- Whether a tag is held after a timeout (R12). -/
def isHeldTag (s : State) (tag : Nat) : Bool := s.heldTags.any (fun h => h.tag == tag)

/-- The classes in the order in which the port looks at them: from the one after the class it served last,
and from the forwarded class after cold reset (R11, R15). -/
def rotation (s : State) : List ReqClass :=
  match s.lastClass with
  | none => classOrder
  | some c => classOrder.drop (classIndex c + 1) ++ classOrder.take (classIndex c + 1)

/-- The request that the rotation offers next (R11). -/
def nextOffer (s : State) : Option Nat :=
  (rotation s).findSome? (fun cls => (s.offers.find? (fun r => tagInClass cls r.tag)).map (·.tag))

/-- The port offers its next request when it offers none and the link is up (R11, R14). -/
def placeOffer (s : State) : State :=
  if s.downLink && s.downOffered.isNone then { s with downOffered := nextOffer s } else s

/-- The expander takes the offered request: its class has been served (R11). -/
def takeOffer (s : State) : State :=
  match s.downOffered with
  | none => s
  | some t =>
    if s.downLink then
      { s with
        offers := s.offers.filter (fun r => r.tag != t)
        downOffered := none
        lastClass := (tagClass t).or s.lastClass }
    else s

/-! ### Time -/

/-- The timeout of an own request, in µs (R10). -/
def jobTimeout : OwnJob → Nat
  | .fill _ _ => Config.fillTimeout
  | _ => Config.writeTimeout

/-- The limit of an In-Flight entry's timer: 100 µs while FORWARDED, 1 ms while ORPHANED (R80). -/
def inFlightLimit (e : InFlight) : Nat := if e.orphaned then Config.holdLimit else Config.writeTimeout

/-- d µs pass: every running timer advances and stays at its limit until its expiry is taken (R10, R12, R80). -/
def elapse (d : Nat) (s : State) : State :=
  { s with
    inFlight := s.inFlight.map (fun p => (p.1, { p.2 with timer := min (p.2.timer + d) (inFlightLimit p.2) }))
    outstanding := s.outstanding.map (fun o => { o with timer := min (o.timer + d) (jobTimeout o.job) })
    heldTags := s.heldTags.map (fun h => { h with timer := min (h.timer + d) Config.holdLimit }) }

end Sys2Proof.Machine
end

