-- ==== Sys2Proof/Machine/InFlight.lean ====
section
/-!
DEFINITION. The In-Flight Table and drains: forwarding and holding the check stage (R76, R77, R80), freeing
an entry, and the drains that wait for forwarded transactions (R85 to R87).
-/

namespace Sys2Proof.Machine

/-- The key of a drain (R85). -/
inductive DrainKey where
  | range (first count : Nat)
  | granule (g : Nat)
  | pair (g d : Nat)
  | domain (d : Nat)
  deriving DecidableEq, Repr

/-- Whether a transaction on a granule by a domain matches a drain's key (R85). -/
def keyMatches (k : DrainKey) (g d : Nat) : Bool :=
  match k with
  | .range f n => decide (f ≤ g ∧ g < f + n)
  | .granule x => g == x
  | .pair x y => g == x && d == y
  | .domain y => d == y

/-- A drain begins (R85): its counted set is every allocated entry that matches, and the transaction that
holds the check stage if it matches.  A drain whose set is empty has finished as it begins. -/
def beginDrain (u : DrainUser) (k : DrainKey) (s : State) : State :=
  let members := (s.inFlight.filter (fun p => keyMatches k p.2.granule p.2.domain)).map (·.1)
  let held := match s.stage with
    | some h => keyMatches k h.granule h.request.domain.val
    | none => false
  if members.isEmpty && !held then s
  else { s with drains := s.drains ++ [{ user := u, members := members, held := held }] }

/-- Whether every drain of a user has finished (R85). -/
def drained (s : State) (u : DrainUser) : Bool := s.drains.all (fun d => d.user != u)

/-- A user's drains are withdrawn (R87). -/
def withdrawDrains (u : DrainUser) (s : State) : State :=
  { s with drains := s.drains.filter (fun d => d.user != u) }

/-- Changes every counted set and drops the drains that finish (R86). -/
def mapDrains (f : Drain → Drain) (s : State) : State :=
  { s with drains := (s.drains.map f).filter (fun d => !d.members.isEmpty || d.held) }

/-- An entry is freed: its index is free and it leaves every counted set (R86).  DESIGN CHOICE (assumption 34): a
request that the expander has not taken when a completion that carries its tag frees its entry, which R11 withdraws on
a timeout only, is no longer offered. -/
def freeEntry (i : Nat) (s : State) : State :=
  withdrawOffer i
    (mapDrains (fun d => { d with members := d.members.filter (· != i) })
      { s with inFlight := tblDel s.inFlight i })

/-- A permitted transaction takes the entry of index i and is handed downstream under it (R9, R76, R80). -/
def allocate (i : Nat) (h : HeldTx) (s : State) : State :=
  { s with
    inFlight := tblPut s.inFlight i
      { upstreamTag := h.request.tag.val, domain := h.request.domain.val, granule := h.granule
        write := decide (h.request.kind ≠ .read), orphaned := false, suppress := false
        unformatted := h.unformatted, timer := 0, limitReached := false }
    offers := s.offers ++
      [{ tag := i, kind := h.request.kind, domain := h.request.domain.val
         address := lineAddress h.request.address, mask := h.request.mask
         data := if h.request.kind = .read then .none else .line h.request.data }] }

/-- The lowest-numbered free entry (R76). -/
def freeInFlight (s : State) : Option Nat := tblFree Config.inFlightEntries s.inFlight

/-- A permitted transaction is forwarded, or holds the check stage when no entry is free (R76, R77). -/
def forward (h : HeldTx) (s : State) : State :=
  match freeInFlight s with
  | some i => allocate i h s
  | none => { s with stage := some h }

/-- The transaction holding the stage takes a free entry and stays a member of the drains that count it
(R77, R86). -/
def forwardHeld (s : State) : State :=
  match s.stage, freeInFlight s with
  | some h, some i =>
    mapDrains (fun d => if d.held then { d with members := d.members ++ [i], held := false } else d)
      (allocate i h { s with stage := none })
  | _, _ => s

/-- Whether some entry is FORWARDED (R88, R174, R202). -/
def anyForwarded (s : State) : Bool := s.inFlight.any (fun p => !p.2.orphaned)

/-- An upstream completion for an In-Flight entry, unless it carries the suppress-completion mark (R81, R82). -/
def completeEntry (e : InFlight) (status : Status) (data : Line) (s : State) : State :=
  if e.suppress then s
  else { s with completions := s.completions ++
    [{ tag := e.upstreamTag, status := status, data := if e.write then none else some data,
       duplicate := false }] }

/-- A downstream completion reaches the In-Flight Table under a forwarded tag (R81, R83).  An entry that has
reached its orphan limit holds its tag no longer, so the completion is discarded (R84, R11). -/
def inFlightCompletion (i : Nat) (status : DownStatus) (data : Line) (s : State) : State :=
  match tblGet s.inFlight i with
  | none => s
  | some e =>
    if e.limitReached then s
    else if e.orphaned then freeEntry i s
    else match status with
      | .ok => freeEntry i (completeEntry e .ok data s)
      | .error => freeEntry i (completeEntry e .downstreamError 0 s)

/-- A FORWARDED entry reaches 100 µs (R82). -/
def inFlightTimeout (i : Nat) (s : State) : State :=
  match tblGet s.inFlight i with
  | none => s
  | some e =>
    if e.orphaned then s
    else
      let t := withdrawOffer i (completeEntry e .timeout 0 (elapse (Config.writeTimeout - e.timer) s))
      raise .downstreamTimeout
        { t with inFlight := tblPut t.inFlight i { e with orphaned := true, timer := 0 } }

end Sys2Proof.Machine
end

