-- ==== Sys2Proof/Machine/TagCache.lean ====
section
/-!
DEFINITION. The Tag Cache, the Fill Table and the Integrity Checker (chapter 3): lookup, record changes,
victims and write-backs, fills and their wait list, poisoning, and the check of a landing line.
-/

namespace Sys2Proof.Machine

/-! ### Ways (R40 to R43) -/

/-- The index of a way in `State.ways`. -/
def wayKey (set way : Nat) : Nat := Config.cacheWays * set + way

/-- The way that holds a tag line, if one does (R40). -/
def findKey (s : State) (line : Nat) : Option Nat :=
  ((List.range Config.cacheWays).map (wayKey (cacheSet line))).find? (fun k =>
    match tblGet s.ways k with
    | some w => w.line == line
    | none => false)

/-- The current record of a granule whose tag line is cached (R40). -/
def recordAt (s : State) (g : Nat) : Option TagRecord :=
  match findKey s (tagLineOf g) with
  | none => none
  | some k => (tblGet s.ways k).map (fun w => quadGet w.records (slotInLine g))

/-- A way moves to the most recently used end of its set's order (R41). -/
def touch (key : Nat) (s : State) : State :=
  let set := key / Config.cacheWays
  let way := key % Config.cacheWays
  { s with lru := tblSet lruReset s.lru set ((lruOf s set).filter (· != way) ++ [way]) }

/-- Whether a write-back of a way is outstanding, or has been produced and waits for a tag (R44, R46).  DESIGN
CHOICE (assumption 33): from its production on a write-back holds its way in use and counts as outstanding for the
fills, the FLUSH_TAGS and the stages that ask whether one is. -/
def writeBackPending (s : State) (key : Nat) : Bool :=
  let isIt := fun j => match j with
    | OwnJob.writeBack k _ => k == key
    | _ => false
  s.outstanding.any (fun o => isIt o.job) || (waitingJobs s).any isIt

/-- Whether a command step whose fill has installed this line is still to be made (R43, R51). -/
def stepHolds (s : State) (line : Nat) : Bool :=
  let held : Wait → Bool := fun w => w == .landed line
  channelNumbers.any (fun c => (chan s c).active.any (held ·.wait) || (chan s c).undo.any (held ·.wait)) ||
    s.running.any (held ·.wait) || s.poisonings.any (held ·.wait) ||
    match s.warm with
    | some { stage := .revocation _ _ w, .. } => held w
    | _ => false

/-- A way is in use while a fill claims it, released waiters of its line stand in the Miss Queue, a command step
resumed on its line is still to be made, or a write-back of it is outstanding (R43).  A command step that hits at
once begins and ends its hold within one step. -/
def wayInUse (s : State) (key : Nat) : Bool :=
  s.fills.any (fun f => f.way.any (fun w => wayKey (cacheSet f.line) w == key)) ||
    writeBackPending s key ||
    (match tblGet s.ways key with
     | some w => s.missQueue.any (fun m => m.released && m.line == w.line) || stepHolds s w.line
     | none => false)

/-- A record of a cached line is changed: the line becomes dirty, and a write-back outstanding for it no
longer leaves it clean (R42). -/
def putRecord (g : Nat) (r : TagRecord) (s : State) : State :=
  match findKey s (tagLineOf g) with
  | none => s
  | some k =>
    match tblGet s.ways k with
    | none => s
    | some w =>
      { s with
        ways := tblPut s.ways k { w with records := quadSet w.records (slotInLine g) r, dirty := true }
        outstanding := s.outstanding.map (fun o =>
          match o.job with
          | .writeBack key _ => if key = k then { o with changed := true } else o
          | _ => o) }

/-! ### Victims, write-backs and fills (R44, R47) -/

/-- The way that a fill of a set would claim now: the lowest way that is not valid, otherwise the least
recently used, among those not in use (R44). -/
def chooseWay (s : State) (set : Nat) : Option Nat :=
  let idle := fun w => !wayInUse s (wayKey set w)
  ((List.range Config.cacheWays).find? (fun w => (tblGet s.ways (wayKey set w)).isNone && idle w)).or
    ((lruOf s set).find? idle)

/-- Whether a fill of a set waits for a way (R44). -/
def waitsForWay (set : Nat) (f : Fill) : Bool := f.way.isNone && cacheSet f.line == set

/-- A fill claims a way: a dirty victim is written back, unless its write-back is already outstanding (R44). -/
def claimFor (serial set way : Nat) (s : State) : State :=
  let s := { s with fills := s.fills.map (fun f => if f.serial = serial then { f with way := some way } else f) }
  let key := wayKey set way
  match tblGet s.ways key with
  | some w => if w.dirty && !writeBackPending s key then produceJob (.writeBack key w.line) s else s
  | none => s

/-- A fill entry is made for a line: it claims a way if one is free and no earlier fill of the set waits for
one, and issues its read at once (R44, R47). -/
def startFill (line : Nat) (s : State) : State :=
  let serial := s.fillSerial
  let set := cacheSet line
  let behind := s.fills.any (waitsForWay set)
  let choice := if behind then none else chooseWay s set
  let s := { s with
    fillSerial := serial + 1
    fills := s.fills ++ [{ serial := serial, line := line, way := none, tag := none, data := none }] }
  let s := produceJob (.fill serial line) s
  match choice with
  | some w => claimFor serial set w s
  | none => s

/-- A lookup missed on a line: its requester joins the line's fill or its place on the wait list, or starts
one or the other (R47). -/
def joinFill (line : Nat) (s : State) : State :=
  if s.fills.any (fun f => f.line == line) || s.fillWaits.contains line then s
  else if s.fills.length < Config.fillEntries ∧ s.fillWaits = [] then startFill line s
  else { s with fillWaits := s.fillWaits ++ [line] }

/-- Produces the write-backs of these ways (key, line). -/
def issueWriteBacks (ks : List (Nat × Nat)) (s : State) : State :=
  ks.foldl (fun s x => produceJob (.writeBack x.1 x.2) s) s

/-- The number of write-backs outstanding or waiting for a tag. -/
def writeBackCount (s : State) : Nat :=
  let isIt := fun j => jobClass j == .writeBack
  (s.outstanding.filter (fun o => isIt o.job)).length + ((waitingJobs s).filter isIt).length

/-- The tag lines whose write-back is outstanding or waits for a tag. -/
def writeBackLines (s : State) : List Nat :=
  (s.outstanding.map (·.job) ++ waitingJobs s).filterMap (fun j => match j with
    | .writeBack _ line => some line
    | _ => none)

/-- The dirty ways (key, line) whose write-back is neither outstanding nor among the failed lines. -/
def dirtyWays (failed : List Nat) (s : State) : List (Nat × Nat) :=
  (s.ways.filter (fun p => p.2.dirty && !failed.contains p.2.line && !writeBackPending s p.1)).map
    (fun p => (p.1, p.2.line))

/-- The warm reset and the POWER_WARN flush write every dirty line back, at most 16 at a time (R62, R202).
DESIGN CHOICE (assumption 35): of more than 16 they take the lowest set and, in it, the lowest way first; the manual
gives no order.  DESIGN CHOICE (assumption 42): a write-back that was outstanding already when this began counts among
the 16, and its line is not written back a second time before it has ended. -/
def writeBackMore (failed : List Nat) (s : State) : State :=
  issueWriteBacks ((dirtyWays failed s).take (Config.writesOutstanding - writeBackCount s)) s

/-- A write-back of the whole cache begins: those outstanding already are not its own. -/
def beginWrites (s : State) : CacheWrites := { failed := [], earlier := writeBackLines s }

/-- A line's write-back has ended during a write-back of the whole cache (R61, R62, R202).  DESIGN CHOICE (assumption
42): one that was outstanding already when this began is not its own, so that its failure leaves a dirty line that is
still to be written back; the failure of one of its own passes the line over. -/
def noteEnd (line : Nat) (ok : Bool) (w : CacheWrites) : CacheWrites :=
  if w.earlier.contains line then { w with earlier := w.earlier.erase line }
  else if ok then w
  else { w with failed := line :: w.failed }

/-- Whether such a write-back of the whole cache has ended: nothing outstanding, nothing left to write.  DESIGN CHOICE
(assumption 42): it waits for the write-backs that were outstanding when it began, too. -/
def writeBackEnded (failed : List Nat) (s : State) : Bool :=
  writeBackCount s == 0 && (dirtyWays failed s).isEmpty

/-! ### Grants of a record (R54, R99, R136) -/

/-- A grant entry is removed: its index is free, its owner's grants given and its grantee's grants held each
fall by one (R99, R134). -/
def dropGrant (i : Nat) (s : State) : State :=
  match grantAt s i with
  | none => s
  | some g =>
    let s := { s with grants := tblDel s.grants i }
    let s := setDom g.owner { dom s g.owner with given := (dom s g.owner).given - 1 } s
    setDom g.grantee { dom s g.grantee with held := (dom s g.grantee).held - 1 } s

/-- The removal step of a revocation, at the cached line: the record's count falls by one and the entry is
removed (R136). -/
def removeGrant (i : Nat) (g : Grant) (r : TagRecord) (s : State) : State :=
  dropGrant i (putRecord g.granule { r with count := r.count - 1 } s)

/-- Whether an index still holds the entry of a serial (R134: an entry is the same entry from its creation
to its removal). -/
def entryIs (s : State) (i serial : Nat) : Option Grant := (grantAt s i).filter (fun g => g.serial == serial)

/-! ### Poisoning (R54 to R57) -/

/-- Every grant entry that names the granule is removed at once (R54, step 2). -/
def dropGrantsOf (g : Nat) (s : State) : State :=
  ((s.grants.filter (fun p => p.2.granule == g)).map (·.1)).foldl (fun s i => dropGrant i s) s

/-- The poison list takes a granule (R54, steps 3 and 4; R57). -/
def listPoison (g : Nat) (owner : Option Nat) (cause : PoisonCause) (s : State) : State :=
  if s.poisonList.any (fun e => e.granule == g) then
    { s with poisonList := s.poisonList.map (fun e => if e.granule = g then { e with owner := owner } else e) }
  else if s.poisonList.length < Config.poisonEntries then
    { s with poisonList := s.poisonList ++ [{ granule := g, owner := owner, cause := cause }] }
  else enterCause .poisonFull s

/-- The tables' part of a poisoning (R54, steps 2 to 4). -/
def poisonTables (g : Nat) (owner : Option Nat) (cause : PoisonCause) (s : State) : State :=
  listPoison g owner cause (dropGrantsOf g s)

/-- A granule whose line is cached is poisoned, its owner kept (R54). -/
def poisonNow (g : Nat) (cause : PoisonCause) (s : State) : State :=
  match recordAt s g with
  | none => s
  | some r => poisonTables g r.owner cause (putRecord g (poisonedRecord r.owner) s)

/-- The poison-list entry of a granule leaves the list (R57). -/
def unlistPoison (g : Nat) (s : State) : State :=
  { s with poisonList := s.poisonList.filter (fun e => e.granule != g) }

/-! ### The Integrity Checker (R52 to R56) -/

/-- A record corrected at landing is counted (R53). -/
def countCorrected (g : Nat) (s : State) : State :=
  let n := s.corrected
  let t := { s with
    firstCorrected := if n = 0 then some g else s.firstCorrected
    corrected := min (n + 1) Config.correctedMax }
  if n < Config.correctedMax ∧ n + 1 = s.correctedLimit then raise .tagCorrectedLimit t else t

/-- An uncorrectable state part meets the integrity hold (R55). -/
def meetHold (g : Nat) (s : State) : State :=
  match s.hold with
  | none => { s with hold := some g }
  | some _ => enterCause .cascade s

/-- A state part is lost: the granule is poisoned with its owner kept (R55). -/
def stateLost (g : Nat) (owner : Option Nat) (s : State) : State :=
  meetHold g (raise .tagUncorrectable (poisonTables g owner .record s))

/-- An owner part is lost: the granule is poisoned with owner UNKNOWN (R56). -/
def ownerLost (g : Nat) (s : State) : State :=
  enterCause .ownerLost (raise .tagUncorrectable (poisonTables g none .record s))

/-- The check of one record at landing (R52): the record as it then stands, whether it was changed, and
the state after. -/
def checkRecord (g : Nat) (rd : RecordRead) (s : State) : TagRecord × Bool × State :=
  match rd.ownerPart, rd.statePart with
  | .lost, _ => (poisonedRecord none, true, ownerLost g s)
  | .good o, .lost => (poisonedRecord (ownerOf o), true, stateLost g (ownerOf o) s)
  | .corrected o, .lost =>
    (poisonedRecord (ownerOf o), true, stateLost g (ownerOf o) (countCorrected g s))
  | .good o, .good p => (recordOf o p, false, s)
  | .good o, .corrected p => (recordOf o p, true, countCorrected g s)
  | .corrected o, .good p => (recordOf o p, true, countCorrected g s)
  | .corrected o, .corrected p => (recordOf o p, true, countCorrected g s)

/-- The check of a landing line, slot by slot (R48 step 1, R52). -/
def checkLine (line : Nat) (d : RecordRead × RecordRead × RecordRead × RecordRead) (s : State) :
    Quad × Bool × State :=
  let (a, ca, s) := checkRecord (4 * line) d.1 s
  let (b, cb, s) := checkRecord (4 * line + 1) d.2.1 s
  let (c, cc, s) := checkRecord (4 * line + 2) d.2.2.1 s
  let (e, ce, s) := checkRecord (4 * line + 3) d.2.2.2 s
  ({ r0 := a, r1 := b, r2 := c, r3 := e }, ca || cb || cc || ce, s)

/-- A line is installed in its claimed way and its entry freed; its Miss Queue waiters are released
(R48, steps 1 to 4). -/
def installLine (f : Fill) (way : Nat) (d : RecordRead × RecordRead × RecordRead × RecordRead)
    (s : State) : State :=
  let (q, changed, s) := checkLine f.line d s
  let key := wayKey (cacheSet f.line) way
  touch key
    { s with
      ways := tblPut s.ways key { line := f.line, records := q, dirty := changed }
      fills := s.fills.filter (fun x => x.serial != f.serial)
      missQueue := s.missQueue.map (fun m => if m.line = f.line then { m with released := true } else m) }

/-- Whether a fill lands: its data is there and it holds a way whose victim is clean or not valid (R45, R48). -/
def landable (s : State) (f : Fill) : Option (Nat × (RecordRead × RecordRead × RecordRead × RecordRead)) :=
  match f.way, f.data with
  | some w, some d =>
    match tblGet s.ways (wayKey (cacheSet f.line) w) with
    | none => some (w, d)
    | some v => if v.dirty then none else some (w, d)
  | _, _ => none

end Sys2Proof.Machine
end

