-- ==== Sys2Proof/Machine/Commands.lean ====
section
/-!
DEFINITION. What every management command shares (chapter 9): taking (R168), the mode test and refusals
(R169), the counts and value words of a response, and the ending of an active work command with what its own
rule undoes (R36, R37, R110, R114, R154, R161, R196).
-/

namespace Sys2Proof.Machine

/-! ### Taking a command (R168) -/

/-- Whether a channel has a free response slot (R165). -/
def slotFree (ch : Channel) : Bool := decide (ch.ready.length + ch.reserved < Config.responseSlots)

/-- The block that a channel takes now, if the conditions of R168 hold: the oldest control command, otherwise
the oldest work command if no work command is active and no pending undo is held. -/
def takeable (c : Nat) (s : State) : Option Line :=
  let ch := chan s c
  if s.warm.isSome || warned s || !slotFree ch then none
  else match ch.control with
    | b :: _ => some b
    | [] => if ch.active.isNone && ch.undo.isNone then ch.work.head? else none

/-- The taken block leaves its queue and the reserved count rises by one (R168). -/
def dequeue (c : Nat) (s : State) : State :=
  let ch := chan s c
  match ch.control with
  | _ :: t => setChan c { ch with control := t, reserved := ch.reserved + 1 } s
  | [] => setChan c { ch with work := ch.work.tail, reserved := ch.reserved + 1 } s

/-- A work command becomes the active work command, with its stop-requested mark clear (R168). -/
def activate (c : Nat) (b : Line) (w : Work) (p : Phase) (wait : Wait) (s : State) : State :=
  setChan c { chan s c with
    active := some { block := b, work := w, phase := p, wait := wait, ending := none }
    stop := false } s

/-- A command refused at its start: its response becomes ready and the channel may take again (R170). -/
def refuse (c : Nat) (b : Line) (r : Result) (p : Report) (s : State) : State :=
  let t := respond c b r p s
  setChan c { chan t c with retake := true } t

/-! ### Refusals at start (R33, R103, R114, R147, R153, R158, R169, R196) -/

/-- The counts and words of a refusal at start, by command.  DEDUCED (assumption 17): those that no rule gives. -/
def refusal (cmd : Cmd) (b : Line) (s : State) : Report :=
  match cmd with
  | .format => { remaining := tagLineCount s, w0 := wordA b, w1 := tagRegionSize s }
  | .assign =>
    { remaining := wordC b, next := wordB b, w0 := (dom s (wordA b)).owned, w1 := (dom s (wordA b)).quota }
  | .release =>
    { remaining := wordC b, next := wordB b, w0 := (dom s (wordA b)).owned, w1 := (dom s (wordA b)).quota }
  | .restore => { remaining := 1, next := wordA b, w1 := onesWord, w2 := s.poisonList.length }
  | .queryGranules =>
    { remaining := wordB b, next := wordA b, w0 := onesWord, w1 := onesWord, w2 := onesWord,
      w3 := onesWord, w4 := onesWord }
  | .retire =>
    { remaining := if wordA b = 0 ∨ 511 < wordA b then 0 else (dom s (wordA b)).owned, next := wordB b }
  | .revokeGrant => { remaining := 1 }
  | .trackStart => { remaining := wordD b, next := wordC b }
  | .trackCollect => { remaining := wordC b, next := granuleCount s }
  | .regionSet => { remaining := wordC b, next := wordB b }
  | _ => {}

/-- The counts and words of a command refused with MODE (R169): those of its refusal at start, and REVOKE_GRANT, which
names no range, reports no count. -/
def modeRefusal (cmd : Cmd) (b : Line) (s : State) : Report :=
  match cmd with
  | .revokeGrant => {}
  | _ => refusal cmd b s

/-- The mode test of R169. -/
def modeRefuses (cmd : Cmd) (s : State) : Bool :=
  (s.mode == .unformatted || s.mode == .formatting) && !runsUnformatted cmd

/-! ### The report of a work command as it stands -/

/-- Word w of a QUERY_GRANULES response (R124). -/
def queryWord (words : List Nat) (i : Nat) : Nat := (words[i]?).getD onesWord

/-- Whether a tag line is cached and dirty. -/
def lineDirty (s : State) (line : Nat) : Bool :=
  match findKey s line with
  | some k => ((tblGet s.ways k).map (·.dirty)).getD false
  | none => false

/-- The smaller of two optional line indices. -/
def optMin (a : Option Nat) (n : Nat) : Nat := min (a.getD n) n

/-- The counts and value words 0 to 4 of TRACK_COLLECT (R160, R161).  DEDUCED (assumption 22): the next granule is N
where no group is left undelivered, and where the queue has no next group. -/
def collectReport (k : CollectWork) (s : State) : Report :=
  let sl := slotOf s k.slot
  { finished := k.delivered, remaining := k.count - k.delivered
    next := if k.delivered = k.count then granuleCount s else (k.group.head?).getD (granuleCount s)
    w0 := k.delivered, w1 := sl.queue.length, w2 := boolBit (sl.state == .overflowed)
    w3 := k.lines, w4 := k.count }

/-- The counts and words with which an active work command would end now, by its progress (R34 to R37, R60,
R110, R114, R123, R124, R147, R154, R160, R161, R196). -/
def reportOf (a : Active) (s : State) : Report :=
  match a.work with
  | .format base next lowest =>
    { finished := s.progress, remaining := tagLineCount s - s.progress, next := 4 * optMin lowest next,
      w0 := base, w1 := tagRegionSize s }
  | .assign d f n _ k =>
    { finished := k, remaining := n - k, next := f + k, w0 := (dom s d).owned, w1 := (dom s d).quota }
  | .release d f n k =>
    { finished := k, remaining := n - k, next := f + k, w0 := (dom s d).owned, w1 := (dom s d).quota }
  | .restore g => { remaining := 1, next := g, w1 := onesWord, w2 := s.poisonList.length }
  | .queryGranules f n words =>
    { finished := words.length, remaining := n - words.length, next := f + words.length
      w0 := queryWord words 0, w1 := queryWord words 1, w2 := queryWord words 2, w3 := queryWord words 3
      w4 := queryWord words 4 }
  | .retire r =>
    { finished := r.released, remaining := (dom s r.domain).owned
      next := match a.phase with
        | .clearance => r.hintFirst
        | .removal => r.hintFirst
        | _ => r.walk.position
      w0 := r.removed, w1 := optField 8 r.slotReleased }
  | .revoke r =>
    { remaining := 1, next := r.granule, w0 := r.granule
      w1 := grantWord r.owner r.grantee r.readWrite ((entryIs s r.index r.serial).map (·.state)) }
  | .trackStart _ _ f n k _ => { finished := k, remaining := n - k, next := f + k }
  | .trackCollect k =>
    match a.phase with
    | .buffer => { remaining := k.capacity, next := granuleCount s }
    | _ => collectReport k s
  | .flushTags x =>
    { finished := x.good, remaining := x.failed
      next := match x.lowest with
        | some l => 4 * l
        | none => granuleCount s
      w0 := (x.found.eraseDups.filter (lineDirty s)).length }
  | .regionSet _ f n _ k => { finished := k, remaining := n - k, next := f + k }

/-! ### Ending an active work command -/

/-- A slot's group and keep marks are cleared (R161). -/
def clearMarks (q : List QueueEntry) : List QueueEntry :=
  q.map (fun e => { e with group := false, keep := false })

/-- A slot becomes IDLE: its domain and queue go, and the domain's track slot field becomes absent (R152,
R162).  Its fill mark and its collecting channel stay. -/
def idleSlot (k : Nat) (s : State) : State :=
  let sl := slotOf s k
  let s := match sl.domain with
    | some d => setDom d { dom s d with slot := none } s
    | none => s
  setSlot k { sl with state := .idle, domain := none, queue := [], armedBy := none } s

/-- What a stop of a work command undoes at the tables of its own rule: FORMAT leaves UNFORMATTED without a
tag region (R36, R37), RETIRE clears its mark (R110), TRACK_START leaves its slot IDLE (R154), TRACK_COLLECT
clears its marks and its slot's collecting channel (R161), REGION_SET leaves its entry EMPTY (R196). -/
def cleanUp (c : Nat) (w : Work) (s : State) : State :=
  match w with
  | .format _ _ _ => { s with mode := .unformatted, tagBase := none }
  | .retire r => setDom r.domain { dom s r.domain with retireActive := false } s
  | .trackStart k _ _ _ _ _ => if (slotOf s k).armedBy = some c then idleSlot k s else s
  | .trackCollect k =>
    let sl := slotOf s k.slot
    if sl.collecting = some c then
      setSlot k.slot { sl with collecting := none, queue := clearMarks sl.queue } s
    else s
  | .regionSet i _ _ _ _ => setRegion i { regionOf s i with state := .empty } s
  | _ => s

/-- The active work command of a channel stops with a result, undoing what its rule says and reporting its
progress (R114). -/
def stopWork (c : Nat) (r : Result) (s : State) : State :=
  match (chan s c).active with
  | none => s
  | some a =>
    let s := cleanUp c a.work s
    completeWork c r (reportOf a s) s

/-- The active work command of a channel ends at the end of its range with DONE. -/
def doneWork (c : Nat) (s : State) : State :=
  match (chan s c).active with
  | none => s
  | some a => completeWork c .done (reportOf a s) s

/-! ### Command steps on a record (R51) -/

/-- The granule that an active command is at (R114, R110). -/
def granuleAt : Work → Nat
  | .assign _ f _ _ k => f + k
  | .release _ f _ k => f + k
  | .restore g => g
  | .queryGranules f _ ws => f + ws.length
  | .retire r => r.walk.position
  | .trackStart _ _ f _ k _ => f + k
  | .regionSet _ f _ _ k => f + k
  | .revoke r => r.granule
  | .trackCollect k => k.buffer
  | .format _ _ _ => 0
  | .flushTags _ => 0

/-- A command step's lookup: on a hit the record, the way having moved to the most recently used end (R41). -/
def lookup (g : Nat) (s : State) : Option (TagRecord × State) :=
  match findKey s (tagLineOf g), recordAt s g with
  | some k, some r => some (r, touch k s)
  | _, _ => none

/-- A channel's command step: on a hit it makes `k`, on a miss it waits on the line's fill (R51). -/
def withRecord (c g : Nat) (k : TagRecord → State → State) (s : State) : State :=
  match lookup g s with
  | some (r, t) => k r t
  | none => joinFill (tagLineOf g) (goWait c (.fill (tagLineOf g)) s)

/-! ### Tests that several commands share -/

/-- The states in which ASSIGN and TRACK_START accept a domain (R116, R153). -/
def assignable (d : DState) : Bool := d == .preparing || d == .running || d == .paused

/-- The states in which RELEASE accepts a domain (R119). -/
def releasable (d : DState) : Bool := assignable d || d == .fenced

/-- Whether a granule lies in a Region Table entry that is not EMPTY (R117, R158). -/
def inRegionEntry (s : State) (g : Nat) : Bool :=
  (List.range Config.regionEntries).any (fun i =>
    let e := regionOf s i
    e.state != .empty && decide (e.first ≤ g ∧ g < e.first + e.count))

/-- Whether a state is CLEARING_IN or CLEARING_OUT. -/
def isClearing (st : GState) : Bool := st == .gClearingIn || st == .gClearingOut

/-- Whether a granule operation finds a granule busy at validation (R113). -/
def granuleBusy (s : State) (g : Nat) (r : TagRecord) : Bool := isClearing r.state || claimed s g

end Sys2Proof.Machine
end

