-- ==== Sys2Proof/Machine/Format.lean ====
section
/-!
DEFINITION. FORMAT (R33 to R38) and FLUSH_TAGS (R60, R61).
-/

namespace Sys2Proof.Machine

/-! ### FORMAT -/

/-- FORMAT at its start (R33): its two tests, then mode, tag base, progress, cache and drain all at once.  A
drain that is empty finishes in the same step (R85). -/
def doFormat (c : Nat) (b : Line) (s : State) : State :=
  if s.mode ≠ .unformatted then refuse c b .mode (refusal .format b s) s
  else if granuleCount s < wordA b + tagRegionSize s then refuse c b .parameter (refusal .format b s) s
  else
    let s := { s with mode := .formatting, tagBase := some (wordA b), progress := 0, ways := [] }
    let s := beginDrain (.command c) (.range (wordA b) (tagRegionSize s)) s
    if drained s (.command c) then activate c b (.format (wordA b) 0 none) .writes .running s
    else activate c b (.format (wordA b) 0 none) .drain .drain s

/-- The number of format writes outstanding or waiting for a tag. -/
def formatWrites (s : State) : Nat :=
  let isIt := fun j => jobClass j == .formatWrite
  (s.outstanding.filter (fun o => isIt o.job)).length + ((waitingJobs s).filter isIt).length

/-- FORMAT completes (R35). -/
def formatComplete (c : Nat) (s : State) : State :=
  doneWork c (raise .formatDone { s with mode := .operational })

/-- FORMAT's writing step (R34 to R37): a stop under way ends it once nothing is outstanding; otherwise it
completes when every line has been written, and keeps up to 16 lines outstanding. -/
def formatStep (c : Nat) (a : Active) (base next : Nat) (lowest : Option Nat) (s : State) : State :=
  match a.ending with
  | some r => if formatWrites s = 0 then stopWork c r s else goWait c .writes s
  | none =>
    if s.progress = tagLineCount s then formatComplete c s
    else
      let k := min (Config.writesOutstanding - formatWrites s) (tagLineCount s - next)
      let s := (List.range k).foldl (fun s i => produceJob (.formatLine (next + i)) s) s
      goWait c .writes (goWork c (.format base (next + k) lowest) s)

/-- FORMAT stops: the lines that still wait for a tag are not issued, and the lowest line not written OK is
kept (R36, R37). -/
def formatStop (c : Nat) (r : Result) (s : State) : State :=
  match (chan s c).active with
  | some { work := .format base next lowest, .. } =>
    let unsent := (waitingJobs s).filterMap (fun j => match j with
      | .formatLine l => some l
      | _ => none)
    let s := keepJobs (fun j => jobClass j != .formatWrite) s
    let low := unsent.foldl (fun m l => some (optMin m l)) lowest
    goWait c .running (goEnding c r (goWork c (.format base next low) s))
  | _ => s

/-- The channel whose active work command is FORMAT, if one is. -/
def formatChannel (s : State) : Option Nat :=
  channelNumbers.find? (fun c => match (chan s c).active with
    | some { work := .format _ _ _, .. } => true
    | _ => false)

/-- A format write ends (R34, R36): OK advances the progress count, a failure stops FORMAT. -/
def formatWriteEnded (line : Nat) (ok : Bool) (s : State) : State :=
  match formatChannel s with
  | none => s
  | some c =>
    if ok then goWait c .running { s with progress := s.progress + 1 }
    else match (chan s c).active with
      | some { work := .format base next lowest, .. } =>
        formatStop c .downstreamError (goWork c (.format base next (some (optMin lowest line))) s)
      | _ => s

/-! ### FLUSH_TAGS -/

/-- FLUSH_TAGS starts at way 0 of set 0 (R60). -/
def doFlushTags (c : Nat) (b : Line) (s : State) : State :=
  activate c b
    (.flushTags { position := 0, waiting := [], found := [], issued := [], good := 0, failed := 0, lowest := none })
    .writes .running s

/-- FLUSH_TAGS visits ways in order (R60): while it has fewer than 16 write-backs outstanding it passes clean
ways by, counts a write-back already outstanding, and issues one for each other dirty line. -/
def flushStep (c : Nat) (a : Active) (x : FlushWork) (s : State) : State :=
  let room := if a.ending.isSome then 0 else Config.writesOutstanding - x.waiting.length
  let ahead := s.ways.filter (fun p => decide (x.position ≤ p.1) && p.2.dirty)
  let now := ahead.take room
  let position :=
    if now.length < room then Config.cacheSets * Config.cacheWays
    else match now.getLast? with
      | some p => p.1 + 1
      | none => x.position
  let lines := now.map (fun p => p.2.line)
  let fresh := (now.filter (fun p => !writeBackPending s p.1)).map (fun p => (p.1, p.2.line))
  let x := { x with position := position, waiting := x.waiting ++ lines, found := x.found ++ lines
                    issued := x.issued ++ fresh.map (·.2) }
  let s := issueWriteBacks fresh (goWork c (.flushTags x) s)
  if x.waiting = [] ∧ (a.ending.isSome ∨ Config.cacheSets * Config.cacheWays ≤ x.position) then
    match a.ending with
    | some r => stopWork c r s
    | none => if x.failed = 0 then doneWork c s else stopWork c .downstreamError s
  else goWait c .writes s

/-- Whether some other engine waits for a write-back: a fill whose victim it cleans (R44), or the FLUSH_TAGS of
another channel, which has counted it (R60). -/
def wantedElsewhere (c key line : Nat) (s : State) : Bool :=
  s.fills.any (fun f => f.way.any (fun w => wayKey (cacheSet f.line) w == key)) ||
    channelNumbers.any (fun x => x != c && match (chan s x).active with
      | some { work := .flushTags y, .. } => y.waiting.contains line
      | _ => false)

/-- The FLUSH_TAGS of a channel takes over, as produced by itself, the unissued write-backs among `lines` that it
waits for. -/
def inheritWrites (lines : List Nat) (s : State) (c : Nat) : State :=
  match (chan s c).active with
  | some { work := .flushTags y, .. } =>
    goWork c (.flushTags { y with issued := y.issued ++ lines.filter (fun l => y.waiting.contains l) }) s
  | _ => s

/-- FLUSH_TAGS stops (R61): a write-back that it produced and that still waits for a tag is not issued, unless
another engine waits for it; it waits for the outstanding ones alone, over which it counts.  A line is struck once
from the lines it has found for each unissued write-back it waited for: a line whose earlier write-back it issued or
counted stays found.  One that stays for another FLUSH_TAGS is that one's from now on, so that its stop withdraws
it. -/
def flushStop (c : Nat) (r : Result) (x : FlushWork) (s : State) : State :=
  let unsent := (waitingJobs s).filterMap (fun j => match j with
    | .writeBack _ line => some line
    | _ => none)
  let stays := fun j => match j with
    | OwnJob.writeBack key line => !x.issued.contains line || wantedElsewhere c key line s
    | _ => true
  let own := unsent.filter (fun l => x.issued.contains l)
  let x := { x with
    waiting := x.waiting.filter (fun l => !unsent.contains l)
    found := x.found.diff (x.waiting.filter (fun l => unsent.contains l))
    issued := x.issued.filter (fun l => !unsent.contains l) }
  let s := channelNumbers.foldl (inheritWrites own) (goWork c (.flushTags x) (keepJobs stays s))
  goWait c .running (goEnding c r s)

/-- A write-back of a line has ended: a FLUSH_TAGS that issued or counted it goes on (R60, R61). -/
def flushCount (line : Nat) (ok : Bool) (c : Nat) (s : State) : State :=
  match (chan s c).active with
  | some { work := .flushTags x, .. } =>
    if x.waiting.contains line then
      let x := { x with
        waiting := x.waiting.erase line
        issued := x.issued.erase line
        good := if ok then x.good + 1 else x.good
        failed := if ok then x.failed else x.failed + 1
        lowest := if ok then x.lowest else some (optMin x.lowest line) }
      goWait c .running (goWork c (.flushTags x) s)
    else s
  | _ => s

/-- A write-back of a line has ended, for every channel. -/
def flushEnded (line : Nat) (ok : Bool) (s : State) : State :=
  channelNumbers.foldl (fun s c => flushCount line ok c s) s

end Sys2Proof.Machine
end

