-- ==== Sys2Proof/Machine/Scrub.lean ====
section
/-!
DEFINITION. The Scrub Units and the poisonings that are ordered (R51, R84, R125 to R127, R129, R132, R133).
-/

namespace Sys2Proof.Machine

/-! ### Fills held back in a warm reset and after a power warning (R132, R174, R202) -/

/-- Whether a channel counts as stopped while the warm reset settles: it has no active command, or one whose
undo, or the poisoning in its place, waits on a fill (R132). -/
def countsStopped (s : State) (c : Nat) : Bool :=
  match (chan s c).active with
  | none => true
  | some a =>
    match a.phase, a.wait with
    | .undo, .fill _ => true
    | .undo, .suspended => true
    | .scrubFailed, _ => true
    | _, _ => false

/-- The settling conditions of R174 but for the Fill Table's. -/
def settleCore (s : State) : Bool :=
  s.stage.isNone && !anyForwarded s && s.missQueue.isEmpty && s.running.isNone && s.units.isEmpty &&
    channelNumbers.all (countsStopped s)

/-- Whether no new fill is issued for a pending undo or a pending poisoning (R174, R202).  DEDUCED (assumption 24): that
holds for a poisoning ordered in the revocation stage too, so a drain of that stage that counts the orphaned write waits
on, and the warm reset with it (R84, R86, R87). -/
def fillsWithheld (s : State) : Bool :=
  warned s ||
    match s.warm with
    | none => false
    | some w =>
      match w.stage with
      | .settling => settleCore s
      | _ => true

/-- Whether a transaction of the Miss Queue waits for a line (R50). -/
def missWaits (s : State) (line : Nat) : Bool := s.missQueue.any (fun m => m.line == line && !m.released)

/-- Whether a line is being fetched, or stands on the wait list, so that a step that misses on it starts no new fill
(R47). -/
def fillUnderWay (s : State) (line : Nat) : Bool :=
  s.fills.any (fun f => f.line == line) || s.fillWaits.contains line

/-- A wait on a line that is not being fetched becomes a wait for traffic to resume. -/
def suspendWait (s : State) (w : Wait) : Wait :=
  match w with
  | .fill l => if fillUnderWay s l then w else .suspended
  | _ => w

/-- Whether a step that is no poisoning and no undo waits for a line: of an active command, of the guest request or of
a revocation removal (R51, R136). -/
def stepWaits (s : State) (line : Nat) : Bool :=
  channelNumbers.any (fun c => (chan s c).active.any (fun a => a.phase != .undo && a.wait == .fill line)) ||
    s.running.any (fun r => r.wait == .fill line) ||
    s.warm.any (fun w => match w.stage with | .revocation _ _ x => x == .fill line | _ => false)

/-- Whether a poisoning or an undo waits for a line (R51, R129, R132). -/
def undoWaits (s : State) (line : Nat) : Bool :=
  s.poisonings.any (fun p => p.wait == .fill line) ||
    channelNumbers.any (fun c => (chan s c).undo.any (fun u => u.wait == .fill line) ||
      (chan s c).active.any (fun a => a.phase == .undo && a.wait == .fill line))

/-- Whether only poisonings and undos wait for a line, so that a fill of it would be theirs (R174, R202).  A line that
nothing waits for any more is none: the fill its waiters asked for goes on (R13, R50, R51). -/
def onlyUndoWaits (s : State) (line : Nat) : Bool := undoWaits s line && !missWaits s line && !stepWaits s line

/-- Whether a line of the wait list starts no fill: once the settling conditions of R174 hold, one that only poisonings
and undos wait for. -/
def lineWithheld (s : State) (line : Nat) : Bool :=
  s.warm.any (fun w => w.stage == .settling) && settleCore s && onlyUndoWaits s line

/-- When the settling stage ends, and at the POWER_WARN edge, the lines that only poisonings and undos wait for leave
the wait list, and those poisonings start no fill from now on (R174, R202).  DEDUCED (assumption 24): against R47 such a
line takes no freed entry, so neither the settling nor the flush waits for it. -/
def withholdLines (s : State) : State :=
  let s := { s with fillWaits := s.fillWaits.filter (fun l => !onlyUndoWaits s l) }
  { s with poisonings := s.poisonings.map (fun p => { p with wait := suspendWait s p.wait }) }

/-! ### The end of a failed zeroing (R127) -/

/-- Whether a Scrub Unit is ZEROING for a channel. -/
def servedBy (s : State) (c : Nat) : Bool := s.units.any (fun p => p.2.channel == c)

/-- The command of a failed zeroing stops once the poisoning has been made and its unit is IDLE (R127,
R129). -/
def tryEndScrub (c : Nat) (s : State) : State :=
  match (chan s c).active with
  | none => s
  | some a =>
    if a.phase = .scrubFailed && !servedBy s c && s.poisonings.all (fun p => p.source != .scrub c) then
      stopWork c (a.ending.getD .poisoned) s
    else s

/-- An ordered poisoning has been made: the In-Flight entry of an orphan limit is freed (R84), and the
command or the pending undo of a scrub failure goes on (R127, R132). -/
def poisonMade (src : PoisonSource) (s : State) : State :=
  match src with
  | .orphan i => freeEntry i s
  | .scrub c =>
    match (chan s c).undo with
    | some u =>
      if u.poison then setChan c { chan s c with undo := none, claim := none, retake := true } s
      else tryEndScrub c s
    | none => tryEndScrub c s

/-- A poisoning is ordered: at once where the line is cached, otherwise by a command step that fetches it
(R51, R84, R127).  DEDUCED (assumption 15): the poisoning made at once is no command step and moves no way. -/
def orderPoison (g : Nat) (cause : PoisonCause) (src : PoisonSource) (s : State) : State :=
  match recordAt s g with
  | some _ => poisonMade src (poisonNow g cause s)
  | none => { s with poisonings := s.poisonings ++ [{ granule := g, cause := cause, source := src, wait := .running }] }

/-- The waiting poisoning of a granule and source takes another wait. -/
def setPoisonWait (p : PendingPoison) (w : Wait) (s : State) : State :=
  { s with poisonings := s.poisonings.map (fun q => if q = p then { q with wait := w } else q) }

/-- The command step of a waiting poisoning (R51): made on a hit, waiting on a fill on a miss.  While fills are withheld
it joins a fill of its line that is under way and starts none (R47, R84, R174). -/
def poisonStep (p : PendingPoison) (s : State) : State :=
  match lookup p.granule s with
  | some (_, t) => poisonMade p.source (poisonNow p.granule p.cause { t with poisonings := t.poisonings.erase p })
  | none =>
    if fillsWithheld s && !fillUnderWay s (tagLineOf p.granule) then setPoisonWait p .suspended s
    else joinFill (tagLineOf p.granule) (setPoisonWait p (.fill (tagLineOf p.granule)) s)

/-! ### The units (R125, R126) -/

/-- Whether a channel waits for a unit (R126). -/
def waitsForUnit (s : State) (c : Nat) : Bool :=
  match (chan s c).active with
  | some a => a.wait == .unit
  | none => false

/-- The waiting channel that comes first after the last-served channel (R126). -/
def nextServed (s : State) : Option Nat :=
  ([1, 2, 3, 4].map (fun k => (s.lastServed + k) % 4)).find? (waitsForUnit s)

/-- The lowest-numbered IDLE unit (R126). -/
def idleUnitNumber (s : State) : Option Nat := tblFree Config.scrubUnits s.units

/-- The granule that a channel has zeroed: the one its command is at, which need not be claimed by it any more
(R108, R126). -/
def granuleServed (s : State) (c : Nat) : Nat :=
  match (chan s c).active with
  | some a => granuleAt a.work
  | none => 0

/-- A unit is granted to a channel and produces its 64 zero writes in order (R125, R126). -/
def grantUnit (u c : Nat) (s : State) : State :=
  let g := granuleServed s c
  let s := setUnit u { channel := c, granule := g, issued := 0, completed := 0, failed := false, halted := false }
    { s with lastServed := c }
  (List.range Config.granuleLines).foldl (fun s i => produceJob (.zeroLine u i) s) (goPhase c .zero .zero s)

/-- Whether a job is a zero write of a unit. -/
def isZeroOf (u : Nat) (j : OwnJob) : Bool :=
  match j with
  | .zeroLine v _ => v == u
  | _ => false

/-- A unit issues no further line: the lines that still wait for a tag are dropped (R127, R129). -/
def haltUnit (u : Nat) (s : State) : State :=
  match unitOf s u with
  | none => s
  | some z => setUnit u { z with halted := true } (keepJobs (fun j => !isZeroOf u j) s)

/-- A unit with no write outstanding or to issue becomes IDLE, and its command goes on: to its lookup after 64
OK completions (R125), to its undo after a halt (R129), or to its end after a failure (R127). -/
def settleUnit (u : Nat) (s : State) : State :=
  match unitOf s u with
  | none => s
  | some z =>
    if s.outstanding.any (fun o => isZeroOf u o.job) || (waitingJobs s).any (isZeroOf u) then s
    else
      let s := idleUnit u s
      match (chan s z.channel).active with
      | none => s
      | some a =>
        match a.phase with
        | .zero => if z.halted then goPhase z.channel .undo .running s else goPhase z.channel .afterZero .running s
        | .scrubFailed => tryEndScrub z.channel s
        | _ => s

/-- A zero write of a unit has ended (R125, R127).  The first failure halts the unit and orders the poisoning,
except from the POWER_WARN edge on (R133). -/
def zeroWriteEnded (u : Nat) (ok : Bool) (s : State) : State :=
  match unitOf s u with
  | none => s
  | some z =>
    if ok then settleUnit u (setUnit u { z with completed := z.completed + 1 } s)
    else if z.failed then settleUnit u s
    else
      let s := haltUnit u (setUnit u { z with failed := true } s)
      if warned s then settleUnit u s
      else
        let s := goPhase z.channel .scrubFailed .poison (goEnding z.channel .poisoned s)
        settleUnit u (orderPoison z.granule .scrubFailed (.scrub z.channel) s)

/-- Every unit that serves a channel issues no further line (R129, R133). -/
def haltUnitsOf (c : Nat) (s : State) : State :=
  ((s.units.filter (fun p => p.2.channel == c)).map (·.1)).foldl (fun s u => settleUnit u (haltUnit u s)) s

end Sys2Proof.Machine
end

