-- ==== Sys2Proof/Machine/GranuleOps.lean ====
section
/-!
DEFINITION. ASSIGN, RELEASE, RESTORE, QUERY_GRANULES (chapter 6) and RETIRE (5.5, R128): their starts, their
visits, and the phases that they share (R112, R115, R130).
-/

namespace Sys2Proof.Machine

/-! ### Starts (R103, R104, R114, R116, R119, R123, R124) -/

/-- ASSIGN at its start (R116). -/
def doAssign (c : Nat) (b : Line) (s : State) : State :=
  let d := wordA b
  let option := wordD b
  if d = 0 ∨ 511 < d ∨ (option ≠ 1 ∧ option ≠ 2) ∨ rangeBad s (wordB b) (wordC b) then
    refuse c b .parameter (refusal .assign b s) s
  else if !assignable (dom s d).state then refuse c b .domainState (refusal .assign b s) s
  else if option = 2 ∧ (dom s d).state ≠ .preparing then
    refuse c b .keepNotAllowed (refusal .assign b s) s
  else activate c b (.assign d (wordB b) (wordC b) (option == 2) 0) .visit .running s

/-- RELEASE at its start (R119). -/
def doRelease (c : Nat) (b : Line) (s : State) : State :=
  let d := wordA b
  if d = 0 ∨ 511 < d ∨ rangeBad s (wordB b) (wordC b) then refuse c b .parameter (refusal .release b s) s
  else if !releasable (dom s d).state then refuse c b .domainState (refusal .release b s) s
  else activate c b (.release d (wordB b) (wordC b) 0) .visit .running s

/-- RESTORE at its start (R123). -/
def doRestore (c : Nat) (b : Line) (s : State) : State :=
  if granuleCount s ≤ wordA b then refuse c b .parameter (refusal .restore b s) s
  else activate c b (.restore (wordA b)) .visit .running s

/-- QUERY_GRANULES at its start (R124). -/
def doQueryGranules (c : Nat) (b : Line) (s : State) : State :=
  if wordB b = 0 ∨ 5 < wordB b ∨ granuleCount s < wordA b + wordB b then
    refuse c b .parameter (refusal .queryGranules b s) s
  else activate c b (.queryGranules (wordA b) (wordB b) []) .visit .running s

/-- The Grant Table entries that name a domain, as (index, serial), in order of index (R104). -/
def grantsOf (s : State) (d : Nat) : List (Nat × Nat) :=
  (s.grants.filter (fun p => p.2.owner == d || p.2.grantee == d)).map (fun p => (p.1, p.2.serial))

/-- Every entry that names a domain becomes REVOKING (R104). -/
def revokeAllOf (d : Nat) (s : State) : State :=
  { s with grants := s.grants.map (fun p =>
      if p.2.owner == d || p.2.grantee == d then (p.1, { p.2 with state := .revoking }) else p) }

/-- The drains of RETIRE's grant clearance (R105): one by the domain, and one by granule and grantee for each
entry that names the domain as owner. -/
def beginClearance (c d : Nat) (s : State) : State :=
  (s.grants.filter (fun p => p.2.owner == d)).foldl
    (fun s p => beginDrain (.clearance c) (.pair p.2.granule p.2.grantee) s)
    (beginDrain (.clearance c) (.domain d) s)

/-- RETIRE at its start (R103, R104, R105). -/
def doRetire (c : Nat) (b : Line) (s : State) : State :=
  let d := wordA b
  if 511 < d ∨ rangeBad s (wordB b) (wordC b) then refuse c b .parameter (refusal .retire b s) s
  else if d = 0 ∨ (dom s d).state = .free then refuse c b .domainState (refusal .retire b s) s
  else if (dom s d).state = .retiring ∧ (dom s d).retireActive then
    refuse c b .domainBusy (refusal .retire b s) s
  else
    let work : Work := .retire
      { domain := d, hintFirst := wordB b, hintCount := wordC b, collected := grantsOf s d, removed := 0
        slotReleased := none, ownedAtWalk := 0, released := 0
        walk := { position := wordB b, inHint := true, found := false, after := wordB b }
        poisonedAtVisit := false }
    let s := setDom d { dom s d with state := .retiring, retireActive := true } s
    let s := beginClearance c d (revokeAllOf d s)
    if drained s (.clearance c) then activate c b work .removal .running s
    else activate c b work .clearance .drain s

/-! ### Progress of a granule operation -/

/-- Whether a channel's claim is on a granule (R113). -/
def ownClaim (s : State) (c g : Nat) : Bool := (chan s c).claim == some g

/-- A change has been made to a granule: its drain begins, and an empty one ends in the same step (R112,
R85). -/
def startGranuleDrain (c g : Nat) (s : State) : State :=
  let s := beginDrain (.command c) (.granule g) s
  if drained s (.command c) then goPhase c .afterDrain .running s else goPhase c .drain .drain s

/-- A granule is done: the next one is visited (R112). -/
def nextGranule (c : Nat) (w : Work) (s : State) : State :=
  goPhase c .visit .running (goWork c w (setClaim c none s))

/-! ### Validation (R117, R120, R123) -/

/-- The first test of R117 that a granule fails. -/
def assignTest (d g : Nat) (keep : Bool) (r : TagRecord) (s : State) : Option Result :=
  let e := dom s d
  if !assignable e.state then some .domainState
  else if keep && e.state != .preparing then some .keepNotAllowed
  else if e.quota ≤ e.owned then some .quotaReached
  else if inRegionEntry s g then some .regionConflict
  else if granuleBusy s g r then some .granuleBusy
  else if r.state ≠ .gOpen then some .granuleState
  else none

/-- ASSIGN validates a granule and makes its change (R117). -/
def assignVisit (c d g : Nat) (keep : Bool) (r : TagRecord) (s : State) : State :=
  match assignTest d g keep r s with
  | some res => stopWork c res s
  | none =>
    let s := putRecord g { owner := some d, state := .gClearingIn, pinned := false, dirty := false, count := 0 } s
    let s := setDom d { dom s d with owned := (dom s d).owned + 1 } s
    startGranuleDrain c g (setClaim c (some g) s)

/-- The first test of R120 that a granule fails. -/
def releaseTest (d g : Nat) (r : TagRecord) (s : State) : Option Result :=
  if !releasable (dom s d).state then some .domainState
  else if granuleBusy s g r then some .granuleBusy
  else if r.state ≠ .gPrivate ∨ r.owner ≠ some d then some .granuleState
  else if r.pinned then some .granulePinned
  else if r.count ≠ 0 then some .granuleShared
  else none

/-- RELEASE validates a granule and makes its change (R120). -/
def releaseVisit (c d g : Nat) (r : TagRecord) (s : State) : State :=
  match releaseTest d g r s with
  | some res => stopWork c res s
  | none => startGranuleDrain c g (setClaim c (some g) (putRecord g { r with state := .gClearingOut } s))

/-- The first test of R123 that a granule fails. -/
def restoreTest (g : Nat) (r : TagRecord) (s : State) : Option Result :=
  if granuleBusy s g r then some .granuleBusy
  else if inTagRegion s g then some .granuleState
  else if r.state ≠ .gPoisoned then some .granuleState
  else none

/-- RESTORE validates its granule and takes its claim (R123). -/
def restoreVisit (c g : Nat) (r : TagRecord) (s : State) : State :=
  match restoreTest g r s with
  | some res => stopWork c res s
  | none => startGranuleDrain c g (setClaim c (some g) s)

/-! ### RETIRE's walk (R106 to R109, R128) -/

/-- Whether an operation is a RETIRE. -/
def isRetire : Work → Bool
  | .retire _ => true
  | _ => false

/-- The last-result record of a retired domain is cleared, and its request leaves the queue without a result;
a running one stops and its drain is withdrawn (R109, R150). -/
def dropRequestOf (d : Nat) (s : State) : State :=
  let headIs := match s.requests with
    | q :: _ => q.requester == d && s.running.isSome
    | [] => false
  let s := { s with requests := s.requests.filter (fun q => q.requester != d) }
  let s := if headIs then withdrawDrains .request { s with running := none } else s
  setResult d LastResult.reset s

/-- RETIRE completes (R109); `left` is the owned count released without a granule. -/
def retireComplete (c : Nat) (r : RetireWork) (left : Nat) (s : State) : State :=
  let s := dropRequestOf r.domain (setDom r.domain Domain.reset s)
  completeWork c .done
    { finished := r.released, next := r.walk.after, w0 := r.removed, w1 := optField 8 r.slotReleased
      w2 := r.ownedAtWalk, w3 := left } s

/-- RETIRE begins its walk, noting the owned count (R106, R109). -/
def retireWalk (c : Nat) (r : RetireWork) (s : State) : State :=
  goPhase c .visit .running
    (goWork c (.retire { r with collected := [], ownedAtWalk := (dom s r.domain).owned }) s)

/-- Where the walk goes when it has passed the end of a range: from the hint to granule 0, and from N − 1 to
granule 0 again if its pass found a granule of the domain; `none` is its end (R106). -/
def walkNext (n : Nat) (r : RetireWork) : Option RetireWalk :=
  let w := r.walk
  if w.inHint ∧ r.hintFirst + r.hintCount ≤ w.position then
    some { w with position := 0, inHint := false, found := false }
  else if !w.inHint ∧ n ≤ w.position then
    if w.found then some { w with position := 0, found := false } else none
  else some w

/-- Whether the claim on a granule is that of another channel's RETIRE: an earlier one, whose undo is pending
across a warm reset (R108, R132). -/
def retireClaims (s : State) (c g : Nat) : Bool :=
  (claimant s g).any (fun x => x != c &&
    (((chan s x).active.map (·.work)).any isRetire || ((chan s x).undo.map (·.work)).any isRetire))

/-- RETIRE visits a granule that names its domain as owner (R107, R108, R128). -/
def retireOwned (c : Nat) (r : RetireWork) (rec : TagRecord) (s : State) : State :=
  let g := r.walk.position
  let other := (claimant s g).any (fun c' => c' != c)
  let change := fun (s : State) =>
    startGranuleDrain c g (setClaim c (some g) (putRecord g { rec with state := .gClearingOut, pinned := false } s))
  match rec.state with
  | .gClearingIn =>
    let s := match claimant s g with
      | some c' => setClaim c' none s
      | none => s
    startGranuleDrain c g (setClaim c (some g) (putRecord g { rec with state := .gClearingOut } s))
  | .gPrivate => if other then goWait c (.claim g) s else change s
  | .gClearingOut =>
    if retireClaims s c g then stopWork c .granuleBusy s
    else if other then goWait c (.claim g) s
    else change s
  | .gPoisoned =>
    if other then goWait c (.claim g) s
    else startGranuleDrain c g (setClaim c (some g) (goWork c (.retire { r with poisonedAtVisit := true }) s))
  | .gOpen => nextGranule c (.retire { r with walk := { r.walk with position := g + 1 } }) s
  | .gReserved => nextGranule c (.retire { r with walk := { r.walk with position := g + 1 } }) s

/-- RETIRE looks up the record of the granule it visits (R106). -/
def retireVisit (c : Nat) (r : RetireWork) (rec : TagRecord) (s : State) : State :=
  let g := r.walk.position
  if rec.owner = some r.domain then
    let r := { r with walk := { r.walk with found := true, after := g + 1 }, poisonedAtVisit := false }
    retireOwned c r rec (goWork c (.retire r) s)
  else
    goPhase c .visit .running
      (goWork c (.retire { r with walk := { r.walk with position := g + 1, after := g + 1 } }) s)

/-- One step of RETIRE's walk before a visit: its end at owned count 0, or the next visit, which looks the record up
(R106).  The visit is then under way, so that a lookup made after its fill has landed (R51) or again after the claim
it waited on was released (R108) reads the owned count no more. -/
def retireStep (c : Nat) (r : RetireWork) (s : State) : State :=
  if (dom s r.domain).owned = 0 then retireComplete c r 0 s
  else match walkNext (granuleCount s) r with
    | none => retireComplete c r (dom s r.domain).owned s
    | some w =>
      let r := { r with walk := w }
      withRecord c w.position (retireVisit c r) (goPhase c .visiting .running (goWork c (.retire r) s))

/-! ### Visits -/

/-- The next visit of a granule operation, of QUERY_GRANULES or of RETIRE (R106, R112, R124). -/
def visitStep (c : Nat) (a : Active) (s : State) : State :=
  match a.work with
  | .assign d f n keep k =>
    if k = n then doneWork c s else withRecord c (f + k) (assignVisit c d (f + k) keep) s
  | .release d f n k =>
    if k = n then doneWork c s else withRecord c (f + k) (releaseVisit c d (f + k)) s
  | .restore g => withRecord c g (restoreVisit c g) s
  | .queryGranules f n ws =>
    if ws.length = n then doneWork c s
    else withRecord c (f + ws.length) (fun r t =>
      goPhase c .visit .running (goWork c (.queryGranules f n (ws ++ [recordWord r])) t)) s
  | .retire r => retireStep c r s
  | _ => s

/-! ### The later lookups (R115, R107) -/

/-- The result with which a later lookup stops a command, if it does (R115, R107). -/
def laterStop (c g : Nat) (a : Active) (r : TagRecord) (s : State) : Option Result :=
  let changed := if r.state = .gPoisoned then some Result.poisoned
    else if ownClaim s c g then none else some Result.domainState
  match a.work with
  | .assign _ _ _ _ _ => changed
  | .release _ _ _ _ => changed
  | .retire w => if a.phase = .afterZero ∧ r.state = .gPoisoned ∧ !w.poisonedAtVisit then some .poisoned else none
  | _ => none

/-- Whether an operation zeroes its granule: every one but ASSIGN with option KEEP (R112). -/
def zeroes : Work → Bool
  | .assign _ _ _ keep _ => !keep
  | _ => true

/-- RETIRE takes the POISONED handling for a granule found POISONED after its drain (R107). -/
def notePoisoned (c : Nat) (w : Work) (r : TagRecord) (s : State) : State :=
  match w with
  | .retire x => if r.state = .gPoisoned then goWork c (.retire { x with poisonedAtVisit := true }) s else s
  | _ => s

/-- The owned count of a guest domain falls by one (R98). -/
def ownedDown (d : Nat) (s : State) : State := setDom d { dom s d with owned := (dom s d).owned - 1 } s

/-- The finish step (R118, R121, R123, R107). -/
def finishGranule (c g : Nat) (w : Work) (r : TagRecord) (s : State) : State :=
  match w with
  | .assign d f n keep k =>
    nextGranule c (.assign d f n keep (k + 1))
      (putRecord g { owner := some d, state := .gPrivate, pinned := false, dirty := false, count := 0 } s)
  | .release d f n k =>
    nextGranule c (.release d f n (k + 1)) (ownedDown d (putRecord g openRecord s))
  | .restore _ =>
    let cause := (s.poisonList.find? (fun e => e.granule == g)).map (fun e => poisonCauseCode e.cause)
    let s := putRecord g openRecord s
    let s := match r.owner with
      | some d => if d = 0 then s else ownedDown d s
      | none => s
    let s := unlistPoison g s
    completeWork c .done
      { finished := 1, next := g + 1, w0 := optField 8 r.owner, w1 := optField 8 cause,
        w2 := s.poisonList.length } s
  | .retire x =>
    let s := putRecord g openRecord s
    let s := if r.owner = some x.domain then ownedDown x.domain s else s
    let s := if x.poisonedAtVisit then unlistPoison g s else s
    nextGranule c (.retire { x with released := x.released + 1, walk := { x.walk with position := g + 1 } }) s
  | _ => s

/-- The lookup when a granule's drain has finished (R115, R118, R121). -/
def afterDrain (c : Nat) (a : Active) (r : TagRecord) (s : State) : State :=
  let g := granuleAt a.work
  match laterStop c g a r s with
  | some res => stopWork c res s
  | none =>
    if zeroes a.work then goPhase c .unit .unit (notePoisoned c a.work r s)
    else finishGranule c g a.work r s

/-- The lookup when a granule's zeroing has ended (R115). -/
def afterZero (c : Nat) (a : Active) (r : TagRecord) (s : State) : State :=
  let g := granuleAt a.work
  match laterStop c g a r s with
  | some res => stopWork c res s
  | none => finishGranule c g a.work r s

/-! ### The undo (R130, R110) -/

/-- The undo's change of a record (R130, R110): none unless the record is as the command left it, under the
command's own claim. -/
def undoRecord (c g : Nat) (w : Work) (r : TagRecord) (s : State) : State :=
  let back := fun (s : State) => putRecord g { r with state := .gPrivate, pinned := false } s
  if !ownClaim s c g then s
  else match w, r.state with
    | .assign d _ _ _ _, .gClearingIn => ownedDown d (putRecord g openRecord s)
    | .release _ _ _ _, .gClearingOut => back s
    | .retire _, .gClearingOut => back s
    | _, _ => s

/-- The undo step of an active command that is stopping (R129, R130). -/
def undoStep (c : Nat) (a : Active) (s : State) : State :=
  let g := granuleAt a.work
  withRecord c g (fun r t => stopWork c (a.ending.getD .aborted) (undoRecord c g a.work r t)) s

/-- The undo kept beside a channel across a warm reset (R132).  While fills are withheld it joins a fill of its line that
is under way and starts none (R47, R174). -/
def pendingUndoStep (c : Nat) (u : PendingUndo) (s : State) : State :=
  match lookup u.granule s with
  | some (r, t) =>
    let t := undoRecord c u.granule u.work r t
    setChan c { chan t c with undo := none, claim := none, retake := true } t
  | none =>
    if fillsWithheld s && !fillUnderWay s (tagLineOf u.granule) then
      setChan c { chan s c with undo := some { u with wait := .suspended } } s
    else joinFill (tagLineOf u.granule)
      (setChan c { chan s c with undo := some { u with wait := .fill (tagLineOf u.granule) } } s)

end Sys2Proof.Machine
end

