-- ==== Sys2Proof/Machine/Tracking.lean ====
section
/-!
DEFINITION. The Track Unit (chapter 8): TRACK_START, the marks of permitted writes, TRACK_COLLECT and the
release of a slot.
-/

namespace Sys2Proof.Machine

/-! ### TRACK_START (R153, R154) -/

/-- TRACK_START at its start (R153). -/
def doTrackStart (c : Nat) (b : Line) (s : State) : State :=
  let k := wordA b
  let d := wordB b
  let sl := slotOf s k
  if 3 < k ∨ d = 0 ∨ 511 < d ∨ wordE b = 0 ∨ 512 < wordE b ∨ rangeBad s (wordC b) (wordD b) then
    refuse c b .parameter (refusal .trackStart b s) s
  else if !(sl.state = .idle ∨ (sl.state = .overflowed ∧ sl.domain = some d)) ∨ sl.collecting.isSome then
    refuse c b .slotState (refusal .trackStart b s) s
  else if !assignable (dom s d).state then refuse c b .domainState (refusal .trackStart b s) s
  else if (dom s d).slot.any (fun x => x != k) then refuse c b .domainBusy (refusal .trackStart b s) s
  else
    let s := setSlot k { sl with
      state := .arming, domain := some d, fillMark := wordE b, queue := [], armedBy := some c } s
    let s := setDom d { dom s d with slot := some k } s
    activate c b (.trackStart k d (wordC b) (wordD b) 0 0) .visit .running s

/-- The last granule has been visited: the slot becomes ACTIVE and TRACK_START completes (R154). -/
def trackStartDone (c k f n cleared : Nat) (s : State) : State :=
  let s := setSlot k { slotOf s k with state := .active, armedBy := none } s
  completeWork c .done { finished := n, next := f + n, w0 := cleared, w1 := k } s

/-- Whether a slot is ARMING under a channel's command (R154). -/
def armedUnder (s : State) (k c : Nat) : Bool :=
  (slotOf s k).state == .arming && (slotOf s k).armedBy == some c

/-- One granule of the arming walk at its record's line (R154): DIRTY is cleared if the record names the
domain, and the walk's last granule makes the slot ACTIVE. -/
def trackStartRecord (c k d f n done cleared : Nat) (r : TagRecord) (s : State) : State :=
  let hit := decide (r.owner = some d) && r.dirty
  let s := if hit then putRecord (f + done) { r with dirty := false } s else s
  let cleared := if hit then cleared + 1 else cleared
  if done + 1 = n ∧ armedUnder s k c then trackStartDone c k f n cleared s
  else goPhase c .visit .running (goWork c (.trackStart k d f n (done + 1) cleared) s)

/-- The tests before a visit of the arming walk, and the visit (R154, R102). -/
def trackStartStep (c : Nat) (k d f n done cleared : Nat) (s : State) : State :=
  if !armedUnder s k c then stopWork c .slotState s
  else if !assignable (dom s d).state then stopWork c .domainState s
  else withRecord c (f + done) (trackStartRecord c k d f n done cleared) (goPhase c .clearing .running s)

/-! ### Marks (R155, R156) -/

/-- Sets the keep mark of the group's first entry for a granule (R156). -/
def markKeep (g : Nat) : List QueueEntry → List QueueEntry
  | [] => []
  | e :: t => if e.granule = g ∧ e.group then { e with keep := true } :: t else e :: markKeep g t

/-- A slot takes a granule index that a mark hands over (R156). -/
def slotTake (k g : Nat) (s : State) : State :=
  let sl := slotOf s k
  if sl.queue.any (fun e => e.granule == g && e.group) then setSlot k { sl with queue := markKeep g sl.queue } s
  else match sl.state with
    | .active =>
      if sl.queue.length < Config.trackQueue then
        let q := sl.queue ++ [{ granule := g, group := false, keep := false }]
        let s := setSlot k { sl with queue := q } s
        if q.length = sl.fillMark then raise .trackAttention s else s
      else raise .trackAttention (setSlot k { sl with state := .overflowed } s)
    | _ => s

/-- The slot that a permitted write to this record is marked in (R155). -/
def trackingSlot (s : State) (r : TagRecord) : Option Nat :=
  match r.state, r.owner with
  | .gPrivate, some d =>
    match (dom s d).slot with
    | some k =>
      let st := (slotOf s k).state
      if d ≠ 0 ∧ (st = .active ∨ st = .overflowed) then some k else none
    | none => none
  | _, _ => none

/-- A write permitted at step 9 is marked (R78, R155). -/
def markWrite (g : Nat) (r : TagRecord) (s : State) : State :=
  match trackingSlot s r with
  | some k => if r.dirty then s else slotTake k g (putRecord g { r with dirty := true } s)
  | none => s

/-! ### TRACK_COLLECT (R158 to R161) -/

/-- TRACK_COLLECT at its start: the tests that need no record (R158). -/
def doTrackCollect (c : Nat) (b : Line) (s : State) : State :=
  let k := wordA b
  let sl := slotOf s k
  if 3 < k ∨ wordC b = 0 ∨ 512 < wordC b ∨ granuleCount s ≤ wordB b then
    refuse c b .parameter (refusal .trackCollect b s) s
  else if !(sl.state = .active ∨ sl.state = .overflowed) ∨ sl.collecting.isSome then
    refuse c b .slotState (refusal .trackCollect b s) s
  else activate c b
    (.trackCollect { slot := k, buffer := wordB b, capacity := wordC b, count := 0, delivered := 0, lines := 0,
                     group := [], visited := 0 }) .buffer .running s

/-- TRACK_COLLECT completes (R160). -/
def collectDone (c : Nat) (k : CollectWork) (s : State) : State :=
  completeWork c .done (collectReport k s) (cleanUp c (.trackCollect k) s)

/-- The granules of the next group at the head of the queue (R158). -/
def nextGroup (k : CollectWork) (sl : Slot) : List Nat :=
  (sl.queue.take (min Config.groupSize (k.count - k.delivered))).map (·.granule)

/-- A group starts: its entries take the group mark (R159). -/
def startGroup (c : Nat) (k : CollectWork) (s : State) : State :=
  let sl := slotOf s k.slot
  let m := min Config.groupSize (k.count - k.delivered)
  let q := (sl.queue.take m).map (fun e => { e with group := true, keep := false }) ++ sl.queue.drop m
  goPhase c .clearing .running
    (goWork c (.trackCollect { k with group := nextGroup k sl, visited := 0 })
      (setSlot k.slot { sl with queue := q } s))

/-- The buffer test and the changes of its step (R158).  The slot is tested again when the line has been
waited for. -/
def collectBuffer (c : Nat) (k : CollectWork) (r : TagRecord) (s : State) : State :=
  let sl := slotOf s k.slot
  if !(sl.state = .active ∨ sl.state = .overflowed) ∨ sl.collecting.isSome then stopWork c .slotState s
  else if r.state ≠ .gOpen ∨ r.owner ≠ some 0 ∨ inRegionEntry s k.buffer then stopWork c .parameter s
  else if claimed s k.buffer then stopWork c .granuleBusy s
  else
    let k := { k with count := min k.capacity sl.queue.length }
    let s := setClaim c (some k.buffer) (setSlot k.slot { sl with collecting := some c } s)
    let s := goPhase c .clearing .running (goWork c (.trackCollect k) s)
    if k.count = 0 then collectDone c k s else startGroup c k s

/-- One clearing visit at its record's line: at a granule's first visit in its group DIRTY is cleared for the slot's
domain, and at each visit a drain begins (R159). -/
def collectRecord (c : Nat) (k : CollectWork) (g : Nat) (r : TagRecord) (s : State) : State :=
  let ours := (slotOf s k.slot).domain.isSome && decide (r.owner = (slotOf s k.slot).domain)
  let again := (k.group.take k.visited).contains g
  let s := if ours && r.dirty && !again then putRecord g { r with dirty := false } s else s
  let s := beginDrain (.group c) (.granule g) s
  goPhase c .clearing .running (goWork c (.trackCollect { k with visited := k.visited + 1 }) s)

/-- The harvest write of a group is produced (R160). -/
def harvestIssue (c : Nat) (s : State) : State := produceJob (.harvest c) (goPhase c .harvest .writes s)

/-- One step of the clearing phase (R159). -/
def collectStep (c : Nat) (k : CollectWork) (s : State) : State :=
  match k.group[k.visited]? with
  | some g => withRecord c g (collectRecord c k g) s
  | none => if drained s (.group c) then harvestIssue c s else goPhase c .draining .drain s

/-- The queue after a group has been delivered: unkept entries leave, kept ones move to the end (R160). -/
def deliver (q : List QueueEntry) : List QueueEntry :=
  q.filter (fun e => !e.group) ++ clearMarks (q.filter (fun e => e.group && e.keep))

/-- A harvest write has ended (R160, R161).  DEDUCED (assumption 22): in a slot made IDLE meanwhile no group is left,
and a stop that waited for the last group's write stops with every group delivered; both report next granule N. -/
def harvestEnded (c : Nat) (ok : Bool) (s : State) : State :=
  match (chan s c).active with
  | some { work := .trackCollect k, ending := e, .. } =>
    if ok then
      let sl := slotOf s k.slot
      let s := setSlot k.slot { sl with queue := deliver sl.queue } s
      let k := { k with delivered := k.delivered + k.group.length, lines := k.lines + 1 }
      let k := { k with group := nextGroup k (slotOf s k.slot) }
      let s := goWork c (.trackCollect k) s
      match e with
      | some r => stopWork c r s
      | none => if k.delivered = k.count then collectDone c k s else startGroup c k s
    else stopWork c (e.getD .downstreamError) s
  | _ => s

/-- Whether a job is the harvest write of a channel. -/
def isHarvestOf (c : Nat) (j : OwnJob) : Bool := j == .harvest c

/-- TRACK_COLLECT stops (R161): at once, its drains withdrawn, unless its harvest write is outstanding, for
which it waits.  DEDUCED (assumption 22): a harvest write that still waits for a tag is not issued (R10). -/
def stopCollect (c : Nat) (r : Result) (s : State) : State :=
  let s := keepJobs (fun j => !isHarvestOf c j) s
  if s.outstanding.any (fun o => isHarvestOf c o.job) then goEnding c r s
  else stopWork c r (withdrawDrains (.group c) s)

/-- TRACK_STOP or RETIRE releases a slot (R106, R162): it becomes IDLE and a collection on it stops with
SLOT_STATE. -/
def releaseSlot (k : Nat) (s : State) : State :=
  let s := idleSlot k s
  match (slotOf s k).collecting with
  | some c => stopCollect c .slotState s
  | none => s

end Sys2Proof.Machine
end

