-- ==== Sys2Proof/Machine/Grants.lean ====
section
/-!
DEFINITION. Sharing grants (chapter 7): revocation by its removers (R136, R137), REVOKE_GRANT (R147), the
removals of RETIRE's clearance (R105) and of the warm reset (R151), and the guest requests of the Domain
Request Unit (R139 to R145).
-/

namespace Sys2Proof.Machine

/-- The move of a revocation: an entry becomes REVOKING, or is taken up as it stands (R136). -/
def moveGrant (i : Nat) (g : Grant) (s : State) : State := setGrant i { g with state := .revoking } s

/-! ### REVOKE_GRANT (R147) -/

/-- The entry's fields in the response of ACTIVATE_GRANT, REVOKE_GRANT and GRANT_READ (R181).  DESIGN CHOICE
(assumption 41): done, remaining and next granule of ACTIVATE_GRANT and GRANT_READ, which no rule gives, are 0. -/
def grantReport (g : Grant) : Report :=
  { w0 := g.granule, w1 := grantWord g.owner g.grantee g.readWrite (some g.state) }

/-- REVOKE_GRANT at its start: the move and the drain in one step (R147). -/
def doRevokeGrant (c : Nat) (b : Line) (s : State) : State :=
  let i := wordA b
  if Config.grantEntries ≤ i then refuse c b .parameter (refusal .revokeGrant b s) s
  else match grantAt s i with
    | none => refuse c b .noEntry (refusal .revokeGrant b s) s
    | some g =>
      let w : Work := .revoke { index := i, serial := g.serial, granule := g.granule, owner := g.owner,
                                grantee := g.grantee, readWrite := g.readWrite }
      let s := beginDrain (.command c) (.pair g.granule g.grantee) (moveGrant i g s)
      if drained s (.command c) then activate c b w .removal .running s else activate c b w .drain .drain s

/-- REVOKE_GRANT completes; `mine` says that its own removal step removed the entry (R147). -/
def revokeDone (c : Nat) (r : RevokeWork) (mine : Bool) (s : State) : State :=
  completeWork c .done
    { finished := 1, next := r.granule + 1, w0 := r.granule
      w1 := grantWord r.owner r.grantee r.readWrite none, w2 := boolBit mine } s

/-- REVOKE_GRANT's removal step (R136, R147). -/
def revokeStep (c : Nat) (r : RevokeWork) (s : State) : State :=
  match entryIs s r.index r.serial with
  | none => revokeDone c r false s
  | some g => withRecord c r.granule (fun rec t => revokeDone c r true (removeGrant r.index g rec t)) s

/-! ### RETIRE's grant clearance (R105, R106) -/

/-- RETIRE removes its next collected entry, passes over one that is gone, and after the last releases the
track slot and begins its walk (R105, R106). -/
def retireRemoval (c : Nat) (r : RetireWork) (s : State) : State :=
  match r.collected with
  | (i, serial) :: rest =>
    match entryIs s i serial with
    | none => goWork c (.retire { r with collected := rest }) s
    | some g =>
      withRecord c g.granule (fun rec t =>
        goPhase c .removal .running
          (goWork c (.retire { r with collected := rest, removed := r.removed + 1 }) (removeGrant i g rec t))) s
  | [] =>
    match (dom s r.domain).slot with
    | some k => retireWalk c { r with slotReleased := some k } (releaseSlot k s)
    | none => retireWalk c r s

/-- A removal fill of RETIRE has failed: it stops at that entry's granule (R105, R110). -/
def retireRemovalFailed (c : Nat) (r : RetireWork) (s : State) : State :=
  let g := match r.collected with
    | (i, serial) :: _ => ((entryIs s i serial).map (·.granule)).getD r.hintFirst
    | [] => r.hintFirst
  let s := cleanUp c (.retire r) s
  completeWork c .tagUnavailable
    { finished := r.released, remaining := (dom s r.domain).owned, next := g, w0 := r.removed
      w1 := optField 8 r.slotReleased } s

/-! ### The warm reset's revocation stage (R151, R174) -/

/-- The revocation stage takes another form. -/
def setRevocation (todo : List (Nat × Nat)) (drained : Bool) (w : Wait) (s : State) : State :=
  { s with warm := s.warm.map (fun x => { x with stage := .revocation todo drained w }) }

/-- The resumption step (R174): channels and traffic go on, the response becomes ready, and the pending undos
and poisonings fetch their lines from now on. -/
def resumption (w : WarmReset) (s : State) : State :=
  let s := { s with
    warm := none
    poisonings := s.poisonings.map (fun p => if p.wait = .suspended then { p with wait := .running } else p) }
  let wake := fun (s : State) (c : Nat) =>
    match (chan s c).undo with
    | some u => if u.wait = .suspended then setChan c { chan s c with undo := some { u with wait := .running } } s else s
    | none => s
  let s := channelNumbers.foldl wake s
  respond w.channel w.block .done { w0 := w.stopped, w1 := w.discarded, w2 := w.lost, w3 := w.removed, w4 := w.left } s

/-- The next step of the revocation stage (R151): it takes up the first entry left, begins its drain, makes
the removal step, and after the last entry resumption follows. -/
def revocationStep (w : WarmReset) (todo : List (Nat × Nat)) (done : Bool) (s : State) : State :=
  match todo with
  | [] => resumption w s
  | (i, serial) :: rest =>
    match entryIs s i serial with
    | none => setRevocation rest false .running s
    | some g =>
      if done then
        match lookup g.granule s with
        | some (r, t) =>
          setRevocation rest false .running
            { removeGrant i g r t with warm := some { w with removed := w.removed + 1 } }
        | none => joinFill (tagLineOf g.granule) (setRevocation todo true (.fill (tagLineOf g.granule)) s)
      else
        let s := beginDrain .warmReset (.pair g.granule g.grantee) s
        if drained s .warmReset then setRevocation todo true .running s else setRevocation todo true .drain s

/-- A removal fill of the warm reset has failed: the entry stays REVOKING (R151). -/
def revocationFailed (s : State) : State :=
  match s.warm with
  | some { stage := .revocation (_ :: rest) _ _, .. } =>
    setRevocation rest false .running { s with warm := s.warm.map (fun x => { x with left := x.left + 1 }) }
  | _ => s

/-! ### The Domain Request Unit (R139 to R145) -/

/-- The kinds of guest requests (R180). -/
inductive GuestKind where
  | offer
  | withdraw
  | pin
  | unpin
  | query
  deriving DecidableEq, Repr

/-- The kind that a code names (R180). -/
def guestKindOf : Nat → Option GuestKind
  | 1 => some .offer
  | 2 => some .withdraw
  | 3 => some .pin
  | 4 => some .unpin
  | 5 => some .query
  | _ => none

/-- The running request finishes: its result and optional fields reach its last-result record, and it leaves
the queue (R140). -/
def finishRequest (r : Result) (grant : Option Nat) (q : QueryPart) (s : State) : State :=
  match s.requests with
  | [] => s
  | x :: t =>
    setResult x.requester { resultOf s x.requester with result := r, grant := grant, query := q }
      { s with requests := t, running := none }

/-- The running request waits. -/
def requestWait (w : Wait) (s : State) : State :=
  { s with running := s.running.map (fun x => { x with wait := w }) }

/-- A command step of the running request (R51, R140). -/
def withRequestRecord (g : Nat) (k : TagRecord → State → State) (s : State) : State :=
  match lookup g s with
  | some (r, t) => k r t
  | none => joinFill (tagLineOf g) (requestWait (.fill (tagLineOf g)) s)

/-- The first test of R142 that an OFFER fails. -/
def offerTest (x : GuestRequest) (r : TagRecord) (s : State) : Option Result :=
  let e := (dom s x.grantee).state
  if r.state ≠ .gPrivate ∨ r.owner ≠ some x.requester then some .granuleState
  else if 511 < x.grantee ∨ x.grantee = x.requester ∨ (x.access ≠ 1 ∧ x.access ≠ 2) then some .parameter
  else if e = .free ∨ e = .retiring ∨ (dom s x.requester).state = .retiring then some .domainState
  else if (grantFor s x.granule x.grantee).isSome then some .duplicate
  else if Config.grantsPerGranule ≤ r.count then some .grantLimit
  else if (tblFree Config.grantEntries s.grants).isNone then some .tableFull
  else none

/-- OFFER creates an entry (R142). -/
def offerGrant (i : Nat) (x : GuestRequest) (r : TagRecord) (s : State) : State :=
  let g : Grant := { serial := s.grantSerial, granule := x.granule, owner := x.requester, grantee := x.grantee,
                     readWrite := x.access == 2, state := .offered }
  let s := putRecord x.granule { r with count := r.count + 1 } (setGrant i g { s with grantSerial := s.grantSerial + 1 })
  let s := setDom x.requester { dom s x.requester with given := (dom s x.requester).given + 1 } s
  setDom x.grantee { dom s x.grantee with held := (dom s x.grantee).held + 1 } s

/-- OFFER's command step (R142). -/
def offerStep (x : GuestRequest) (r : TagRecord) (s : State) : State :=
  match offerTest x r s with
  | some res => finishRequest res none .absent s
  | none =>
    match tblFree Config.grantEntries s.grants with
    | some i => finishRequest .done (some i) .absent (offerGrant i x r s)
    | none => finishRequest .tableFull none .absent s

/-- PIN's and UNPIN's command step (R144): a flag that already stands is not written again. -/
def pinStep (x : GuestRequest) (pinned : Bool) (r : TagRecord) (s : State) : State :=
  if r.state ≠ .gPrivate ∨ r.owner ≠ some x.requester then finishRequest .granuleState none .absent s
  else
    let s := if r.pinned = pinned then s else putRecord x.granule { r with pinned := pinned } s
    finishRequest .done none .absent s

/-- QUERY's command step (R145). -/
def queryStep (x : GuestRequest) (r : TagRecord) (s : State) : State :=
  if r.owner = some x.requester then
    finishRequest .done none (.ownerView r.state r.pinned r.count) s
  else match grantFor s x.granule x.requester with
    | some (i, g) => finishRequest .done (some i) (.granteeView r.state g.state g.readWrite) s
    | none => finishRequest .notOwner none .absent s

/-- WITHDRAW's tests, its move and its drain (R143, R136). -/
def withdrawStart (x : GuestRequest) (s : State) : State :=
  if 511 < x.grantee then finishRequest .parameter none .absent s
  else match grantFor s x.granule x.grantee with
    | none => finishRequest .noEntry none .absent s
    | some (i, g) =>
      if g.owner ≠ x.requester then finishRequest .notOwner none .absent s
      else
        let s := beginDrain .request (.pair g.granule g.grantee) (moveGrant i g s)
        let w := if drained s .request then Wait.running else Wait.drain
        { s with running := some { wait := w, entry := some (i, g.serial) } }

/-- WITHDRAW's removal step (R143). -/
def withdrawRemoval (i serial : Nat) (s : State) : State :=
  match entryIs s i serial with
  | none => finishRequest .done (some i) .absent s
  | some g => withRequestRecord g.granule (fun r t => finishRequest .done (some i) .absent (removeGrant i g r t)) s

/-- The running request makes its next step, by its kind. -/
def requestStep (s : State) : State :=
  match s.requests, s.running with
  | x :: _, some run =>
    match run.entry with
    | some (i, serial) => withdrawRemoval i serial s
    | none =>
      match guestKindOf x.kind with
      | some .offer => withRequestRecord x.granule (offerStep x) s
      | some .withdraw => withdrawStart x s
      | some .pin => withRequestRecord x.granule (pinStep x true) s
      | some .unpin => withRequestRecord x.granule (pinStep x false) s
      | some .query => withRequestRecord x.granule (queryStep x) s
      | none => s
  | _, _ => s

/-- Whether the Domain Request Unit may start its head request (R140, R150, R173, R202). -/
def canStartRequest (s : State) : Bool := s.running.isNone && s.warm.isNone && !warned s

/-- The first test of R140 that a head request fails. -/
def startTest (x : GuestRequest) (s : State) : Option Result :=
  if s.mode ≠ .operational then some .mode
  else if (dom s x.requester).state ≠ .running then some .domainState
  else if (guestKindOf x.kind).isNone then some .unknownCommand
  else if granuleCount s ≤ x.granule then some .parameter
  else none

/-- The head request starts: it finishes with the first test that fails, or runs (R140). -/
def startRequest (x : GuestRequest) (s : State) : State :=
  match startTest x s with
  | some r => finishRequest r none .absent s
  | none => { s with running := some { wait := .running, entry := none } }

/-- The head request, if the unit may start it. -/
def headRequest (s : State) : Option GuestRequest := if canStartRequest s then s.requests.head? else none

/-- A head request of a kind that no row of the table names, which the unit starts and finishes in the step
that brings it to the head (R140; assumption 9). -/
def unknownHead (s : State) : Option GuestRequest :=
  (headRequest s).filter (fun x => (guestKindOf x.kind).isNone)

end Sys2Proof.Machine
end

