-- ==== Sys2Proof/Machine/Control.lean ====
section
/-!
DEFINITION. The control commands (R170): each makes all of its effects in the step in which it is taken, and
completes in that step.  `c` is the channel and `b` the command block.
-/

namespace Sys2Proof.Machine

/-! ### Domain commands (R91 to R96) -/

/-- CREATE (R91). -/
def doCreate (c : Nat) (b : Line) (s : State) : State :=
  let d := wordA b
  if d = 0 ∨ 511 < d ∨ granuleCount s < wordB b ∨ 15 < wordC b then respond c b .parameter {} s
  else if (dom s d).state ≠ .free then respond c b .domainInUse {} s
  else
    respond c b .done { w0 := dstateCode .preparing }
      (setDom d { dom s d with
        state := .preparing, quota := wordB b, threshold := wordC b, violations := 0, firstAddress := none } s)

/-- START, PAUSE, RESUME and UNFENCE: a move from one state to another (R92). -/
def moveDomain (c : Nat) (b : Line) (old new : DState) (clear : Bool) (s : State) : State :=
  let d := wordA b
  if 511 < d then respond c b .parameter {} s
  else if d = 0 ∨ (dom s d).state ≠ old then respond c b .domainState {} s
  else
    let e := { dom s d with state := new }
    let e := if clear then { e with violations := 0, firstAddress := none } else e
    respond c b .done { w0 := dstateCode old, w1 := dstateCode new } (setDom d e s)

def doStart (c : Nat) (b : Line) (s : State) : State := moveDomain c b .preparing .running false s
def doPause (c : Nat) (b : Line) (s : State) : State := moveDomain c b .running .paused false s
def doResume (c : Nat) (b : Line) (s : State) : State := moveDomain c b .paused .running false s
def doUnfence (c : Nat) (b : Line) (s : State) : State := moveDomain c b .fenced .paused true s

/-- SET_QUOTA (R93). -/
def doSetQuota (c : Nat) (b : Line) (s : State) : State :=
  let d := wordA b
  if 511 < d ∨ granuleCount s < wordB b then respond c b .parameter {} s
  else if !releasable (dom s d).state then respond c b .domainState {} s
  else
    respond c b .done { w0 := (dom s d).quota, w1 := (dom s d).owned }
      (setDom d { dom s d with quota := wordB b } s)

/-- SET_FENCE (R94). -/
def doSetFence (c : Nat) (b : Line) (s : State) : State :=
  let d := wordA b
  if 511 < d ∨ 15 < wordB b then respond c b .parameter {} s
  else if !releasable (dom s d).state then respond c b .domainState {} s
  else
    let old := (dom s d).threshold
    let e := { dom s d with threshold := wordB b }
    respond c b .done { w0 := old, w1 := boolBit (fences e) } (fenceTest d (setDom d e s))

/-- CLEAR_DOMAIN_COUNTERS (R95). -/
def doClearDomainCounters (c : Nat) (b : Line) (s : State) : State :=
  let d := wordA b
  if 511 < d then respond c b .parameter {} s
  else
    respond c b .done { w0 := (dom s d).violations, w1 := optField 8 (dom s d).firstAddress }
      (setDom d { dom s d with violations := 0, firstAddress := none } s)

/-- DOMAIN_STATUS (R96, placed as R181 gives). -/
def domainReport (e : Domain) : Report :=
  { w0 := packFields [(0, 1, dstateCode e.state), (1, 1, boolBit e.retireActive), (2, 1, e.violations),
      (3, 1, e.threshold)]
    w1 := e.quota, w2 := e.owned
    w3 := packFields [(0, 2, e.given), (2, 2, e.held), (4, 1, optField 1 e.slot)]
    w4 := optField 8 e.firstAddress }

def doDomainStatus (c : Nat) (b : Line) (s : State) : State :=
  if 511 < wordA b then respond c b .parameter {} s
  else respond c b .done (domainReport (dom s (wordA b))) s

/-! ### Grant commands (R146, R148) -/

/-- ACTIVATE_GRANT (R146). -/
def doActivateGrant (c : Nat) (b : Line) (s : State) : State :=
  let i := wordA b
  if Config.grantEntries ≤ i then respond c b .parameter {} s
  else match grantAt s i with
    | none => respond c b .noEntry {} s
    | some g =>
      if g.state = .offered then
        let g := { g with state := .active }
        respond c b .done (grantReport g) (setGrant i g s)
      else respond c b .grantState (grantReport g) s

/-- GRANT_READ (R148). -/
def doGrantRead (c : Nat) (b : Line) (s : State) : State :=
  let i := wordA b
  if Config.grantEntries ≤ i then respond c b .parameter {} s
  else match grantAt s i with
    | none => respond c b .noEntry { w2 := s.grants.length } s
    | some g => respond c b .done { grantReport g with w2 := s.grants.length } s

/-! ### Track commands (R162, R163) -/

/-- TRACK_STOP (R162): it completes in its step (R170), and a collection on the slot stops after it. -/
def doTrackStop (c : Nat) (b : Line) (s : State) : State :=
  let k := wordA b
  let sl := slotOf s k
  if 3 < k then respond c b .parameter {} s
  else if sl.state = .idle then respond c b .slotState {} s
  else
    releaseSlot k (respond c b .done { w0 := sl.domain.getD 0, w1 := sl.queue.length } s)

/-- TRACK_STATUS (R163, placed as R181 gives). -/
def doTrackStatus (c : Nat) (b : Line) (s : State) : State :=
  let sl := slotOf s (wordA b)
  if 3 < wordA b then respond c b .parameter {} s
  else
    respond c b .done
      { w0 := packFields [(0, 1, slotStateCode sl.state), (2, 2, optField 2 sl.domain), (4, 2, sl.fillMark)]
        w1 := sl.queue.length, w2 := optField 8 ((sl.queue.head?).map (·.granule))
        w3 := optField 8 sl.collecting } s

/-! ### Violations and notices (R187, R191 to R193) -/

/-- VIOLATION_POP (R187). -/
def doViolationPop (c : Nat) (b : Line) (s : State) : State :=
  match s.log with
  | [] => respond c b .noEntry {} s
  | v :: t => respond c b .done { w0 := v.address, w1 := violationWord v, w2 := t.length } { s with log := t }

/-- NOTICE_CONFIG (R191).  DESIGN CHOICE (assumption 27): word 1 shows the marks before its own response raises
CHANNEL_DONE. -/
def doNoticeConfig (c : Nat) (b : Line) (s : State) : State :=
  let n := wordA b
  if Config.noticeSources ≤ n ∨ 3 < wordB b then respond c b .parameter {} s
  else
    let m := sourceOf s n
    respond c b .done { w0 := m.cls, w1 := boolBit m.pending + 2 * boolBit m.notified }
      (setSource n { m with cls := wordB b } s)

/-- The sources of a set, from its bits (R192). -/
def sourceSet (w : Nat) : List Nat := (List.range Config.noticeSources).filter (fun n => w.testBit n)

/-- NOTICE_CLEAR (R192).  DESIGN CHOICE (assumption 27): it clears its set before its response raises CHANNEL_DONE, so
that source ends pending. -/
def doNoticeClear (c : Nat) (b : Line) (s : State) : State :=
  let w := wordA b
  if 2 ^ Config.noticeSources ≤ w then respond c b .parameter {} s
  else
    let was := (sourceSet w).filter (fun n => (sourceOf s n).pending)
    respond c b .done { w0 := (was.map (2 ^ ·)).sum }
      ((sourceSet w).foldl (fun s n => setSource n { sourceOf s n with pending := false, notified := false } s) s)

/-- NOTICE_STATUS (R193, placed as R181 gives).  DESIGN CHOICE (assumption 27): all marks are read before its own
response raises CHANNEL_DONE. -/
def doNoticeStatus (c : Nat) (b : Line) (s : State) : State :=
  let nibble := fun n =>
    let m := sourceOf s n
    (m.cls + 4 * boolBit m.pending + 8 * boolBit m.notified) * 16 ^ n
  respond c b .done
    { w0 := ((List.range Config.noticeSources).map nibble).sum, w1 := optField 8 (s.noticeSlot.map (·.source)) } s

/-! ### Region commands (R197) -/

/-- REGION_CLEAR and REGION_LOCKDOWN: a SET entry takes another state (R197). -/
def moveRegion (c : Nat) (b : Line) (new : RegionState) (s : State) : State :=
  let i := wordA b
  let e := regionOf s i
  let report := fun (e : Region) => ({ w0 := e.first, w1 := regionWord e } : Report)
  if Config.regionEntries ≤ i then respond c b .parameter {} s
  else if s.freeze then respond c b .frozen (report e) s
  else
    match e.state with
    | .empty => respond c b .noEntry (report e) s
    | .pending => respond c b .regionConflict (report e) s
    | .lockedDown => respond c b .locked (report e) s
    | .set => respond c b .done (report { e with state := new }) (setRegion i { e with state := new } s)

def doRegionClear (c : Nat) (b : Line) (s : State) : State := moveRegion c b .empty s
def doRegionLockdown (c : Nat) (b : Line) (s : State) : State := moveRegion c b .lockedDown s

/-- FREEZE (R197). -/
def doFreeze (c : Nat) (b : Line) (s : State) : State :=
  respond c b .done { w0 := boolBit (!s.freeze) } { s with freeze := true }

/-! ### Mode Control (R199 to R201, R203) -/

/-- SET_FAULT_POLICY (R201).  DESIGN CHOICE (assumption 38): a value that is neither CONTAIN nor IGNORE is refused with
PARAMETER while FREEZE is set too; the manual orders its two refusals nowhere. -/
def doSetFaultPolicy (c : Nat) (b : Line) (s : State) : State :=
  let w := wordA b
  if w ≠ 1 ∧ w ≠ 2 then respond c b .parameter {} s
  else if s.freeze then respond c b .frozen {} s
  else
    respond c b .done { w0 := policyCode s.policy } { s with policy := if w = 1 then .contain else .ignore }

/-- CONTAIN (R199). -/
def doContain (c : Nat) (b : Line) (s : State) : State :=
  if s.mode = .operational then respond c b .done {} (enterCause .command s)
  else respond c b .mode {} s

/-- RESUME_PART (R200). -/
def doResumePart (c : Nat) (b : Line) (s : State) : State :=
  let p : Report := { w0 := causeCode s.cause }
  if s.mode ≠ .contained then respond c b .mode p s
  else if s.integrityMark then respond c b .mode p s
  else if s.cause = some .platformFault ∧ s.faultLine then respond c b .lineAsserted p s
  else respond c b .done p { s with mode := .operational, cause := none }

/-- PART_STATUS (R34, R203, placed as R181 gives).  DESIGN CHOICE (assumption 32): the total N/4 of R34, which R181
places nowhere, stands in value word 4. -/
def partReport (s : State) : Report :=
  { w0 := packFields [(0, 1, modeCode s.mode), (1, 1, causeCode s.cause), (2, 1, boolBit s.freeze),
      (3, 1, policyCode s.policy), (4, 1, boolBit s.faultLine + 2 * boolBit s.warnLine),
      (5, 1, boolBit s.hold.isSome), (6, 1, s.poisonList.length)]
    w1 := packFields [(0, 4, s.progress), (4, 4, optField 4 s.tagBase)]
    w2 := packFields [(0, 4, optField 4 s.firstCorrected), (4, 1, s.corrected), (5, 1, s.correctedLimit)]
    w3 := packFields [(0, 4, optField 4 s.hold), (4, 2, Config.inFlightEntries - s.inFlight.length),
      (6, 2, Config.grantEntries - s.grants.length)]
    w4 := tagLineCount s }

def doPartStatus (c : Nat) (b : Line) (s : State) : State := respond c b .done (partReport s) s

/-! ### The Integrity Checker (R53, R57, R58) -/

/-- ACK_INTEGRITY (R58). -/
def doAckIntegrity (c : Nat) (b : Line) (s : State) : State :=
  respond c b .done { w0 := optField 8 s.hold } { s with hold := none }

/-- CLEAR_INTEGRITY_COUNT (R53). -/
def doClearIntegrityCount (c : Nat) (b : Line) (s : State) : State :=
  respond c b .done { w0 := s.corrected, w1 := optField 8 s.firstCorrected }
    { s with corrected := 0, firstCorrected := none }

/-- SET_CORRECTED_LIMIT (R53). -/
def doSetCorrectedLimit (c : Nat) (b : Line) (s : State) : State :=
  let w := wordA b
  if w = 0 ∨ Config.correctedMax < w then respond c b .parameter {} s
  else
    let t := { s with correctedLimit := w }
    respond c b .done {} (if w ≤ s.corrected then raise .tagCorrectedLimit t else t)

/-- POISON_READ (R57). -/
def doPoisonRead (c : Nat) (b : Line) (s : State) : State :=
  let i := wordA b
  if Config.poisonEntries ≤ i then respond c b .parameter {} s
  else match s.poisonList[i]? with
    | none => respond c b .noEntry { w3 := s.poisonList.length } s
    | some e =>
      respond c b .done { w0 := e.granule, w1 := optField 8 e.owner, w2 := poisonCauseCode e.cause,
                          w3 := s.poisonList.length } s

/-! ### ABORT and RESET_ENGINES (R172, R173) -/

/-- The active work command of a channel stops as its rule says where it stands (R37, R61, R110, R129, R147,
R154, R161, R196); the result that it will report has been noted. -/
def stopCommand (c : Nat) (s : State) : State :=
  match (chan s c).active with
  | none => s
  | some a =>
    match a.phase with
    | .visit => stopWork c .aborted s
    | .visiting => stopWork c .aborted s
    | .buffer => stopWork c .aborted s
    | .removal => stopWork c .aborted s
    | .clearance => stopWork c .aborted (withdrawDrains (.clearance c) s)
    | .clearing =>
      match a.work with
      | .trackCollect _ => stopCollect c .aborted s
      | _ => stopWork c .aborted s
    | .draining => stopCollect c .aborted s
    | .harvest => stopCollect c .aborted s
    | .drain =>
      let s := withdrawDrains (.command c) s
      match a.work with
      | .format _ _ _ => stopWork c .aborted s
      | .revoke _ => stopWork c .aborted s
      | _ => goPhase c .undo .running s
    | .afterDrain => goPhase c .undo .running s
    | .afterZero => goPhase c .undo .running s
    | .unit => goPhase c .undo .running s
    | .zero => haltUnitsOf c s
    | .writes =>
      match a.work with
      | .format _ _ _ => formatStop c .aborted s
      | .flushTags x => flushStop c .aborted x s
      | _ => goWait c .running s
    | .undo => s
    | .scrubFailed => s

/-- ABORT's request to a channel (R172, step 1): the mark is set and the command stops, with ABORTED for its result; a
stop already requested goes on.  DEDUCED (assumption 16): that is its result also where it had begun to stop for another
reason and had not stopped yet (R129, R131). -/
def requestStop (c : Nat) (s : State) : State :=
  let ch := chan s c
  if ch.active.isNone || ch.stop then s
  else stopCommand c
    (setChan c { ch with stop := true, active := ch.active.map (fun a => { a with ending := some .aborted }) } s)

/-- ABORT (R172): it completes, and the command it names stops after it. -/
def doAbort (c : Nat) (b : Line) (s : State) : State :=
  let x := wordA b
  if 3 < x ∨ 1 < wordB b then respond c b .parameter {} s
  else
    let ch := chan s x
    let flush := wordB b == 1
    let report : Report :=
      { w0 := boolBit ch.active.isSome
        w1 := if flush then ch.work.length else 0
        w2 := optField 8 (ch.active.map (fun a => blockCode a.block)) }
    let s := if flush then setChan x { ch with work := [] } s else s
    requestStop x (respond c b .done report s)

/-- The warm reset as it begins (R173). -/
def newWarmReset (c : Nat) (b : Line) : WarmReset :=
  { channel := c, block := b, stage := .settling, stopped := 0, discarded := 0, lost := 0, removed := 0, left := 0 }

/-- RESET_ENGINES: the warm reset begins, and every active command and the running request stop (R173,
R150). -/
def doResetEngines (c : Nat) (b : Line) (s : State) : State :=
  let s := withdrawDrains .request { s with warm := some (newWarmReset c b), running := none }
  channelNumbers.foldl (fun s c => requestStop c s) s

end Sys2Proof.Machine
end

