-- ==== Sys2Proof/Machine/Engine.lean ====
section
/-!
DEFINITION. The Command Unit's engine: REGION_SET's walk (R196), the next step of each active command, the
start of a taken command (R168, R169), and the loop that lets every command, request and poisoning that waits
for nothing go on inside one step of the part (assumption 4).
-/

namespace Sys2Proof.Machine

/-! ### REGION_SET (R196) -/

/-- Whether a range overlaps a Region Table entry that is not EMPTY, other than entry i (R196). -/
def regionOverlap (s : State) (i f n : Nat) : Bool :=
  (List.range Config.regionEntries).any (fun j =>
    let e := regionOf s j
    j != i && e.state != .empty && rangesMeet f n e.first e.count)

/-- The first start test of R196 that fails. -/
def regionSetTest (s : State) (i f n kind : Nat) : Option Result :=
  let e := regionOf s i
  let inTag := match s.tagBase with
    | some t => rangesMeet f n t (tagRegionSize s)
    | none => false
  if Config.regionEntries ≤ i ∨ (kind ≠ 1 ∧ kind ≠ 2) ∨ rangeBad s f n then some .parameter
  else if s.freeze then some .frozen
  else if e.state = .lockedDown then some .locked
  else if e.state ≠ .empty then some .regionConflict
  else if inTag then some .parameter
  else if regionOverlap s i f n then some .regionConflict
  else none

/-- REGION_SET at its start (R196). -/
def doRegionSet (c : Nat) (b : Line) (s : State) : State :=
  let i := wordA b
  match regionSetTest s i (wordB b) (wordC b) (wordD b) with
  | some r => refuse c b r (refusal .regionSet b s) s
  | none =>
    activate c b (.regionSet i (wordB b) (wordC b) (wordD b == 2) 0) .visit .running
      (setRegion i { first := wordB b, count := wordC b, noAccess := wordD b == 2, state := .pending } s)

/-- One visit of REGION_SET's walk at its record's line; after the last, the entry becomes SET (R196). -/
def regionVisit (c i f n : Nat) (noAccess : Bool) (done : Nat) (r : TagRecord) (s : State) : State :=
  if claimed s (f + done) then stopWork c .granuleBusy s
  else if r.state ≠ .gOpen then stopWork c .granuleState s
  else if done + 1 = n then
    completeWork c .done { finished := n, next := f + n, w0 := i, w1 := regionKindCode noAccess }
      (setRegion i { regionOf s i with state := .set } s)
  else goPhase c .visit .running (goWork c (.regionSet i f n noAccess (done + 1)) s)

/-! ### The next step of an active command -/

/-- The next step of an active command that waits for nothing, by its phase. -/
def chanStep (c : Nat) (a : Active) (s : State) : State :=
  match a.phase with
  | .visit =>
    match a.work with
    | .trackStart k d f n done cleared => trackStartStep c k d f n done cleared s
    | .regionSet i f n noAccess done => withRecord c (f + done) (regionVisit c i f n noAccess done) s
    | _ => visitStep c a s
  | .visiting =>
    match a.work with
    | .retire r => withRecord c r.walk.position (retireVisit c r) s
    | _ => s
  | .clearing =>
    match a.work with
    | .trackStart k d f n done cleared => withRecord c (f + done) (trackStartRecord c k d f n done cleared) s
    | .trackCollect k => collectStep c k s
    | _ => s
  | .buffer =>
    match a.work with
    | .trackCollect k => withRecord c k.buffer (collectBuffer c k) s
    | _ => s
  | .removal =>
    match a.work with
    | .revoke r => revokeStep c r s
    | .retire r => retireRemoval c r s
    | _ => s
  | .afterDrain => withRecord c (granuleAt a.work) (afterDrain c a) s
  | .afterZero => withRecord c (granuleAt a.work) (afterZero c a) s
  | .undo => undoStep c a s
  | .writes =>
    match a.work with
    | .format base next lowest => formatStep c a base next lowest s
    | .flushTags x => flushStep c a x s
    | _ => s
  | _ => s

/-! ### Starting a taken command (R168, R169) -/

/-- The effect of each command of the catalogue once taken (R178). -/
def runCommand (cmd : Cmd) (c : Nat) (b : Line) (s : State) : State :=
  match cmd with
  | .format => doFormat c b s
  | .assign => doAssign c b s
  | .release => doRelease c b s
  | .restore => doRestore c b s
  | .queryGranules => doQueryGranules c b s
  | .retire => doRetire c b s
  | .revokeGrant => doRevokeGrant c b s
  | .trackStart => doTrackStart c b s
  | .trackCollect => doTrackCollect c b s
  | .flushTags => doFlushTags c b s
  | .regionSet => doRegionSet c b s
  | .create => doCreate c b s
  | .start => doStart c b s
  | .pause => doPause c b s
  | .resume => doResume c b s
  | .unfence => doUnfence c b s
  | .setQuota => doSetQuota c b s
  | .setFence => doSetFence c b s
  | .clearDomainCounters => doClearDomainCounters c b s
  | .domainStatus => doDomainStatus c b s
  | .activateGrant => doActivateGrant c b s
  | .grantRead => doGrantRead c b s
  | .trackStop => doTrackStop c b s
  | .trackStatus => doTrackStatus c b s
  | .violationPop => doViolationPop c b s
  | .noticeConfig => doNoticeConfig c b s
  | .noticeClear => doNoticeClear c b s
  | .noticeStatus => doNoticeStatus c b s
  | .regionClear => doRegionClear c b s
  | .regionLockdown => doRegionLockdown c b s
  | .freeze => doFreeze c b s
  | .setFaultPolicy => doSetFaultPolicy c b s
  | .contain => doContain c b s
  | .resumePart => doResumePart c b s
  | .ackIntegrity => doAckIntegrity c b s
  | .clearIntegrityCount => doClearIntegrityCount c b s
  | .setCorrectedLimit => doSetCorrectedLimit c b s
  | .poisonRead => doPoisonRead c b s
  | .partStatus => doPartStatus c b s
  | .abort => doAbort c b s
  | .resetEngines => doResetEngines c b s

/-- A command starts in the step in which it is taken: it leaves its queue and meets the mode test, then its
own rule (R168, R169). -/
def takeCommand (cmd : Cmd) (c : Nat) (b : Line) (s : State) : State :=
  let t := dequeue c s
  if modeRefuses cmd t then
    if isWork cmd then refuse c b .mode (modeRefusal cmd b t) t else respond c b .mode {} t
  else runCommand cmd c b t

/-- The command that a channel takes now, if it is the one named. -/
def namedTake (cmd : Cmd) (c : Nat) (s : State) : Option Line :=
  (takeable c s).filter (fun b => cmdOfCode (blockCode b) == some cmd)

/-- A channel that may take again takes what R168 lets it take, and its mark is cleared when it can take
nothing. -/
def retakeStep (c : Nat) (s : State) : State :=
  match takeable c s with
  | some b =>
    match cmdOfCode (blockCode b) with
    | some cmd => takeCommand cmd c b s
    | none => setChan c { chan s c with retake := false } s
  | none => setChan c { chan s c with retake := false } s

/-! ### The loop -/

/-- Something that waits for nothing and can go on within the step. -/
inductive Job where
  | command (c : Nat)
  | undo (c : Nat)
  | retake (c : Nat)
  | request
  | head
  | poison (p : PendingPoison)
  | revocation
  deriving DecidableEq, Repr

/-- Whether a wait is over: its next step can be made. -/
def waitOver : Wait → Bool
  | .running => true
  | .landed _ => true
  | _ => false

/-- What channel c can go on with. -/
def channelJob (s : State) (c : Nat) : Option Job :=
  let ch := chan s c
  if ch.active.any (fun a => waitOver a.wait) then some (.command c)
  else if ch.undo.any (fun u => waitOver u.wait) then some (.undo c)
  else if ch.retake then some (.retake c)
  else none

/-- Whether the warm reset's revocation stage can go on. -/
def revocationRuns (s : State) : Bool :=
  match s.warm with
  | some { stage := .revocation _ _ w, .. } => waitOver w
  | _ => false

/-- What can go on outside the channels: the running request, the head request, the poisonings, and the warm
reset. -/
def restJob (s : State) : Option Job :=
  if s.running.any (fun r => waitOver r.wait) then some .request
  else if (unknownHead s).isSome then some .head
  else match s.poisonings.find? (fun p => waitOver p.wait) with
    | some p => some (.poison p)
    | none => if revocationRuns s then some .revocation else none

/-- What goes on next inside a step.  DESIGN CHOICE (assumption 10): channels in order, then the running
request, the head request, the poisonings, and the warm reset; the manual orders none of them. -/
def nextJob (s : State) : Option Job := (channelNumbers.findSome? (channelJob s)).or (restJob s)

/-- The step of a command that its landed fill has resumed is under way: it holds its line's way no longer than
itself (R43). -/
def stepBegins (c : Nat) (a : Active) (s : State) : State :=
  match a.wait with
  | .landed _ => goWait c .running s
  | _ => s

/-- One thing that goes on inside a step. -/
def runJob (j : Job) (s : State) : State :=
  match j with
  | .command c =>
    match (chan s c).active with
    | some a => chanStep c a (stepBegins c a s)
    | none => s
  | .undo c =>
    match (chan s c).undo with
    | some u => pendingUndoStep c u s
    | none => s
  | .retake c => retakeStep c s
  | .request => requestStep s
  | .head =>
    match unknownHead s with
    | some x => startRequest x s
    | none => s
  | .poison p => poisonStep p s
  | .revocation =>
    match s.warm with
    | some w =>
      match w.stage with
      | .revocation todo done _ => revocationStep w todo done s
      | _ => s
    | none => s

/-- Everything that waits for nothing goes on until it waits, up to a bound that no step of the part reaches
(assumption 4). -/
def runLoop : Nat → State → State
  | 0, s => s
  | n + 1, s =>
    match nextJob s with
    | none => s
    | some j => runLoop n (runJob j s)

/-- The commands, requests and poisonings go on until each waits. -/
def settle (s : State) : State := runLoop Config.stepFuel s

/-! ### The end of a step: what the ports offer next -/

/-- Whether the slot's packet is of a notice raised after a warm reset's clearing step, and traffic has not resumed
(R174).  The clearing step clears every notified mark, so the mark of the packet's source tells it from a packet that
the slot kept (R8, R190). -/
def noticeWaits (s : State) : Bool :=
  match s.warm, s.noticeSlot with
  | some w, some n => w.stage != .settling && (sourceOf s n.source).notified
  | _, _ => false

/-- The packet that the notice slot has for the transmit direction (R8).  DEDUCED (assumption 37): one placed after a
warm reset's clearing step is offered once traffic has resumed (R174). -/
def noticeReady (s : State) : Option Notice := if noticeWaits s then none else s.noticeSlot

/-- The upstream transmit direction offers its next packet (R6). -/
def placeTx (s : State) : State :=
  if !s.upLink || s.txOffered.isSome then s
  else
    let choice : Option TxSort :=
      match s.completions, noticeReady s with
      | [], none => none
      | _ :: _, none => some .completion
      | [], some _ => some .notice
      | _ :: _, some _ => if s.txLast = some .completion then some .notice else some .completion
    match choice with
    | some x => { s with txOffered := some x, txLast := some x }
    | none => s

/-- The end of a step: the notice slot, the upstream transmit direction and the downstream port each offer
what they have (R6, R11, R190). -/
def finish (s : State) : State := placeOffer (placeTx (placeNotice s))

end Sys2Proof.Machine
end

