-- ==== Sys2Proof/Machine/Events.lean ====
section
/-!
DEFINITION. The ends of the part's own requests (R12, R45 to R49, R125), the stages of the warm reset (R174)
and of the POWER_WARN flush (R202), and the expiries of timers (R12, R82, R84).
-/

namespace Sys2Proof.Machine

/-! ### Fills that land or fail (R48, R49, R51) -/

/-- A wait on a line's fill becomes another wait. -/
def wakeWait (line : Nat) (new : Wait) (w : Wait) : Wait := if w = .fill line then new else w

/-- The command steps that wait on a line resume (R48). -/
def resumeChannel (line : Nat) (s : State) (c : Nat) : State :=
  let ch := chan s c
  setChan c { ch with
    active := ch.active.map (fun a => { a with wait := wakeWait line (.landed line) a.wait })
    undo := ch.undo.map (fun u => { u with wait := wakeWait line (.landed line) u.wait }) } s

/-- Every command step, request and poisoning that waits on a line resumes (R48, R51). -/
def resumeLine (line : Nat) (s : State) : State :=
  let s := channelNumbers.foldl (resumeChannel line) s
  { s with
    running := s.running.map (fun r => { r with wait := wakeWait line (.landed line) r.wait })
    poisonings := s.poisonings.map (fun p => { p with wait := wakeWait line (.landed line) p.wait })
    warm := s.warm.map (fun w => { w with stage := match w.stage with
      | .revocation todo d x => .revocation todo d (wakeWait line (.landed line) x)
      | st => st }) }

/-- A fill lands if its data is there and its victim is clean or not valid (R45, R48). -/
def tryLand (serial : Nat) (s : State) : State :=
  match s.fills.find? (fun f => f.serial == serial) with
  | none => s
  | some f =>
    match landable s f with
    | some (w, d) => resumeLine f.line (installLine f w d s)
    | none => s

/-- The active command of a channel that waits on a failed fill stops, or retries after its change (R49,
R115, R132).  DESIGN CHOICE (assumption 40): the lookup that RETIRE makes afresh once another command's claim has been
released counts as its visit's own (R110), so its failed fill stops RETIRE with TAG_UNAVAILABLE; R128 has that result at
a visit's first lookup only. -/
def commandFillFailed (line : Nat) (s : State) (c : Nat) : State :=
  match (chan s c).active with
  | none => s
  | some a =>
    if a.wait ≠ .fill line then s
    else match a.phase, a.work with
      | .afterDrain, _ => goWait c .running s
      | .afterZero, _ => goWait c .running s
      | .undo, _ => goWait c (if fillsWithheld s then .suspended else .running) s
      | .removal, .retire r => retireRemovalFailed c r s
      | .clearing, .trackCollect _ => stopCollect c .tagUnavailable s
      | _, _ => stopWork c .tagUnavailable s

/-- The pending undo of a channel that waits on a failed fill retries (R132). -/
def undoFillFailed (line : Nat) (s : State) (c : Nat) : State :=
  match (chan s c).undo with
  | some u =>
    if u.wait = .fill line then
      setChan c { chan s c with undo := some { u with wait := if fillsWithheld s then .suspended else .running } } s
    else s
  | none => s

/-- Every command step that waited on a failed fill is told (R49): the running request finishes with
TAG_UNAVAILABLE (R140), a poisoning retries (R51), a removal of the warm reset leaves its entry (R151). -/
def stepsFailed (line : Nat) (s : State) : State :=
  let s := channelNumbers.foldl (commandFillFailed line) s
  let s : State := channelNumbers.foldl (undoFillFailed line) s
  let s : State := if s.running.any (fun r => r.wait == .fill line) then finishRequest .tagUnavailable none .absent s else s
  let s : State := { s with poisonings := s.poisonings.map (fun p => { p with wait := wakeWait line .running p.wait }) }
  match s.warm with
  | some { stage := .revocation _ _ w, .. } => if w = .fill line then revocationFailed s else s
  | _ => s

/-- A fill fails (R49): its waiters are answered TAG_UNAVAILABLE, its command steps stop or retry,
TAG_FETCH_FAILED is raised and the entry is freed with its claim on a way.  DESIGN CHOICE (assumption 36): a read of
the fill that still waits for a tag when its victim's write-back fails is not issued; the manual speaks of an issued
read only.  DESIGN CHOICE (assumption 39): the waiters, which R49 decides together, join the completion queue in the
order in which they came to the Miss Queue; R6 orders completions by their deciding alone. -/
def failFill (serial : Nat) (s : State) : State :=
  match s.fills.find? (fun f => f.serial == serial) with
  | none => s
  | some f =>
    let isMine := fun (m : Miss) => m.line == f.line && !m.released
    let waiters := s.missQueue.filter isMine
    let s := keepJobs (fun j => j != .fill serial f.line)
      { s with
        fills := s.fills.filter (fun x => x.serial != serial)
        missQueue := s.missQueue.filter (fun m => !isMine m) }
    let s := waiters.foldl (fun s m => answer m.request .tagUnavailable s) s
    stepsFailed f.line (raise .tagFetchFailed s)

/-- The read of a fill completes OK: its entry keeps the data and lands if it can (R48).  A fill that has
already failed has no entry, and the data is dropped. -/
def fillData (serial : Nat) (d : RecordRead × RecordRead × RecordRead × RecordRead) (s : State) : State :=
  tryLand serial
    { s with fills := s.fills.map (fun f => if f.serial = serial then { f with data := some d } else f) }

/-! ### The warm reset's stages (R174) -/

/-- A channel whose stopped command still waits for its undo, or for the poisoning in its place, keeps it as
its pending undo (R132); the command has stopped, and what its stop clears is cleared (R110, R111).  A pending undo of
an earlier warm reset that waits on a line no longer fetched fetches it afresh once traffic resumes (R174). -/
def keepUndo (s : State) (c : Nat) : State :=
  match (chan s c).active, s.warm with
  | some a, some w =>
    let poison := a.phase == .scrubFailed
    let s := cleanUp c a.work s
    setChan c { chan s c with
      active := none
      stop := false
      undo := some { granule := granuleAt a.work, work := a.work, poison := poison,
                     wait := if poison then .poison else .suspended } }
      { s with warm := some { w with stopped := w.stopped + 1 } }
  | _, _ =>
    setChan c { chan s c with
      undo := (chan s c).undo.map (fun u => { u with wait := suspendWait s u.wait }) } s

/-- The clearing step at one channel (R174). -/
def clearChannel (owner : Nat) (s : State) (c : Nat) : State :=
  setChan c { chan s c with control := [], work := [], ready := [], reserved := if c = owner then 1 else 0 } s

/-- The marks of every notice source are cleared (R174, R194). -/
def clearNoticeMarks (s : State) : State :=
  (List.range Config.noticeSources).foldl
    (fun s n => setSource n { sourceOf s n with pending := false, notified := false } s) s

/-- The clearing step (R174). -/
def clearingStep (w : WarmReset) (s : State) : State :=
  let count := fun (f : Channel → Nat) => (channelNumbers.map (fun c => f (chan s c))).sum
  let w := { w with
    discarded := count (fun ch => ch.control.length + ch.work.length)
    lost := count (fun ch => ch.ready.length)
    stage := .tagCache (beginWrites s) }
  let s := channelNumbers.foldl (clearChannel w.channel) s
  clearNoticeMarks { s with warm := some w, requests := [], results := [], log := [] }

/-- Every line that the warm reset has written back becomes not valid, and its revocation stage begins with
the entries that are REVOKING (R62, R151, R174). -/
def beginRevocation (w : WarmReset) (s : State) : State :=
  let todo := (s.grants.filter (fun p => p.2.state == .revoking)).map (fun p => (p.1, p.2.serial))
  { s with ways := s.ways.filter (fun p => p.2.dirty), warm := some { w with stage := .revocation todo false .running } }

/-- The write-back of the whole cache goes on, and the stage it belongs to ends with it: the POWER_WARN flush
in HALTED (R202), the warm reset's Tag Cache stage in its revocation stage (R62). -/
def writeBackStages (s : State) : State :=
  match s.flush, s.warm with
  | .writing x, _ =>
    let t := writeBackMore x.failed s
    if writeBackEnded x.failed t then { t with mode := .halted, flush := .done } else t
  | _, some w =>
    match w.stage with
    | .tagCache x =>
      let t := writeBackMore x.failed s
      if writeBackEnded x.failed t then beginRevocation w t else t
    | _ => s
  | _, none => s

/-- The warm reset's Tag Cache stage and the flush note the end of a line's write-back (R62, R202). -/
def noteWriteEnded (line : Nat) (ok : Bool) (s : State) : State :=
  { s with
    flush := match s.flush with
      | .writing x => .writing (noteEnd line ok x)
      | f => f
    warm := s.warm.map (fun w => { w with stage := match w.stage with
      | .tagCache x => .tagCache (noteEnd line ok x)
      | st => st }) }

/-- Whether the warm reset's settling stage has ended (R174). -/
def settled (s : State) : Bool :=
  match s.warm with
  | some { stage := .settling, .. } => settleCore s && s.fills.isEmpty && s.fillWaits.all (lineWithheld s)
  | _ => false

/-- The settling stage ends: the pending undos and poisonings are kept, the clearing step is made and the Tag
Cache stage begins (R174). -/
def afterSettling (s : State) : State :=
  let s := channelNumbers.foldl keepUndo (withholdLines s)
  match s.warm with
  | some w => settle (writeBackStages (clearingStep w s))
  | none => s

/-! ### Write-backs (R42, R45, R46) -/

/-- A write-back completes OK: the dirty mark is cleared if the line is unchanged since its issue, and a
changed victim is written back anew (R42, R45). -/
def writeBackOk (key line : Nat) (changed : Bool) (s : State) : State :=
  match tblGet s.ways key with
  | none => s
  | some w =>
    if changed then
      if s.fills.any (fun f => f.way.any (fun x => wayKey (cacheSet f.line) x == key)) then
        produceJob (.writeBack key line) s
      else s
    else { s with ways := tblPut s.ways key { w with dirty := false } }

/-- The fill whose claimed way is this one (R44). -/
def victimOf (s : State) (key : Nat) : Option Nat :=
  (s.fills.find? (fun f => f.way.any (fun x => wayKey (cacheSet f.line) x == key))).map (·.serial)

/-- A write-back has ended (R45, R46): the fill that waits on its victim lands or fails, and FLUSH_TAGS, the
warm reset or the flush goes on. -/
def writeBackDone (key line : Nat) (changed ok : Bool) (s : State) : State :=
  let s := noteWriteEnded line ok s
  let s := if ok then writeBackOk key line changed s else enterCause .tagWrite s
  let s := flushEnded line ok s
  let s := match victimOf s key with
    | some serial => if ok then tryLand serial s else failFill serial s
    | none => s
  writeBackStages s

/-! ### The ends of own requests (R11, R12) -/

/-- An own request has ended without a fill's data: its engine is told (R11, R12). -/
def jobEnded (o : Outstanding) (ok : Bool) (s : State) : State :=
  match o.job with
  | .fill serial _ => failFill serial s
  | .writeBack key line => writeBackDone key line o.changed ok s
  | .formatLine line => formatWriteEnded line ok s
  | .zeroLine u _ => zeroWriteEnded u ok s
  | .harvest c => harvestEnded c ok s

/-- A completion arrives for an own write of a class: its tag is freed and its engine acts on it (R11).  The
state is unchanged if no request of the class is outstanding under the tag. -/
def writeCompletion (cls : ReqClass) (tag : Nat) (status : DownStatus) (s : State) : Option State :=
  match outstandingAt s tag with
  | some o =>
    if jobClass o.job = cls ∧ cls ≠ .fill then
      some (settle (jobEnded o (status == .ok) (retireTag tag s)))
    else none
  | none => none

/-- A completion arrives for a fill read (R48, R49). -/
def fillCompletion (tag : Nat) (reply : FillReply) (s : State) : Option State :=
  match outstandingAt s tag with
  | some { job := .fill serial _, .. } =>
    let s := retireTag tag s
    match reply with
    | .records a b c d => some (settle (fillData serial (a, b, c, d) s))
    | .error => some (settle (failFill serial s))
  | _ => none

/-- An own request reaches its timeout: it is withdrawn if the expander had not taken it, its tag is held and
its engine is told that it failed (R11, R12). -/
def ownTimeout (tag : Nat) (s : State) : Option State :=
  match outstandingAt s tag with
  | some o =>
    let s := elapse (jobTimeout o.job - o.timer) s
    some (settle (jobEnded o false (holdTag tag (retireTag tag s))))
  | none => none

/-- A held tag is freed 1 ms after its request's timeout (R12). -/
def heldTagRelease (tag : Nat) (s : State) : Option State :=
  match s.heldTags.find? (fun h => h.tag == tag) with
  | some h => some (freeHeldTag tag (elapse (Config.holdLimit - h.timer) s))
  | none => none

/-- Whether a downstream tag is held by a request that is outstanding: an own request, or an In-Flight entry
that has not reached its orphan limit (R11, R84). -/
def tagOutstanding (s : State) (tag : Nat) : Bool :=
  (outstandingAt s tag).isSome ||
    match tblGet s.inFlight tag with
    | some e => !e.limitReached
    | none => false

/-- A completion whose tag is held after a timeout, or not held, is discarded (R11, R12). -/
def staleDiscard (tag : Nat) (s : State) : Option State :=
  if tagOutstanding s tag then none else some (freeHeldTag tag s)

/-! ### Timers of the In-Flight Table (R82, R84) -/

/-- An ORPHANED entry reaches 1 ms (R84). -/
def orphanLimit (i : Nat) (s : State) : Option State :=
  match tblGet s.inFlight i with
  | none => none
  | some e =>
    if !e.orphaned || e.limitReached then none
    else
      let s := elapse (Config.holdLimit - e.timer) s
      if !e.write || e.unformatted || warned s then some (freeEntry i s)
      else
        let s := { s with inFlight := tblPut s.inFlight i { e with timer := Config.holdLimit, limitReached := true } }
        some (settle (orderPoison e.granule .orphanWrite (.orphan i) s))

/-! ### Power warning (R176, R202) -/

/-- The poisoning ordered in place of a channel's pending undo is dropped with it (R165, R176). -/
def dropOrdered (c : Nat) (s : State) : State :=
  if (chan s c).undo.any (·.poison) then
    { s with poisonings := s.poisonings.filter (fun p => p.source != .scrub c) }
  else s

/-- An active work command is abandoned, without undo and without a response (R176, R202, R133): its drains
are withdrawn, its unit issues no further line, and its reservation and claim go.  A pending undo goes too, and so does
the poisoning that one is (R165); a poisoning that an active command's failed zeroing has ordered is no pending undo
and stays (R51, R202; DEDUCED, assumption 14). -/
def abandon (s : State) (c : Nat) : State :=
  let s := dropOrdered c (withdrawDrains (.group c) (withdrawDrains (.clearance c) (withdrawDrains (.command c) s)))
  let ch := chan s c
  let s := setChan c { ch with
    active := none, stop := false, undo := none, claim := none
    reserved := if ch.active.isSome then ch.reserved - 1 else ch.reserved } s
  haltUnitsOf c s

/-- Own writes that an abandoned command's engine has not issued are not issued (R38, R133). -/
def dropUnissued (s : State) : State :=
  keepJobs (fun j => jobClass j == .fill || jobClass j == .writeBack) s

/-- The four conditions for which the flush waits (R202): a freed entry is taken at once by the head of the wait list
(R47, R62), so the Fill Table is empty only when that list is (DEDUCED, assumption 24). -/
def quiesced (s : State) : Bool :=
  s.stage.isNone && s.missQueue.isEmpty && !anyForwarded s && s.fills.isEmpty && s.fillWaits.isEmpty

/-- The flush writes back every dirty line, when its four conditions hold (R202). -/
def flushGoesOn (s : State) : State :=
  if s.flush = .waiting ∧ quiesced s then writeBackStages { s with flush := .writing (beginWrites s) } else s

/-- The first POWER_WARN edge since cold reset (R202).  DEDUCED (assumption 14): the commands, the request and
the warm reset are abandoned in the step of the edge itself, which R202 and R176 put at their next step. -/
def powerEdge (s : State) : State :=
  let s := { withholdLines s with flush := .waiting, running := none, warm := none }
  let s := withdrawDrains .warmReset (withdrawDrains .request s)
  flushGoesOn (dropUnissued (channelNumbers.foldl abandon s))

end Sys2Proof.Machine
end

