-- ==== Sys2Proof/Machine/Check.lean ====
section
/-!
DEFINITION. The upstream port and the Check Engine (chapters 1 and 4): taking a request (R3, R7), the check's
ten steps (R64 to R73), the management path (R166, R167, R171, R177) and the domain request line (R138 to
R141).
-/

namespace Sys2Proof.Machine

/-! ### Taking a request (R3, R7, R63) -/

/-- Whether the Miss Queue holds a released entry (R50). -/
def hasReleased (s : State) : Bool := s.missQueue.any (·.released)

/-- Whether the upstream port takes an offered request: the Check Engine is ready for a new arrival and no
condition of R7 is in force. -/
def accepts (s : State) : Bool :=
  s.upLink && s.stage.isNone && !hasReleased s && decide (s.missQueue.length < Config.missEntries) &&
    s.warm.isNone && !flushing s

/-! ### The domain request line (R138, R139) -/

/-- The line address of the domain request line (R138). -/
def requestLine (s : State) : Nat := apertureBase s + 0x8000

/-- A request is taken into the Domain Request Unit: it joins the queue and its requester's last-result record
becomes PENDING (R139).  A head of unknown kind finishes in the same step (R140). -/
def takeGuestRequest (x : GuestRequest) (s : State) : State :=
  settle (setResult x.requester { kind := x.kind, result := .pending, granule := x.granule, grant := none, query := .absent }
    { s with requests := s.requests ++ [x] })

/-- A guest's write to the domain request line in OPERATIONAL mode by a RUNNING domain (R139). -/
def guestWrite (r : Request) (s : State) : State :=
  let x := decodeGuestRequest r.domain.val r.data
  if r.kind = .writeMasked ∨ x.kind = 0 ∨ s.requests.any (fun q => q.requester == x.requester) ∨
      Config.requestQueue ≤ s.requests.length then
    answer r .refused s
  else decideFor r .ok 0 (takeGuestRequest x s)

/-- The answer of the domain request line to a guest (R138). -/
def guestLine (r : Request) (s : State) : State :=
  match s.mode with
  | .halted => answer r .halted s
  | .unformatted => answer r .stopped s
  | .formatting => answer r .stopped s
  | .contained => answer r .blocked s
  | .operational =>
    match (dom s r.domain.val).state with
    | .free =>
      answer r .blocked
        (violate r.domain.val (decide (r.kind ≠ .read)) (requestLine s) .unknownDomain none s)
    | .preparing => answer r .stopped s
    | .paused => answer r .stopped s
    | .retiring => answer r .stopped s
    | .fenced => answer r .blocked s
    | .root => answer r .refused s
    | .running =>
      if r.kind = .read then decideFor r .ok (encodeLastResult (resultOf s r.domain.val)) s else guestWrite r s

/-! ### The management path (R166, R167, R171, R177) -/

/-- The lines of the aperture with a behaviour of their own (R166). -/
inductive ApertureLine where
  | submit (c : Nat)
  | response (c : Nat)
  | request
  | identity
  | other
  deriving DecidableEq, Repr

/-- The line at an aperture offset (R166). -/
def apertureLine (offset : Nat) : ApertureLine :=
  match channelNumbers.find? (fun c => offset == 0x1000 * c) with
  | some c => .submit c
  | none =>
    match channelNumbers.find? (fun c => offset == 0x1000 * c + 0x40) with
    | some c => .response c
    | none => if offset = 0x8000 then .request else if offset = 0xF000 then .identity else .other

/-- The response to a block whose code names no command (R167). -/
def unknownResponse (c : Nat) (b : Line) : Response := mkResponse b c .unknownCommand {}

/-- A submission to channel c (R167). -/
def submit (r : Request) (c : Nat) (s : State) : State :=
  let b := r.data
  let ch := chan s c
  match cmdOfCode (blockCode b) with
  | none =>
    if slotFree ch then decideFor r .ok 0 (pushResponse c (unknownResponse c b) s) else answer r .refused s
  | some cmd =>
    if isWork cmd then
      if ch.work.length < Config.queueDepth then
        decideFor r .ok 0 (setChan c { ch with work := ch.work ++ [b] } s)
      else answer r .refused s
    else if ch.control.length < Config.queueDepth then
      decideFor r .ok 0 (setChan c { ch with control := ch.control ++ [b] } s)
    else answer r .refused s

/-- A read of channel c's response line (R171): the oldest response leaves the ready list, and the channel may
take again in the same step. -/
def readResponse (r : Request) (c : Nat) (s : State) : State :=
  let ch := chan s c
  match ch.ready with
  | [] => decideFor r .ok (encodeResponse (emptyResponse c)) s
  | x :: t => settle (decideFor r .ok (encodeResponse x) (setChan c { ch with ready := t, retake := true } s))

/-- The management path answers a root access by its line and kind (R166). -/
def management (r : Request) (offset : Nat) (s : State) : State :=
  match apertureLine offset, r.kind with
  | .submit c, .write => submit r c s
  | .response c, .read => readResponse r c s
  | .identity, .read => decideFor r .ok (identityLine s) s
  | _, _ => answer r .refused s

/-! ### The check (R64 to R75) -/

/-- A refusal that is logged: the violation, then the answer (R74, R75). -/
def refuseLogged (r : Request) (reason : Reason) (seen : Option TagRecord) (status : Status) (s : State) : State :=
  answer r status
    (violate r.domain.val (decide (r.kind ≠ .read)) (lineAddress r.address) reason seen s)

/-- What step 9 decides of a record (R72, R73): `none` permits. -/
def recordVerdict (r : Request) (g : Nat) (rec : TagRecord) (s : State) : Option Reason :=
  let d := r.domain.val
  match rec.state with
  | .gOpen => if d = 0 then none else some .notOwner
  | .gClearingIn => some .clearing
  | .gClearingOut => some .clearing
  | .gPoisoned => some .poisoned
  | .gReserved => some .tagRegion
  | .gPrivate =>
    if d ≠ 0 ∧ rec.owner = some d then none
    else if rec.count = 0 then some .notOwner
    else match grantFor s g d with
      | none => some .notOwner
      | some (_, e) =>
        match e.state with
        | .active => if r.kind = .read ∨ e.readWrite then none else some .grantMode
        | .offered => some .grantInactive
        | .revoking => some .grantInactive

/-- Step 9 on a hit, and step 10 (R72 to R78). -/
def decideByRecord (r : Request) (g : Nat) (rec : TagRecord) (s : State) : State :=
  match recordVerdict r g rec s with
  | some reason =>
    refuseLogged r reason (some rec) (if reason = .poisoned then .poisoned else .blocked) s
  | none =>
    let s := if r.kind = .read then s else markWrite g rec s
    forward { request := r, granule := g, unformatted := false } s

/-- Step 9 (R71): a hit is decided at once; a miss goes to the end of the Miss Queue and joins or starts its
line's fill. -/
def checkRecordStep (r : Request) (g : Nat) (s : State) : State :=
  match lookup g s with
  | some (rec, t) => decideByRecord r g rec t
  | none =>
    joinFill (tagLineOf g)
      { s with missQueue := s.missQueue ++ [{ request := r, granule := g, line := tagLineOf g, released := false }] }

/-- The Region Table entry, SET or LOCKED_DOWN, that covers a granule (R70). -/
def coveringRegion (s : State) (g : Nat) : Option Region :=
  ((List.range Config.regionEntries).map (regionOf s)).find? (fun e =>
    (e.state == .set || e.state == .lockedDown) && decide (e.first ≤ g ∧ g < e.first + e.count))

/-- Steps 7 to 10 (R69 to R73). -/
def checkGranule (r : Request) (g : Nat) (s : State) : State :=
  if inTagRegion s g then refuseLogged r .tagRegion none .blocked s
  else match coveringRegion s g with
    | none => checkRecordStep r g s
    | some e =>
      if r.domain = 0 ∧ !e.noAccess then forward { request := r, granule := g, unformatted := false } s
      else refuseLogged r .region none .blocked s

/-- Step 6 for a guest (R68). -/
def checkDomain (r : Request) (g : Nat) (s : State) : State :=
  if r.domain = 0 then checkGranule r g s
  else match (dom s r.domain.val).state with
    | .running => checkGranule r g s
    | .free => refuseLogged r .unknownDomain none .blocked s
    | .fenced => answer r .blocked s
    | .preparing => answer r .stopped s
    | .paused => answer r .stopped s
    | .retiring => answer r .stopped s
    | .root => checkGranule r g s

/-- Steps 4 to 10 for a governed address (R67). -/
def checkGoverned (r : Request) (g : Nat) (s : State) : State :=
  match s.mode with
  | .halted => answer r .halted s
  | .unformatted =>
    if r.domain = 0 then forward { request := r, granule := g, unformatted := true } s
    else answer r .stopped s
  | .formatting =>
    if r.domain ≠ 0 then answer r .stopped s
    else if inTagRegion s g then refuseLogged r .tagRegion none .blocked s
    else forward { request := r, granule := g, unformatted := true } s
  | .contained => if r.domain = 0 then checkDomain r g s else answer r .blocked s
  | .operational => checkDomain r g s

/-- Step 1 (R65). -/
def checkAperture (r : Request) (offset : Nat) (s : State) : State :=
  if s.mode = .halted then answer r .halted s
  else if r.domain = 0 then management r offset s
  else if apertureLine offset = .request then guestLine r s
  else refuseLogged r .management none .blocked s

/-- The check, from step 1 (R64): of an arrival, and again of a released Miss Queue entry. -/
def check (r : Request) (s : State) : State :=
  match classify s r.address with
  | .aperture offset => checkAperture r offset s
  | .outside => if s.mode = .halted then answer r .halted s else answer r .addressError s
  | .governed g => checkGoverned r g s

/-- A REFUSED completion for a duplicate tag (R3). -/
def refuseDuplicate (r : Request) (s : State) : State :=
  { s with completions := s.completions ++
      [{ tag := r.tag.val, status := .refused, data := if r.kind = .read then some 0 else none, duplicate := true }] }

/-- A request is taken (R3): a duplicate tag is refused without a check, any other tag comes into use. -/
def takeRequest (r : Request) (s : State) : State :=
  if s.tagsInUse.contains r.tag.val then refuseDuplicate r s
  else check r { s with tagsInUse := s.tagsInUse ++ [r.tag.val] }

/-- A request offered while the port withholds acceptance stays on the link (R7). -/
def offerRequest (r : Request) (s : State) : Option State :=
  if accepts s then some (takeRequest r s) else none

/-- With the stage empty, the oldest released entry is taken and checked again (R50, R63, R71). -/
def presentReleased (s : State) : Option State :=
  match s.stage, s.missQueue.find? (·.released) with
  | none, some m => some (check m.request { s with missQueue := s.missQueue.erase m })
  | _, _ => none

end Sys2Proof.Machine
end

