-- ==== Sys2Proof/Machine/LinkRows.lean ====
section
/-!
DEFINITION. The rows of the two ports (chapter 1): cold reset, requests, completions and notices upstream, and
offers, tags, completions and timers downstream.
-/

namespace Sys2Proof.Machine

/-- The outcome of a row: the step ends with the issue of the requests that it has produced and with what the ports
offer next, and a row whose step is not possible in the state leaves it unchanged (assumption 5). -/
def answerStep (s : State) (o : Option State) : Host.Outcome State Fault Refusal :=
  match o with
  | some t => .next (finish (issueProduced s t))
  | none => .next s

/-! ### Reset and the upstream port -/

/-- COLD_RESET (R15, R18 to R20). -/
def execColdReset (spanBase : Fin 1024) (spanSize : Fin 8) (s : State) : Host.Outcome State Fault Refusal :=
  .next { coldState spanBase.val spanSize.val s.faultLine s.warnLine with pending := s.pending }

/-- REQUEST_TAKEN (R3). -/
def execRequestTaken (r : Request) (s : State) : Host.Outcome State Fault Refusal :=
  answerStep s (offerRequest r s)

/-- PRESENT_RELEASED_WAITER (R50, R63). -/
def execPresentReleasedWaiter (s : State) : Host.Outcome State Fault Refusal := answerStep s (presentReleased s)

/-- The held transaction takes a free entry, if there is one (R77). -/
def heldForward (s : State) : Option State :=
  if s.stage.isSome && (freeInFlight s).isSome then some (forwardHeld s) else none

/-- HELD_TRANSACTION_FORWARD (R77). -/
def execHeldTransactionForward (s : State) : Host.Outcome State Fault Refusal := answerStep s (heldForward s)

/-- The socket takes the offered completion: its tag leaves use, unless it is a duplicate's REFUSED (R5, R6). -/
def completionTaken (s : State) : Option State :=
  match s.txOffered, s.completions with
  | some .completion, x :: t =>
    some { s with
      completions := t
      txOffered := none
      tagsInUse := if x.duplicate then s.tagsInUse else s.tagsInUse.filter (· != x.tag) }
  | _, _ => none

/-- COMPLETION_TAKEN (R5). -/
def execCompletionTaken (s : State) : Host.Outcome State Fault Refusal := answerStep s (completionTaken s)

/-- The socket takes the offered notice packet: the slot becomes empty (R8). -/
def noticeTaken (s : State) : Option State :=
  match s.txOffered, s.noticeSlot with
  | some .notice, some _ => some { s with noticeSlot := none, txOffered := none }
  | _, _ => none

/-- NOTICE_PACKET_TAKEN (R8, R190). -/
def execNoticePacketTaken (s : State) : Host.Outcome State Fault Refusal := answerStep s (noticeTaken s)

/-- The upstream link goes down (R13): the obligations to the socket are dropped.  The fills that discarded
transactions waited on continue, and the wait list is kept (R50, R62). -/
def linkDown (s : State) : State :=
  mapDrains (fun d => { d with held := false })
    { s with
      upLink := false, tagsInUse := [], completions := [], missQueue := [], stage := none, txOffered := none
      inFlight := s.inFlight.map (fun p => (p.1, { p.2 with suppress := true })) }

/-- UPSTREAM_LINK_DOWN (R13). -/
def execUpstreamLinkDown (s : State) : Host.Outcome State Fault Refusal := .next (finish (linkDown s))

/-- UPSTREAM_LINK_UP (R13, R6): the alternation of completions and notices starts afresh. -/
def execUpstreamLinkUp (s : State) : Host.Outcome State Fault Refusal :=
  answerStep s (if s.upLink then none else some { s with upLink := true, txLast := none })

/-! ### The downstream port -/

/-- DOWNSTREAM_LINK_DOWN (R14): requests keep their tags and timeouts; nothing is offered. -/
def execDownstreamLinkDown (s : State) : Host.Outcome State Fault Refusal :=
  .next (finish { s with downLink := false, downOffered := none })

/-- DOWNSTREAM_LINK_UP (R14): the requests not yet taken are offered again in the order of R11. -/
def execDownstreamLinkUp (s : State) : Host.Outcome State Fault Refusal := .next (finish { s with downLink := true })

/-- DOWNSTREAM_OFFER_TAKEN (R11). -/
def execDownstreamOfferTaken (s : State) : Host.Outcome State Fault Refusal :=
  answerStep s (if s.downLink && s.downOffered.isSome then some (takeOffer s) else none)

/-- DOWNSTREAM_TAG_GRANT (R10). -/
def execDownstreamTagGrant (cls : ReqClass) (s : State) : Host.Outcome State Fault Refusal :=
  answerStep s (some (grantTag cls s))

/-- FORWARDED_COMPLETION (R81, R83): a completion for an In-Flight entry. -/
def execForwardedCompletion (tag : Fin 256) (status : DownStatus) (data : Line) (s : State) :
    Host.Outcome State Fault Refusal :=
  answerStep s (some (inFlightCompletion tag.val status data s))

/-- STALE_COMPLETION_DISCARD (R11, R12). -/
def execStaleCompletionDiscard (tag : Fin 1024) (s : State) : Host.Outcome State Fault Refusal :=
  answerStep s (staleDiscard tag.val s)

/-- FORWARDED_TIMEOUT (R82). -/
def execForwardedTimeout (tag : Fin 256) (s : State) : Host.Outcome State Fault Refusal :=
  answerStep s (some (inFlightTimeout tag.val s))

/-- ORPHAN_LIMIT (R84). -/
def execOrphanLimit (tag : Fin 256) (s : State) : Host.Outcome State Fault Refusal :=
  answerStep s (orphanLimit tag.val s)

/-- OWN_REQUEST_TIMEOUT (R12). -/
def execOwnRequestTimeout (tag : Fin 1024) (s : State) : Host.Outcome State Fault Refusal :=
  answerStep s (ownTimeout tag.val s)

/-- HELD_TAG_RELEASE (R12). -/
def execHeldTagRelease (tag : Fin 1024) (s : State) : Host.Outcome State Fault Refusal :=
  answerStep s (heldTagRelease tag.val s)

end Sys2Proof.Machine
end

