-- ==== Sys2Proof/Machine/ApertureRows.lean ====
section
/-!
DEFINITION. The rows of the aperture and of the Domain Request Unit (chapters 7 and 9): accesses to its lines and
the guest requests.
-/

namespace Sys2Proof.Machine

/-! ### Aperture accesses (R166, R138) -/

/-- A request to the aperture line at an offset. -/
def apertureRequest (s : State) (kind : AccessKind) (tag : Fin 1024) (domain : Fin 512) (offset : Nat)
    (mask : ByteMask) (data : Line) : Request :=
  { kind := kind, tag := tag, domain := domain, address := BitVec.ofNat 46 (apertureBase s + offset), mask := mask
    data := data }

/-- SUBMISSION (R167): a root WRITE to channel c's submit line. -/
def execSubmission (tag : Fin 1024) (c : Fin 4) (block : Line) (s : State) : Host.Outcome State Fault Refusal :=
  answerStep s (offerRequest (apertureRequest s .write tag 0 (0x1000 * c.val) 0 block) s)

/-- RESPONSE_READ (R171): a root READ of channel c's response line. -/
def execResponseRead (tag : Fin 1024) (c : Fin 4) (s : State) : Host.Outcome State Fault Refusal :=
  answerStep s (offerRequest (apertureRequest s .read tag 0 (0x1000 * c.val + 0x40) 0 0) s)

/-- Whether R166 gives a root access to an aperture line a behaviour other than REFUSED. -/
def hasBehaviour (kind : AccessKind) (offset : Nat) : Bool :=
  match apertureLine offset, kind with
  | .submit _, .write => true
  | .response _, .read => true
  | .identity, .read => true
  | _, _ => false

/-- APERTURE_OTHER_WRITE (R166): a root access that has no behaviour of its own. -/
def execApertureOtherWrite (tag : Fin 1024) (kind : AccessKind) (line : Fin 1024) (mask : ByteMask) (data : Line)
    (s : State) : Host.Outcome State Fault Refusal :=
  answerStep s
    (if hasBehaviour kind (64 * line.val) then none
     else offerRequest (apertureRequest s kind tag 0 (64 * line.val) mask data) s)

/-- DOMAIN_REQUEST_WRITE (R139): a guest's write to the domain request line. -/
def execDomainRequestWrite (tag : Fin 1024) (domain : Fin 512) (masked : Bool) (mask : ByteMask) (data : Line)
    (s : State) : Host.Outcome State Fault Refusal :=
  answerStep s
    (if domain = 0 then none
     else offerRequest
       (apertureRequest s (if masked then .writeMasked else .write) tag domain 0x8000 mask data) s)

/-- DOMAIN_REQUEST_READ (R138): a guest's read of the domain request line. -/
def execDomainRequestRead (tag : Fin 1024) (domain : Fin 512) (s : State) : Host.Outcome State Fault Refusal :=
  answerStep s
    (if domain = 0 then none else offerRequest (apertureRequest s .read tag domain 0x8000 0 0) s)

/-! ### Guest requests (R140, R142 to R145) -/

/-- The Domain Request Unit starts its head request if it is of this kind, and runs it until it waits or
finishes (R140). -/
def startHead (k : GuestKind) (s : State) : Option State :=
  match headRequest s with
  | some x => if guestKindOf x.kind = some k then some (settle (startRequest x s)) else none
  | none => none

/-- OFFER (R142). -/
def execOffer (s : State) : Host.Outcome State Fault Refusal := answerStep s (startHead .offer s)

/-- WITHDRAW (R143). -/
def execWithdraw (s : State) : Host.Outcome State Fault Refusal := answerStep s (startHead .withdraw s)

/-- PIN (R144). -/
def execPin (s : State) : Host.Outcome State Fault Refusal := answerStep s (startHead .pin s)

/-- UNPIN (R144). -/
def execUnpin (s : State) : Host.Outcome State Fault Refusal := answerStep s (startHead .unpin s)

/-- QUERY (R145). -/
def execQuery (s : State) : Host.Outcome State Fault Refusal := answerStep s (startHead .query s)

end Sys2Proof.Machine
end

