-- ==== Sys2Proof/Machine/CommandRows.lean ====
section
/-!
DEFINITION. The rows of the management commands (chapter 9): the channel takes the command if R168 lets it take
it now, and the command starts in the same step (R169).
-/

namespace Sys2Proof.Machine

/-- A channel takes the named command and lets what follows in the step go on (R168, R170). -/
def takeRun (cmd : Cmd) (c : Nat) (s : State) : Option State :=
  (namedTake cmd c s).map (fun b => settle (takeCommand cmd c b s))

/-- A channel takes the named control command, which completes in its step (R168, R170). -/
def takeControl (cmd : Cmd) (c : Nat) (s : State) : Option State :=
  (namedTake cmd c s).map (fun b => takeCommand cmd c b s)

/-! ### Work commands -/

/-- FORMAT (R33). -/
def execFormat (c : Fin 4) (s : State) : Host.Outcome State Fault Refusal :=
  answerStep s (takeRun .format c.val s)

/-- ASSIGN (R116). -/
def execAssign (c : Fin 4) (s : State) : Host.Outcome State Fault Refusal :=
  answerStep s (takeRun .assign c.val s)

/-- RELEASE (R119). -/
def execRelease (c : Fin 4) (s : State) : Host.Outcome State Fault Refusal :=
  answerStep s (takeRun .release c.val s)

/-- RESTORE (R123). -/
def execRestore (c : Fin 4) (s : State) : Host.Outcome State Fault Refusal :=
  answerStep s (takeRun .restore c.val s)

/-- QUERY_GRANULES (R124). -/
def execQueryGranules (c : Fin 4) (s : State) : Host.Outcome State Fault Refusal :=
  answerStep s (takeRun .queryGranules c.val s)

/-- RETIRE (R103). -/
def execRetire (c : Fin 4) (s : State) : Host.Outcome State Fault Refusal :=
  answerStep s (takeRun .retire c.val s)

/-- REVOKE_GRANT (R147). -/
def execRevokeGrant (c : Fin 4) (s : State) : Host.Outcome State Fault Refusal :=
  answerStep s (takeRun .revokeGrant c.val s)

/-- TRACK_START (R153). -/
def execTrackStart (c : Fin 4) (s : State) : Host.Outcome State Fault Refusal :=
  answerStep s (takeRun .trackStart c.val s)

/-- TRACK_COLLECT (R158). -/
def execTrackCollect (c : Fin 4) (s : State) : Host.Outcome State Fault Refusal :=
  answerStep s (takeRun .trackCollect c.val s)

/-- FLUSH_TAGS (R60). -/
def execFlushTags (c : Fin 4) (s : State) : Host.Outcome State Fault Refusal :=
  answerStep s (takeRun .flushTags c.val s)

/-- REGION_SET (R196). -/
def execRegionSet (c : Fin 4) (s : State) : Host.Outcome State Fault Refusal :=
  answerStep s (takeRun .regionSet c.val s)

/-! ### Control commands -/

/-- CREATE (R91). -/
def execCreate (c : Fin 4) (s : State) : Host.Outcome State Fault Refusal :=
  answerStep s (takeControl .create c.val s)

/-- START (R92). -/
def execStart (c : Fin 4) (s : State) : Host.Outcome State Fault Refusal :=
  answerStep s (takeControl .start c.val s)

/-- PAUSE (R92). -/
def execPause (c : Fin 4) (s : State) : Host.Outcome State Fault Refusal :=
  answerStep s (takeControl .pause c.val s)

/-- RESUME (R92). -/
def execResume (c : Fin 4) (s : State) : Host.Outcome State Fault Refusal :=
  answerStep s (takeControl .resume c.val s)

/-- UNFENCE (R92). -/
def execUnfence (c : Fin 4) (s : State) : Host.Outcome State Fault Refusal :=
  answerStep s (takeControl .unfence c.val s)

/-- SET_QUOTA (R93). -/
def execSetQuota (c : Fin 4) (s : State) : Host.Outcome State Fault Refusal :=
  answerStep s (takeControl .setQuota c.val s)

/-- SET_FENCE (R94). -/
def execSetFence (c : Fin 4) (s : State) : Host.Outcome State Fault Refusal :=
  answerStep s (takeControl .setFence c.val s)

/-- CLEAR_DOMAIN_COUNTERS (R95). -/
def execClearDomainCounters (c : Fin 4) (s : State) : Host.Outcome State Fault Refusal :=
  answerStep s (takeControl .clearDomainCounters c.val s)

/-- DOMAIN_STATUS (R96). -/
def execDomainStatus (c : Fin 4) (s : State) : Host.Outcome State Fault Refusal :=
  answerStep s (takeControl .domainStatus c.val s)

/-- ACTIVATE_GRANT (R146). -/
def execActivateGrant (c : Fin 4) (s : State) : Host.Outcome State Fault Refusal :=
  answerStep s (takeControl .activateGrant c.val s)

/-- GRANT_READ (R148). -/
def execGrantRead (c : Fin 4) (s : State) : Host.Outcome State Fault Refusal :=
  answerStep s (takeControl .grantRead c.val s)

/-- TRACK_STOP (R162). -/
def execTrackStop (c : Fin 4) (s : State) : Host.Outcome State Fault Refusal :=
  answerStep s (takeRun .trackStop c.val s)

/-- TRACK_STATUS (R163). -/
def execTrackStatus (c : Fin 4) (s : State) : Host.Outcome State Fault Refusal :=
  answerStep s (takeControl .trackStatus c.val s)

/-- VIOLATION_POP (R187). -/
def execViolationPop (c : Fin 4) (s : State) : Host.Outcome State Fault Refusal :=
  answerStep s (takeControl .violationPop c.val s)

/-- NOTICE_CONFIG (R191). -/
def execNoticeConfig (c : Fin 4) (s : State) : Host.Outcome State Fault Refusal :=
  answerStep s (takeControl .noticeConfig c.val s)

/-- NOTICE_CLEAR (R192). -/
def execNoticeClear (c : Fin 4) (s : State) : Host.Outcome State Fault Refusal :=
  answerStep s (takeControl .noticeClear c.val s)

/-- NOTICE_STATUS (R193). -/
def execNoticeStatus (c : Fin 4) (s : State) : Host.Outcome State Fault Refusal :=
  answerStep s (takeControl .noticeStatus c.val s)

/-- REGION_CLEAR (R197). -/
def execRegionClear (c : Fin 4) (s : State) : Host.Outcome State Fault Refusal :=
  answerStep s (takeControl .regionClear c.val s)

/-- REGION_LOCKDOWN (R197). -/
def execRegionLockdown (c : Fin 4) (s : State) : Host.Outcome State Fault Refusal :=
  answerStep s (takeControl .regionLockdown c.val s)

/-- FREEZE (R197). -/
def execFreeze (c : Fin 4) (s : State) : Host.Outcome State Fault Refusal :=
  answerStep s (takeControl .freeze c.val s)

/-- SET_FAULT_POLICY (R201). -/
def execSetFaultPolicy (c : Fin 4) (s : State) : Host.Outcome State Fault Refusal :=
  answerStep s (takeControl .setFaultPolicy c.val s)

/-- CONTAIN (R199). -/
def execContain (c : Fin 4) (s : State) : Host.Outcome State Fault Refusal :=
  answerStep s (takeControl .contain c.val s)

/-- RESUME_PART (R200). -/
def execResumePart (c : Fin 4) (s : State) : Host.Outcome State Fault Refusal :=
  answerStep s (takeControl .resumePart c.val s)

/-- ACK_INTEGRITY (R58). -/
def execAckIntegrity (c : Fin 4) (s : State) : Host.Outcome State Fault Refusal :=
  answerStep s (takeControl .ackIntegrity c.val s)

/-- CLEAR_INTEGRITY_COUNT (R53). -/
def execClearIntegrityCount (c : Fin 4) (s : State) : Host.Outcome State Fault Refusal :=
  answerStep s (takeControl .clearIntegrityCount c.val s)

/-- SET_CORRECTED_LIMIT (R53). -/
def execSetCorrectedLimit (c : Fin 4) (s : State) : Host.Outcome State Fault Refusal :=
  answerStep s (takeControl .setCorrectedLimit c.val s)

/-- POISON_READ (R57). -/
def execPoisonRead (c : Fin 4) (s : State) : Host.Outcome State Fault Refusal :=
  answerStep s (takeControl .poisonRead c.val s)

/-- PART_STATUS (R203). -/
def execPartStatus (c : Fin 4) (s : State) : Host.Outcome State Fault Refusal :=
  answerStep s (takeControl .partStatus c.val s)

/-- ABORT (R172). -/
def execAbort (c : Fin 4) (s : State) : Host.Outcome State Fault Refusal :=
  answerStep s (takeRun .abort c.val s)

/-- RESET_ENGINES (R173). -/
def execResetEngines (c : Fin 4) (s : State) : Host.Outcome State Fault Refusal :=
  answerStep s (takeRun .resetEngines c.val s)

end Sys2Proof.Machine
end

