-- ==== Sys2Proof/Machine/EngineRows.lean ====
section
/-!
DEFINITION. The rows of the part's engines: fills, write-backs, FORMAT, the Scrub Units, the drains that finish,
revocation and harvesting (chapters 3 to 8).
-/

namespace Sys2Proof.Machine

/-! ### Fills and write-backs (chapter 3) -/

/-- FILL_READ_COMPLETION (R48, R49). -/
def execFillReadCompletion (tag : Fin 1024) (reply : FillReply) (s : State) : Host.Outcome State Fault Refusal :=
  answerStep s (fillCompletion tag.val reply s)

/-- The fill of a set that was started first among those without a way claims a way that is not in use, and
lands if it can (R44, R48). -/
def fillClaims (set way : Nat) (s : State) : Option State :=
  match s.fills.find? (waitsForWay set) with
  | some f => if wayInUse s (wayKey set way) then none else some (settle (tryLand f.serial (claimFor f.serial set way s)))
  | none => none

/-- FILL_CLAIMS_WAY (R44). -/
def execFillClaimsWay (set : Fin 256) (way : Fin 8) (s : State) : Host.Outcome State Fault Refusal :=
  answerStep s (fillClaims set.val way.val s)

/-- The head of the wait list takes a free Fill Table entry with its waiters (R47); a line withheld while the warm
reset settles is passed over (R174). -/
def waitListStart (s : State) : Option State :=
  match s.fillWaits.find? (fun l => !lineWithheld s l) with
  | some l =>
    if s.fills.length < Config.fillEntries then some (startFill l { s with fillWaits := s.fillWaits.erase l }) else none
  | none => none

/-- FILL_WAIT_LIST_START (R47). -/
def execFillWaitListStart (s : State) : Host.Outcome State Fault Refusal := answerStep s (waitListStart s)

/-- WRITE_BACK_COMPLETION (R45, R46). -/
def execWriteBackCompletion (tag : Fin 1024) (status : DownStatus) (s : State) : Host.Outcome State Fault Refusal :=
  answerStep s (writeCompletion .writeBack tag.val status s)

/-! ### FORMAT (chapter 2) -/

/-- FORMAT_WRITE_COMPLETION (R34 to R37). -/
def execFormatWriteCompletion (tag : Fin 1024) (status : DownStatus) (s : State) : Host.Outcome State Fault Refusal :=
  answerStep s (writeCompletion .formatWrite tag.val status s)

/-- The active command of a channel, if it waits on a drain in this phase and its drains have finished. -/
def drainDone (c : Nat) (p : Phase) (u : DrainUser) (s : State) : Option Work :=
  match (chan s c).active with
  | some a => if a.phase = p ∧ a.wait = .drain ∧ drained s u then some a.work else none
  | none => none

/-- FORMAT's drain has finished: it begins its writes (R34). -/
def formatDrained (c : Nat) (s : State) : Option State :=
  match drainDone c .drain (.command c) s with
  | some (.format _ _ _) => some (settle (goPhase c .writes .running s))
  | _ => none

/-- FORMAT_DRAIN_DONE (R34). -/
def execFormatDrainDone (c : Fin 4) (s : State) : Host.Outcome State Fault Refusal :=
  answerStep s (formatDrained c.val s)

/-! ### Granule operations and scrubbing (chapter 6) -/

/-- ZERO_WRITE_COMPLETION (R125, R127). -/
def execZeroWriteCompletion (tag : Fin 1024) (status : DownStatus) (s : State) : Host.Outcome State Fault Refusal :=
  answerStep s (writeCompletion .zeroWrite tag.val status s)

/-- An IDLE unit is granted to the next waiting channel (R126). -/
def unitGrant (s : State) : Option State :=
  match idleUnitNumber s, nextServed s with
  | some u, some c => some (grantUnit u c s)
  | _, _ => none

/-- SCRUB_UNIT_GRANT (R126). -/
def execScrubUnitGrant (s : State) : Host.Outcome State Fault Refusal := answerStep s (unitGrant s)

/-- The drain of a granule operation or of a RETIRE visit has finished (R115, R107). -/
def granuleDrained (c : Nat) (s : State) : Option State :=
  match drainDone c .drain (.command c) s with
  | some (.format _ _ _) => none
  | some (.revoke _) => none
  | some _ => some (settle (goPhase c .afterDrain .running s))
  | none => none

/-- GRANULE_DRAIN_DONE (R115). -/
def execGranuleDrainDone (c : Fin 4) (s : State) : Host.Outcome State Fault Refusal :=
  answerStep s (granuleDrained c.val s)

/-- RETIRE's clearance drains have all finished: it removes the collected entries (R105). -/
def clearanceDrained (c : Nat) (s : State) : Option State :=
  match drainDone c .clearance (.clearance c) s with
  | some _ => some (settle (goPhase c .removal .running s))
  | none => none

/-- RETIRE_CLEARANCE_DRAINS_DONE (R105). -/
def execRetireClearanceDrainsDone (c : Fin 4) (s : State) : Host.Outcome State Fault Refusal :=
  answerStep s (clearanceDrained c.val s)

/-- A RETIRE that waits at a granule under another command's claim looks it up afresh once the claim is
released (R128). -/
def claimReleased (c : Nat) (s : State) : Option State :=
  match (chan s c).active with
  | some a =>
    match a.wait with
    | .claim g => if claimed s g then none else some (settle (goWait c .running s))
    | _ => none
  | none => none

/-- RETIRE_CLAIM_RELEASED (R128). -/
def execRetireClaimReleased (c : Fin 4) (s : State) : Host.Outcome State Fault Refusal :=
  answerStep s (claimReleased c.val s)

/-! ### Revocation (chapter 7) -/

/-- A remover's drain has finished: it makes its removal step (R136). -/
def removalDue (who : Remover) (s : State) : Option State :=
  match who with
  | .channel c =>
    match drainDone c.val .drain (.command c.val) s with
    | some (.revoke _) => some (settle (goPhase c.val .removal .running s))
    | _ => none
  | .request =>
    match s.running with
    | some r => if r.wait = .drain ∧ drained s .request then some (settle (requestWait .running s)) else none
    | none => none
  | .warmReset =>
    match s.warm with
    | some { stage := .revocation todo _ .drain, .. } =>
      if drained s .warmReset then some (settle (setRevocation todo true .running s)) else none
    | _ => none

/-- REVOCATION_REMOVAL (R136). -/
def execRevocationRemoval (who : Remover) (s : State) : Host.Outcome State Fault Refusal :=
  answerStep s (removalDue who s)

/-! ### Write tracking (chapter 8) -/

/-- Every drain of a group has finished: the harvest write is issued (R160). -/
def groupDrained (c : Nat) (s : State) : Option State :=
  match drainDone c .draining (.group c) s with
  | some _ => some (harvestIssue c s)
  | none => none

/-- HARVEST_GROUP_DRAINED (R160). -/
def execHarvestGroupDrained (c : Fin 4) (s : State) : Host.Outcome State Fault Refusal :=
  answerStep s (groupDrained c.val s)

/-- HARVEST_WRITE_COMPLETION (R160, R161). -/
def execHarvestWriteCompletion (tag : Fin 1024) (status : DownStatus) (s : State) : Host.Outcome State Fault Refusal :=
  answerStep s (writeCompletion .harvestWrite tag.val status s)

end Sys2Proof.Machine
end

