-- ==== Sys2Proof/Machine/PlatformRows.lean ====
section
/-!
DEFINITION. The rows of the warm reset's settling, the platform lines and the POWER_WARN flush (R174, R201,
R202).
-/

namespace Sys2Proof.Machine

/-- WARM_RESET_SETTLED (R174). -/
def execWarmResetSettled (s : State) : Host.Outcome State Fault Refusal :=
  answerStep s (if settled s then some (afterSettling s) else none)

/-- POWER_WARN (R202): an assertion of the line; the first edge since cold reset begins the flush. -/
def powerWarn (s : State) : Option State :=
  if s.warnLine then none
  else
    let t := { s with warnLine := true }
    some (if warned s then t else settle (powerEdge t))

/-- POWER_WARN (R202). -/
def execPowerWarn (s : State) : Host.Outcome State Fault Refusal := answerStep s (powerWarn s)

/-- POWER_WARN_QUIESCED (R202). -/
def execPowerWarnQuiesced (s : State) : Host.Outcome State Fault Refusal :=
  answerStep s (if s.flush = .waiting ∧ quiesced s then some (flushGoesOn s) else none)

/-- PLATFORM_FAULT is asserted (R201): a line already asserted has no assertion. -/
def faultAssert (s : State) : Option State :=
  if s.faultLine then none
  else
    let t := { s with faultLine := true }
    some (if s.mode = .operational ∧ s.policy = .contain then enterCause .platformFault t else t)

/-- PLATFORM_FAULT_ASSERT (R201). -/
def execPlatformFaultAssert (s : State) : Host.Outcome State Fault Refusal := answerStep s (faultAssert s)

/-- PLATFORM_FAULT_DEASSERT (R201). -/
def execPlatformFaultDeassert (s : State) : Host.Outcome State Fault Refusal := .next { s with faultLine := false }

/-- POWER_WARN_DEASSERT (R202). -/
def execPowerWarnDeassert (s : State) : Host.Outcome State Fault Refusal := .next { s with warnLine := false }

end Sys2Proof.Machine
end

