-- ==== Sys2Proof/Machine/Dispatch.lean ====
section
/-!
DEFINITION. The dispatch: one arm per command of the block.
-/

namespace Sys2Proof.Machine

def exec (i : Instr) (s : State) : Host.Outcome State Fault Refusal :=
  match i with
  | .coldReset spanBase spanSize => Sys2Proof.Machine.execColdReset spanBase spanSize s
  | .requestTaken r => Sys2Proof.Machine.execRequestTaken r s
  | .presentReleasedWaiter => Sys2Proof.Machine.execPresentReleasedWaiter s
  | .heldTransactionForward => Sys2Proof.Machine.execHeldTransactionForward s
  | .completionTaken => Sys2Proof.Machine.execCompletionTaken s
  | .noticePacketTaken => Sys2Proof.Machine.execNoticePacketTaken s
  | .upstreamLinkDown => Sys2Proof.Machine.execUpstreamLinkDown s
  | .upstreamLinkUp => Sys2Proof.Machine.execUpstreamLinkUp s
  | .downstreamLinkDown => Sys2Proof.Machine.execDownstreamLinkDown s
  | .downstreamLinkUp => Sys2Proof.Machine.execDownstreamLinkUp s
  | .downstreamOfferTaken => Sys2Proof.Machine.execDownstreamOfferTaken s
  | .downstreamTagGrant cls => Sys2Proof.Machine.execDownstreamTagGrant cls s
  | .forwardedCompletion tag status data => Sys2Proof.Machine.execForwardedCompletion tag status data s
  | .staleCompletionDiscard tag => Sys2Proof.Machine.execStaleCompletionDiscard tag s
  | .forwardedTimeout tag => Sys2Proof.Machine.execForwardedTimeout tag s
  | .orphanLimit tag => Sys2Proof.Machine.execOrphanLimit tag s
  | .ownRequestTimeout tag => Sys2Proof.Machine.execOwnRequestTimeout tag s
  | .heldTagRelease tag => Sys2Proof.Machine.execHeldTagRelease tag s
  | .fillReadCompletion tag reply => Sys2Proof.Machine.execFillReadCompletion tag reply s
  | .fillClaimsWay set way => Sys2Proof.Machine.execFillClaimsWay set way s
  | .fillWaitListStart => Sys2Proof.Machine.execFillWaitListStart s
  | .writeBackCompletion tag status => Sys2Proof.Machine.execWriteBackCompletion tag status s
  | .formatWriteCompletion tag status => Sys2Proof.Machine.execFormatWriteCompletion tag status s
  | .formatDrainDone c => Sys2Proof.Machine.execFormatDrainDone c s
  | .zeroWriteCompletion tag status => Sys2Proof.Machine.execZeroWriteCompletion tag status s
  | .scrubUnitGrant => Sys2Proof.Machine.execScrubUnitGrant s
  | .granuleDrainDone c => Sys2Proof.Machine.execGranuleDrainDone c s
  | .retireClearanceDrainsDone c => Sys2Proof.Machine.execRetireClearanceDrainsDone c s
  | .retireClaimReleased c => Sys2Proof.Machine.execRetireClaimReleased c s
  | .revocationRemoval who => Sys2Proof.Machine.execRevocationRemoval who s
  | .harvestGroupDrained c => Sys2Proof.Machine.execHarvestGroupDrained c s
  | .harvestWriteCompletion tag status => Sys2Proof.Machine.execHarvestWriteCompletion tag status s
  | .submission tag c block => Sys2Proof.Machine.execSubmission tag c block s
  | .responseRead tag c => Sys2Proof.Machine.execResponseRead tag c s
  | .apertureOtherWrite tag kind line mask data => Sys2Proof.Machine.execApertureOtherWrite tag kind line mask data s
  | .domainRequestWrite tag domain masked mask data => Sys2Proof.Machine.execDomainRequestWrite tag domain masked mask data s
  | .domainRequestRead tag domain => Sys2Proof.Machine.execDomainRequestRead tag domain s
  | .offer => Sys2Proof.Machine.execOffer s
  | .withdraw => Sys2Proof.Machine.execWithdraw s
  | .pin => Sys2Proof.Machine.execPin s
  | .unpin => Sys2Proof.Machine.execUnpin s
  | .query => Sys2Proof.Machine.execQuery s
  | .format c => Sys2Proof.Machine.execFormat c s
  | .assign c => Sys2Proof.Machine.execAssign c s
  | .release c => Sys2Proof.Machine.execRelease c s
  | .restore c => Sys2Proof.Machine.execRestore c s
  | .queryGranules c => Sys2Proof.Machine.execQueryGranules c s
  | .retire c => Sys2Proof.Machine.execRetire c s
  | .revokeGrant c => Sys2Proof.Machine.execRevokeGrant c s
  | .trackStart c => Sys2Proof.Machine.execTrackStart c s
  | .trackCollect c => Sys2Proof.Machine.execTrackCollect c s
  | .flushTags c => Sys2Proof.Machine.execFlushTags c s
  | .regionSet c => Sys2Proof.Machine.execRegionSet c s
  | .create c => Sys2Proof.Machine.execCreate c s
  | .start c => Sys2Proof.Machine.execStart c s
  | .pause c => Sys2Proof.Machine.execPause c s
  | .resume c => Sys2Proof.Machine.execResume c s
  | .unfence c => Sys2Proof.Machine.execUnfence c s
  | .setQuota c => Sys2Proof.Machine.execSetQuota c s
  | .setFence c => Sys2Proof.Machine.execSetFence c s
  | .clearDomainCounters c => Sys2Proof.Machine.execClearDomainCounters c s
  | .domainStatus c => Sys2Proof.Machine.execDomainStatus c s
  | .activateGrant c => Sys2Proof.Machine.execActivateGrant c s
  | .grantRead c => Sys2Proof.Machine.execGrantRead c s
  | .trackStop c => Sys2Proof.Machine.execTrackStop c s
  | .trackStatus c => Sys2Proof.Machine.execTrackStatus c s
  | .violationPop c => Sys2Proof.Machine.execViolationPop c s
  | .noticeConfig c => Sys2Proof.Machine.execNoticeConfig c s
  | .noticeClear c => Sys2Proof.Machine.execNoticeClear c s
  | .noticeStatus c => Sys2Proof.Machine.execNoticeStatus c s
  | .regionClear c => Sys2Proof.Machine.execRegionClear c s
  | .regionLockdown c => Sys2Proof.Machine.execRegionLockdown c s
  | .freeze c => Sys2Proof.Machine.execFreeze c s
  | .setFaultPolicy c => Sys2Proof.Machine.execSetFaultPolicy c s
  | .contain c => Sys2Proof.Machine.execContain c s
  | .resumePart c => Sys2Proof.Machine.execResumePart c s
  | .ackIntegrity c => Sys2Proof.Machine.execAckIntegrity c s
  | .clearIntegrityCount c => Sys2Proof.Machine.execClearIntegrityCount c s
  | .setCorrectedLimit c => Sys2Proof.Machine.execSetCorrectedLimit c s
  | .poisonRead c => Sys2Proof.Machine.execPoisonRead c s
  | .partStatus c => Sys2Proof.Machine.execPartStatus c s
  | .abort c => Sys2Proof.Machine.execAbort c s
  | .resetEngines c => Sys2Proof.Machine.execResetEngines c s
  | .warmResetSettled => Sys2Proof.Machine.execWarmResetSettled s
  | .powerWarn => Sys2Proof.Machine.execPowerWarn s
  | .powerWarnQuiesced => Sys2Proof.Machine.execPowerWarnQuiesced s
  | .platformFaultAssert => Sys2Proof.Machine.execPlatformFaultAssert s
  | .platformFaultDeassert => Sys2Proof.Machine.execPlatformFaultDeassert s
  | .powerWarnDeassert => Sys2Proof.Machine.execPowerWarnDeassert s

end Sys2Proof.Machine
end

