-- ==== Sys2Proof/Safety.lean ====
section
/-!
DEFINITION. What the statements about the part say, in its own terms: when a channel takes a command, what an
answered command leaves, what a step leaves untouched, and the predicates that every step keeps.
-/

namespace Sys2Proof.Machine

/-! ### Between steps -/

/-- Nothing in the part can go on by itself: every command, undo, request, poisoning and removal waits. -/
def Quiet (s : State) : Prop := nextJob s = none

/-! ### Taking a command (R168, R169) -/

/-- What every taking needs (R168): no warm reset, no power warning since cold reset, and a free response
slot. -/
def CanTake (c : Nat) (s : State) : Prop :=
  s.warm = none ∧ s.flush = .none ∧ slotFree (chan s c) = true

/-- Channel c can take block b now as its oldest control command, of the command named, and the mode test
passes (R168, R169). -/
def TakesControl (cmd : Cmd) (c : Nat) (b : Line) (s : State) : Prop :=
  CanTake c s ∧ (chan s c).control.head? = some b ∧ cmdOfCode (blockCode b) = some cmd ∧ modeRefuses cmd s = false

/-- Channel c can take block b now as its oldest work command (R168): no control command waits, no work
command is active and no pending undo is held; and the mode test passes (R169). -/
def TakesWork (cmd : Cmd) (c : Nat) (b : Line) (s : State) : Prop :=
  CanTake c s ∧ (chan s c).control = [] ∧ (chan s c).active = none ∧ (chan s c).undo = none ∧
    (chan s c).work.head? = some b ∧ cmdOfCode (blockCode b) = some cmd ∧ modeRefuses cmd s = false

/-- The row of the table that starts each command of the catalogue, at a channel. -/
def rowOf (cmd : Cmd) (c : Fin 4) : Instr :=
  match cmd with
  | .format => .format c
  | .assign => .assign c
  | .release => .release c
  | .restore => .restore c
  | .queryGranules => .queryGranules c
  | .retire => .retire c
  | .revokeGrant => .revokeGrant c
  | .trackStart => .trackStart c
  | .trackCollect => .trackCollect c
  | .flushTags => .flushTags c
  | .regionSet => .regionSet c
  | .create => .create c
  | .start => .start c
  | .pause => .pause c
  | .resume => .resume c
  | .unfence => .unfence c
  | .setQuota => .setQuota c
  | .setFence => .setFence c
  | .clearDomainCounters => .clearDomainCounters c
  | .domainStatus => .domainStatus c
  | .activateGrant => .activateGrant c
  | .grantRead => .grantRead c
  | .trackStop => .trackStop c
  | .trackStatus => .trackStatus c
  | .violationPop => .violationPop c
  | .noticeConfig => .noticeConfig c
  | .noticeClear => .noticeClear c
  | .noticeStatus => .noticeStatus c
  | .regionClear => .regionClear c
  | .regionLockdown => .regionLockdown c
  | .freeze => .freeze c
  | .setFaultPolicy => .setFaultPolicy c
  | .contain => .contain c
  | .resumePart => .resumePart c
  | .ackIntegrity => .ackIntegrity c
  | .clearIntegrityCount => .clearIntegrityCount c
  | .setCorrectedLimit => .setCorrectedLimit c
  | .poisonRead => .poisonRead c
  | .partStatus => .partStatus c
  | .abort => .abort c
  | .resetEngines => .resetEngines c

/-! ### What a step leaves -/

/-- Every field is as it was, but for the notices and what the ports offer next (R6, R11, R190), the channels
and the queue of the block's interface.  A statement that also lets another field change writes that field
back first. -/
def Untouched (s t : State) : Prop :=
  { t with
    notices := s.notices, noticeSlot := s.noticeSlot, txOffered := s.txOffered, txLast := s.txLast
    downOffered := s.downOffered, channels := s.channels } = s

/-- Every channel other than c is as it was. -/
def OtherChannels (c : Nat) (s t : State) : Prop := ∀ x, x ≠ c → chan t x = chan s x

/-- A control command of channel c has been answered in its step (R168, R170): its block has left the control
queue, its response stands at the end of the ready list, the reserved count is as it was and CHANNEL_DONE is
pending; the other channels are as they were. -/
def Answered (c : Nat) (b : Line) (r : Result) (p : Report) (s t : State) : Prop :=
  chan t c = { chan s c with
    control := (chan s c).control.tail, ready := (chan s c).ready ++ [mkResponse b c r p] } ∧
  OtherChannels c s t ∧ (sourceOf t (7 + c)).pending = true

/-- No notice source changes but for CHANNEL_DONE of channel c, and each keeps its class and its pending mark:
what placing a notice packet may change is a notified mark (R190). -/
def NoticesKept (c : Nat) (s t : State) : Prop :=
  ∀ n, n ≠ 7 + c → (sourceOf t n).cls = (sourceOf s n).cls ∧ (sourceOf t n).pending = (sourceOf s n).pending

/-- A control command has been answered and nothing else has changed. -/
def OnlyAnswered (c : Nat) (b : Line) (r : Result) (p : Report) (s t : State) : Prop :=
  Answered c b r p s t ∧ NoticesKept c s t ∧ Untouched s t

/-- The Domain Table has changed at domain d only, whose entry is now e. -/
def DomainNow (d : Nat) (e : Domain) (s t : State) : Prop :=
  dom t d = e ∧ ∀ x, x ≠ d → dom t x = dom s x

/-- An upstream completion has been decided: it stands at the end of the completion queue (R6). -/
def Decided (x : Completion) (s t : State) : Prop := t.completions = s.completions ++ [x]

/-! ### Own requests that time out (1.5) -/

/-- The row by which a completion with status ERROR of an own request arrives under a tag (R11). -/
def errorRow (job : OwnJob) (tag : Fin 1024) : Instr :=
  match job with
  | .fill _ _ => .fillReadCompletion tag .error
  | .writeBack _ _ => .writeBackCompletion tag .error
  | .formatLine _ => .formatWriteCompletion tag .error
  | .zeroLine _ _ => .zeroWriteCompletion tag .error
  | .harvest _ => .harvestWriteCompletion tag .error

/-- A state is another but for its timers (R10, R12, R80). -/
def SameButTimers (s t : State) : Prop :=
  { t with inFlight := s.inFlight, outstanding := s.outstanding, heldTags := s.heldTags } = s ∧
    t.inFlight.map (fun p => (p.1, { p.2 with timer := 0 })) =
      s.inFlight.map (fun p => (p.1, { p.2 with timer := 0 })) ∧
    t.outstanding.map (fun o => { o with timer := 0 }) = s.outstanding.map (fun o => { o with timer := 0 }) ∧
    t.heldTags.map (·.tag) = s.heldTags.map (·.tag)

/-! ### The upstream port and the check (chapters 1 and 4) -/

/-- The port takes the next offered request (R3, R7): the link is up, the stage holds no transaction, no
released waiter is to be presented, the Miss Queue has room, and neither a warm reset nor a POWER_WARN flush
is in progress. -/
def PortTakes (s : State) : Prop :=
  s.upLink = true ∧ s.stage = none ∧ (∀ m ∈ s.missQueue, m.released = false) ∧ s.missQueue.length < 64 ∧
    s.warm = none ∧ (s.flush = .none ∨ s.flush = .done)

/-- The port takes this request, whose tag is not in use, and hands it to the Check Engine (R3). -/
def Arrives (r : Request) (s : State) : Prop := PortTakes s ∧ r.tag.val ∉ s.tagsInUse

/-- The line address of a request, as a violation carries it (R75). -/
def lineOf (r : Request) : Nat := r.address.toNat / 64 * 64

/-- The completion of a request with a status other than OK: a READ carries zero data (R4, R74). -/
def refusalOf (r : Request) (status : Status) : Completion :=
  { tag := r.tag.val, status := status, data := if r.kind = .read then some 0 else none, duplicate := false }

/-- Step 9 permits (R72, R73): the root domain an OPEN granule; a guest its own PRIVATE granule; and anyone else a
PRIVATE granule whose owner has given it an ACTIVE grant with access covering the request. -/
def Permits (r : Request) (g : Nat) (rec : TagRecord) (s : State) : Prop :=
  (rec.state = .gOpen ∧ r.domain = 0) ∨
  (rec.state = .gPrivate ∧ r.domain ≠ 0 ∧ rec.owner = some r.domain.val) ∨
  (rec.state = .gPrivate ∧ rec.count ≠ 0 ∧ ∃ i e, grantFor s g r.domain.val = some (i, e) ∧ e.state = .active ∧
    (r.kind = .read ∨ e.readWrite = true))

/-- The refusals of step 9, row by row of the tables of R72 and R73. -/
inductive StepNine (r : Request) (g : Nat) (rec : TagRecord) (s : State) : Reason → Prop where
  | openToGuest : rec.state = .gOpen → r.domain ≠ 0 → StepNine r g rec s .notOwner
  | clearingIn : rec.state = .gClearingIn → StepNine r g rec s .clearing
  | clearingOut : rec.state = .gClearingOut → StepNine r g rec s .clearing
  | poisoned : rec.state = .gPoisoned → StepNine r g rec s .poisoned
  | reserved : rec.state = .gReserved → StepNine r g rec s .tagRegion
  | noGrant : rec.state = .gPrivate → ¬(r.domain ≠ 0 ∧ rec.owner = some r.domain.val) →
      rec.count = 0 → StepNine r g rec s .notOwner
  | noEntry : rec.state = .gPrivate → ¬(r.domain ≠ 0 ∧ rec.owner = some r.domain.val) →
      grantFor s g r.domain.val = none → StepNine r g rec s .notOwner
  | inactive : rec.state = .gPrivate → ¬(r.domain ≠ 0 ∧ rec.owner = some r.domain.val) → rec.count ≠ 0 →
      (∃ i e, grantFor s g r.domain.val = some (i, e) ∧ e.state ≠ .active) → StepNine r g rec s .grantInactive
  | readOnly : rec.state = .gPrivate → ¬(r.domain ≠ 0 ∧ rec.owner = some r.domain.val) → rec.count ≠ 0 →
      (∃ i e, grantFor s g r.domain.val = some (i, e) ∧ e.state = .active ∧ e.readWrite = false) →
      r.kind ≠ .read → StepNine r g rec s .grantMode

/-- The steps before the record pass a governed request on to step 9 (R66 to R70): the mode is OPERATIONAL, or
CONTAINED for the root domain; a guest is RUNNING; the granule lies neither in the tag region nor in a region
entry that is SET or LOCKED_DOWN. -/
def ReachesStepNine (r : Request) (g : Nat) (s : State) : Prop :=
  classify s r.address = .governed g ∧
    (s.mode = .operational ∨ (s.mode = .contained ∧ r.domain = 0)) ∧
    (r.domain = 0 ∨ (dom s r.domain.val).state = .running) ∧
    inTagRegion s g = false ∧ coveringRegion s g = none

/-- The In-Flight Table entry of a forwarded request (R80). -/
def entryFor (r : Request) (g : Nat) (unformatted : Bool) : InFlight :=
  { upstreamTag := r.tag.val, domain := r.domain.val, granule := g, write := decide (r.kind ≠ .read)
    orphaned := false, suppress := false, unformatted := unformatted, timer := 0, limitReached := false }

/-- The request that is handed downstream under an entry's index (R9). -/
def offerFor (r : Request) (i : Nat) : DownRequest :=
  { tag := i, kind := r.kind, domain := r.domain.val, address := lineOf r, mask := r.mask
    data := if r.kind = .read then .none else .line r.data }

/-- A request has been forwarded: it has taken the lowest-numbered free entry and stands offered downstream under
its index, or it holds the check stage because none is free (R76, R77). -/
def Forwarded (r : Request) (g : Nat) (unformatted : Bool) (s t : State) : Prop :=
  t.completions = s.completions ∧ t.log = s.log ∧
    match tblFree 256 s.inFlight with
    | some i =>
      tblGet t.inFlight i = some (entryFor r g unformatted) ∧
        (∀ x, x ≠ i → tblGet t.inFlight x = tblGet s.inFlight x) ∧
        t.offers = s.offers ++ [offerFor r i] ∧ t.stage = none
    | none =>
      t.inFlight = s.inFlight ∧ t.offers = s.offers ∧
        t.stage = some { request := r, granule := g, unformatted := unformatted }

/-- Nothing has been forwarded, looked up or changed for the request but its answer and what its refusal
records. -/
def NotForwarded (s t : State) : Prop :=
  t.inFlight = s.inFlight ∧ t.offers = s.offers ∧ t.stage = s.stage ∧ t.missQueue = s.missQueue ∧
    t.outstanding = s.outstanding ∧ t.fills = s.fills

/-- The Violation Log after a record is handed to it (R186). -/
def logWith (l : List Violation) (v : Violation) : List Violation := if l.length < 32 then l ++ [v] else l

/-- A domain entry after a counted refusal (R100, R101). -/
def countedEntry (e : Domain) (address : Nat) : Domain :=
  let e' := { e with
    violations := min (e.violations + 1) 15
    firstAddress := if e.violations = 0 then some address else e.firstAddress }
  if (e.state = .preparing ∨ e.state = .running ∨ e.state = .paused) ∧ e.threshold ≠ 0 ∧
      e.threshold ≤ e'.violations then { e' with state := .fenced } else e'

/-- The violation of a refusal (R75). -/
def violationOf (r : Request) (reason : Reason) (seen : Option TagRecord) : Violation :=
  { domain := r.domain.val, write := decide (r.kind ≠ .read), address := lineOf r, reason := reason
    counted := isCounted reason, ownerSeen := seen.bind (·.owner), stateSeen := seen.map (·.state) }

/-- The notice sources that the recording of a refusal raises: VIOLATION for a record in an empty log, LOG_FULL for a
dropped one (R186), and DOMAIN_FENCED where a counted reason fences its requester (R101). -/
def raisedBy (r : Request) (reason : Reason) (s : State) : List Nat :=
  (if s.log = [] then [0] else if s.log.length < 32 then [] else [1]) ++
    if isCounted reason = true ∧
        (countedEntry (dom s r.domain.val) (lineOf r)).state ≠ (dom s r.domain.val).state then [2] else []

/-- These sources have been raised, and every other source is pending or not as it was (R189). -/
def RaisedOnly (l : List Nat) (s t : State) : Prop :=
  ∀ n, (sourceOf t n).cls = (sourceOf s n).cls ∧
    ((sourceOf t n).pending = true ↔ (sourceOf s n).pending = true ∨ n ∈ l)

/-- A logged refusal has been recorded: the log has taken its violation, and a counted reason has been counted at
the requester's entry, which may be fenced, with the notices that go with it (R75, R100, R101, R186). -/
def Recorded (r : Request) (reason : Reason) (seen : Option TagRecord) (s t : State) : Prop :=
  RaisedOnly (raisedBy r reason s) s t ∧ t.log = logWith s.log (violationOf r reason seen) ∧
    if isCounted reason then
      DomainNow r.domain.val (countedEntry (dom s r.domain.val) (lineOf r)) s t
    else ∀ d, dom t d = dom s d

/-- A refusal that is answered, neither logged nor counted. -/
def OnlyAnswers (r : Request) (status : Status) (s t : State) : Prop :=
  Decided (refusalOf r status) s t ∧ NotForwarded s t ∧ t.log = s.log ∧ (∀ d, dom t d = dom s d) ∧
    t.ways = s.ways

/-- A refusal that is answered and recorded. -/
def RefusesLogged (r : Request) (reason : Reason) (seen : Option TagRecord) (status : Status) (s t : State) :
    Prop :=
  Decided (refusalOf r status) s t ∧ NotForwarded s t ∧ Recorded r reason seen s t ∧ t.ways = s.ways

/-- The steps of the check before the record answer a request that they decide, or forward it (R65 to R70). -/
def DecidedBeforeTheRecord (r : Request) (s t : State) : Prop :=
  (∀ off, classify s r.address = .aperture off → s.mode = .halted → OnlyAnswers r .halted s t) ∧
  (∀ off, classify s r.address = .aperture off → s.mode ≠ .halted → r.domain ≠ 0 → off ≠ 0x8000 →
    RefusesLogged r .management none .blocked s t) ∧
  (classify s r.address = .outside →
    OnlyAnswers r (if s.mode = .halted then .halted else .addressError) s t) ∧
  (∀ g, classify s r.address = .governed g →
    (s.mode = .halted → OnlyAnswers r .halted s t) ∧
    (s.mode = .unformatted ∨ s.mode = .formatting → r.domain ≠ 0 → OnlyAnswers r .stopped s t) ∧
    (s.mode = .unformatted → r.domain = 0 → Forwarded r g true s t) ∧
    (s.mode = .formatting → r.domain = 0 → inTagRegion s g = false → Forwarded r g true s t) ∧
    (s.mode = .formatting → r.domain = 0 → inTagRegion s g = true →
      RefusesLogged r .tagRegion none .blocked s t) ∧
    (s.mode = .contained → r.domain ≠ 0 → OnlyAnswers r .blocked s t) ∧
    (s.mode = .operational → r.domain ≠ 0 →
      ((dom s r.domain.val).state = .free → RefusesLogged r .unknownDomain none .blocked s t) ∧
      ((dom s r.domain.val).state = .fenced → OnlyAnswers r .blocked s t) ∧
      ((dom s r.domain.val).state = .preparing ∨ (dom s r.domain.val).state = .paused ∨
        (dom s r.domain.val).state = .retiring → OnlyAnswers r .stopped s t)) ∧
    ((s.mode = .operational ∧ (r.domain = 0 ∨ (dom s r.domain.val).state = .running)) ∨
        (s.mode = .contained ∧ r.domain = 0) →
      (inTagRegion s g = true → RefusesLogged r .tagRegion none .blocked s t) ∧
      (inTagRegion s g = false → ∀ e, coveringRegion s g = some e →
        if r.domain = 0 ∧ e.noAccess = false then Forwarded r g false s t ∧ t.ways = s.ways
        else RefusesLogged r .region none .blocked s t)))

/-- A request that misses stands at the end of the Miss Queue and waits for its tag line, which is being fetched or on
the wait list; nothing is answered, recorded or forwarded for it (R71, R47, R50). -/
def WaitsForItsLine (r : Request) (g : Nat) (s t : State) : Prop :=
  t.missQueue = s.missQueue ++ [{ request := r, granule := g, line := g / 4, released := false }] ∧
    ((∃ f ∈ t.fills, f.line = g / 4) ∨ g / 4 ∈ t.fillWaits) ∧ t.completions = s.completions ∧ t.log = s.log ∧
    (∀ d, dom t d = dom s d) ∧ t.inFlight = s.inFlight ∧ t.ways = s.ways

/-! ### The domain request line and the Domain Request Unit (chapter 7) -/

/-- The Domain Request Unit starts its head request in this step and every start test passes (R140): no request
runs, no warm reset and no power warning stand, the head is of a kind, its requester is RUNNING, the mode is
OPERATIONAL and the granule index is below N; and the request behind it, if any, is of a known kind. -/
def HeadStarts (kind : Nat) (x : GuestRequest) (rest : List GuestRequest) (s : State) : Prop :=
  s.requests = x :: rest ∧ s.running = none ∧ s.warm = none ∧ s.flush = .none ∧ x.kind = kind ∧
    s.mode = .operational ∧ (dom s x.requester).state = .running ∧ x.granule < granuleCount s ∧
    ∀ y, rest.head? = some y → 1 ≤ y.kind ∧ y.kind ≤ 5

/-- The Domain Request Unit starts its head request in this step, whatever its start tests say (R140): no request
runs, no warm reset and no power warning stand, the head is of a kind, and the request behind it, if any, is of a known
kind. -/
def HeadAtItsTests (kind : Nat) (x : GuestRequest) (rest : List GuestRequest) (s : State) : Prop :=
  s.requests = x :: rest ∧ s.running = none ∧ s.warm = none ∧ s.flush = .none ∧ x.kind = kind ∧
    ∀ y, rest.head? = some y → 1 ≤ y.kind ∧ y.kind ≤ 5

/-- The first start test of R140 that a head request of a known kind fails. -/
def startRefusal (x : GuestRequest) (s : State) : Option Result :=
  if s.mode ≠ .operational then some .mode
  else if (dom s x.requester).state ≠ .running then some .domainState
  else if granuleCount s ≤ x.granule then some .parameter
  else none

/-- The head request has finished (R140): its result and optional fields stand in its requester's last-result
record, whose kind and granule are kept, and it has left the queue. -/
def Finished (x : GuestRequest) (rest : List GuestRequest) (r : Result) (grant : Option Nat) (q : QueryPart)
    (s t : State) : Prop :=
  t.requests = rest ∧ t.running = none ∧
    resultOf t x.requester = { resultOf s x.requester with result := r, grant := grant, query := q } ∧
    ∀ d, d ≠ x.requester → resultOf t d = resultOf s d

/-- No record, grant, domain entry or request of the downstream port has changed, and no command has gone on. -/
def TablesKept (s t : State) : Prop :=
  t.ways = s.ways ∧ t.grants = s.grants ∧ (∀ d, dom t d = dom s d) ∧ t.outstanding = s.outstanding ∧
    t.fills = s.fills ∧ t.inFlight = s.inFlight ∧ ∀ c, chan t c = chan s c

/-- The running request stands at the head of the queue and waits for the fill of its granule's tag line, which is being
fetched or on the wait list; `entry` is the grant entry that a WITHDRAW removes (R51, R140, R143). -/
def RequestWaitsForFill (x : GuestRequest) (entry : Option (Nat × Nat)) (s t : State) : Prop :=
  t.requests = s.requests ∧ t.running = some { wait := .fill (x.granule / 4), entry := entry } ∧
    ((∃ f ∈ t.fills, f.line = x.granule / 4) ∨ x.granule / 4 ∈ t.fillWaits) ∧ t.ways = s.ways ∧
    (∀ d, dom t d = dom s d) ∧ (∀ d, resultOf t d = resultOf s d) ∧ ∀ c, chan t c = chan s c

/-- The current record of granule g is now r, and every other cached record is as it was. -/
def RecordNow (g : Nat) (r : TagRecord) (s t : State) : Prop :=
  recordAt t g = some r ∧ ∀ g', g' ≠ g → recordAt t g' = recordAt s g'

/-- A permitted request is a write that is marked at its record (R155): PRIVATE with DIRTY clear, of a guest whose track
slot is ACTIVE or OVERFLOWED. -/
def IsMarked (r : Request) (rec : TagRecord) (s : State) : Prop :=
  r.kind ≠ .read ∧ rec.state = .gPrivate ∧ rec.dirty = false ∧
    ∃ d k, rec.owner = some d ∧ d ≠ 0 ∧ (dom s d).slot = some k ∧
      ((slotOf s k).state = .active ∨ (slotOf s k).state = .overflowed)

/-! ### Work commands -/

/-- Channel c takes block b, the only work command that waits at it, and nothing else in the part can go on. -/
def StartsWork (cmd : Cmd) (c : Nat) (b : Line) (s : State) : Prop :=
  TakesWork cmd c b s ∧ (chan s c).work = [b] ∧ Quiet s

/-- A work command has been refused at its start, and nothing else has changed (R170). -/
def WorkRefused (c : Nat) (b : Line) (r : Result) (p : Report) (s t : State) : Prop :=
  chan t c = { chan s c with work := [], ready := (chan s c).ready ++ [mkResponse b c r p] } ∧
    OtherChannels c s t ∧ (sourceOf t (7 + c)).pending = true ∧ NoticesKept c s t ∧ Untouched s t

/-- A work command has been taken and has ended in the same step (R170). -/
def EndsAtOnce (c : Nat) (b : Line) (r : Result) (p : Report) (s t : State) : Prop :=
  chan t c = { chan s c with
    work := [], stop := false, claim := none, ready := (chan s c).ready ++ [mkResponse b c r p] } ∧
    OtherChannels c s t ∧ (sourceOf t (7 + c)).pending = true

/-- A work command has ended in the step that took it, having changed nothing: a lookup has moved a way to the
most recently used end (R41). -/
def StopsAtOnce (c : Nat) (b : Line) (r : Result) (p : Report) (s t : State) : Prop :=
  EndsAtOnce c b r p s t ∧ Untouched s { t with lru := s.lru }

/-- A work command has been taken and stands as its channel's active work command (R168). -/
def Starts (c : Nat) (b : Line) (w : Work) (p : Phase) (x : Wait) (claim : Option Nat) (s t : State) : Prop :=
  chan t c = { chan s c with
    work := [], stop := false, claim := claim, reserved := (chan s c).reserved + 1
    active := some { block := b, work := w, phase := p, wait := x, ending := none } } ∧
    OtherChannels c s t

/-- A work command has been taken and waits for the fill of its first granule's tag line (R51); no table has
changed but for what `t`'s fields say elsewhere. -/
def StartsWithFill (c : Nat) (b : Line) (w : Work) (p : Phase) (g : Nat) (s t : State) : Prop :=
  Starts c b w p (.fill (g / 4)) (chan s c).claim s t ∧ t.ways = s.ways ∧
    ((∃ f ∈ t.fills, f.line = g / 4) ∨ g / 4 ∈ t.fillWaits)

/-- Work command a is active at channel c, where no other command waits, and nothing in the part can go on. -/
def Runs (c : Nat) (a : Active) (s : State) : Prop :=
  (chan s c).active = some a ∧ a.ending = none ∧ (chan s c).control = [] ∧ (chan s c).work = [] ∧
    (chan s c).undo = none ∧ s.warm = none ∧ Quiet s

/-- The active work command of channel c stands as a', with this claim. -/
def GoesOn (c : Nat) (a' : Active) (claim : Option Nat) (s t : State) : Prop :=
  chan t c = { chan s c with active := some a', claim := claim } ∧ OtherChannels c s t

/-- The active work command a of channel c has ended with its response (R170). -/
def Ends (c : Nat) (a : Active) (r : Result) (p : Report) (s t : State) : Prop :=
  chan t c = { chan s c with
    active := none, stop := false, claim := none, reserved := (chan s c).reserved - 1
    ready := (chan s c).ready ++ [mkResponse a.block c r p] } ∧
    OtherChannels c s t ∧ (sourceOf t (7 + c)).pending = true

/-! ### ABORT (R172) -/

/-- The counts and words of ABORT's own response (R172). -/
def abortReport (b : Line) (s : State) : Report :=
  { w0 := if (chan s (wordA b)).active = none then 0 else 1
    w1 := if wordB b = 1 then (chan s (wordA b)).work.length else 0
    w2 := ((chan s (wordA b)).active.map (fun a => blockCode a.block)).getD (2 ^ 64 - 1) }

/-- Channel y once the ABORT of block b at channel c has completed, before the command that it names stops (R172): it
has been answered, and with flush the work queue it names is empty. -/
def abortAnswered (c : Nat) (b : Line) (s : State) (y : Nat) : Channel :=
  { chan s y with
    control := if y = c then (chan s y).control.tail else (chan s y).control
    work := if y = wordA b ∧ wordB b = 1 then [] else (chan s y).work
    ready := if y = c then (chan s y).ready ++ [mkResponse b c .done (abortReport b s)] else (chan s y).ready }

/-- The ABORT of block b that channel c takes names channel x, its own or another, whose active work command a has not
been asked to stop, whatever it may have begun to stop with; after it no other command is left for channel x, and
nothing else in the part can go on. -/
def AbortFinds (c x : Nat) (b : Line) (a : Active) (s : State) : Prop :=
  TakesControl .abort c b s ∧ Quiet s ∧ wordA b = x ∧ wordB b ≤ 1 ∧ (chan s x).active = some a ∧
    (chan s x).stop = false ∧ (chan s x).undo = none ∧
    (chan s x).control = (if x = c then [b] else []) ∧ (wordB b = 1 ∨ (chan s x).work = [])

/-- ABORT has been answered, and the command a of channel x has ended with ABORTED after it (R170, R172). -/
def AbortEnds (c x : Nat) (b : Line) (a : Active) (p : Report) (s t : State) : Prop :=
  chan t x = { abortAnswered c b s x with
    active := none, stop := false, claim := none, reserved := (chan s x).reserved - 1
    ready := (abortAnswered c b s x).ready ++ [mkResponse a.block x .aborted p] } ∧
    (∀ y, y ≠ x → chan t y = abortAnswered c b s y) ∧ (sourceOf t (7 + c)).pending = true ∧
    (sourceOf t (7 + x)).pending = true

/-- ABORT has been answered, and the command of channel x stands as a', asked to stop (R172). -/
def AbortWaits (c x : Nat) (b : Line) (a' : Active) (s t : State) : Prop :=
  chan t x = { abortAnswered c b s x with active := some a', stop := true } ∧
    (∀ y, y ≠ x → chan t y = abortAnswered c b s y) ∧ (sourceOf t (7 + c)).pending = true

/-- The counts and value words of a work command that is stopped before its end, in the state in which its response
becomes ready (R36, R60, R61, R110, R114, R123, R124, R147, R154, R158, R161, R196). -/
def stoppedReport (a : Active) (t : State) : Report :=
  match a.work with
  | .format base next lowest =>
    { finished := t.progress, remaining := tagLineCount t - t.progress, next := 4 * min (lowest.getD next) next
      w0 := base, w1 := tagRegionSize t }
  | .assign d f n _ k =>
    { finished := k, remaining := n - k, next := f + k, w0 := (dom t d).owned, w1 := (dom t d).quota }
  | .release d f n k =>
    { finished := k, remaining := n - k, next := f + k, w0 := (dom t d).owned, w1 := (dom t d).quota }
  | .restore g => { remaining := 1, next := g, w1 := 2 ^ 64 - 1, w2 := t.poisonList.length }
  | .queryGranules f n ws =>
    { finished := ws.length, remaining := n - ws.length, next := f + ws.length
      w0 := ws[0]?.getD (2 ^ 64 - 1), w1 := ws[1]?.getD (2 ^ 64 - 1), w2 := ws[2]?.getD (2 ^ 64 - 1)
      w3 := ws[3]?.getD (2 ^ 64 - 1), w4 := ws[4]?.getD (2 ^ 64 - 1) }
  | .retire r =>
    { finished := r.released, remaining := (dom t r.domain).owned
      next := if a.phase = .clearance ∨ a.phase = .removal then r.hintFirst else r.walk.position
      w0 := r.removed, w1 := r.slotReleased.getD (2 ^ 64 - 1) }
  | .revoke r =>
    { remaining := 1, next := r.granule, w0 := r.granule
      w1 := grantWord r.owner r.grantee r.readWrite
        (((grantAt t r.index).filter (fun g => g.serial == r.serial)).map (·.state)) }
  | .trackStart _ _ f n k _ => { finished := k, remaining := n - k, next := f + k }
  | .trackCollect k =>
    if a.phase = .buffer then { remaining := k.capacity, next := granuleCount t }
    else
      { finished := k.delivered, remaining := k.count - k.delivered
        next := if k.delivered = k.count then granuleCount t else k.group.head?.getD (granuleCount t)
        w0 := k.delivered, w1 := (slotOf t k.slot).queue.length
        w2 := if (slotOf t k.slot).state = .overflowed then 1 else 0, w3 := k.lines, w4 := k.count }
  | .flushTags x =>
    { finished := x.good, remaining := x.failed, next := (x.lowest.map (4 * ·)).getD (granuleCount t)
      w0 := (x.found.eraseDups.filter (lineDirty t)).length }
  | .regionSet _ f n _ k => { finished := k, remaining := n - k, next := f + k }

/-- Where a stopped work command ends at once, with no granule mid-change and no write to wait for (R110, R129, R147,
R154, R158, R161, R196): between and at its visits, in RETIRE's clearance, in the drain and the removal of a grant, and
at TRACK_COLLECT's buffer test. -/
def stopsAtOnce (a : Active) : Bool :=
  match a.work, a.phase with
  | .assign _ _ _ _ _, .visit => true
  | .release _ _ _ _, .visit => true
  | .restore _, .visit => true
  | .queryGranules _ _ _, .visit => true
  | .retire _, .clearance => true
  | .retire _, .removal => true
  | .retire _, .visit => true
  | .retire _, .visiting => true
  | .revoke _, .drain => true
  | .revoke _, .removal => true
  | .trackStart _ _ _ _ _ _, .visit => true
  | .trackStart _ _ _ _ _ _, .clearing => true
  | .trackCollect _, .buffer => true
  | .regionSet _ _ _ _ _, .visit => true
  | _, _ => false

/-- The commands that change granules one at a time and undo a granule's change when they stop (R129, R130, R110). -/
def undoesGranules : Work → Bool
  | .assign _ _ _ _ _ => true
  | .release _ _ _ _ => true
  | .restore _ => true
  | .retire _ => true
  | _ => false

/-- What the stop of a work command leaves of its own rule's tables (R110, R154, R196): RETIRE's mark clear, a slot that
TRACK_START was arming IDLE and its domain's slot field absent, a REGION_SET's entry EMPTY; no other domain, slot or
region changes. -/
def StopLeaves (x : Nat) (w : Work) (s t : State) : Prop :=
  match w with
  | .retire r =>
    DomainNow r.domain { dom s r.domain with retireActive := false } s t ∧ t.slots = s.slots ∧ t.regions = s.regions
  | .trackStart k _ _ _ _ _ =>
    t.regions = s.regions ∧ (∀ j, j ≠ k → slotOf t j = slotOf s j) ∧
      if (slotOf s k).armedBy = some x then
        slotOf t k = { slotOf s k with state := .idle, domain := none, queue := [], armedBy := none } ∧
          ∀ y, dom t y = if (slotOf s k).domain = some y then { dom s y with slot := none } else dom s y
      else slotOf t k = slotOf s k ∧ ∀ y, dom t y = dom s y
  | .regionSet i _ _ _ _ =>
    regionOf t i = { regionOf s i with state := .empty } ∧ (∀ j, j ≠ i → regionOf t j = regionOf s j) ∧
      t.slots = s.slots ∧ ∀ y, dom t y = dom s y
  | _ => t.slots = s.slots ∧ t.regions = s.regions ∧ ∀ y, dom t y = dom s y

/-- The undo of a granule operation's change at the record it left (R130, R110): CLEARING_IN of an ASSIGN becomes OPEN
and the assignee owns one granule less; CLEARING_OUT of a RELEASE or RETIRE becomes PRIVATE again, PINNED clear; any
other record stays. -/
def Undone (w : Work) (g : Nat) (rec : TagRecord) (s t : State) : Prop :=
  match w, rec.state with
  | .assign d _ _ _ _, .gClearingIn =>
    RecordNow g { owner := some 0, state := .gOpen, pinned := false, dirty := false, count := 0 } s t ∧
      DomainNow d { dom s d with owned := (dom s d).owned - 1 } s t
  | .release _ _ _ _, .gClearingOut =>
    RecordNow g { rec with state := .gPrivate, pinned := false } s t ∧ ∀ y, dom t y = dom s y
  | .retire r, .gClearingOut =>
    RecordNow g { rec with state := .gPrivate, pinned := false } s t ∧
      DomainNow r.domain { dom s r.domain with retireActive := false } s t
  | .retire r, _ =>
    t.ways = s.ways ∧ DomainNow r.domain { dom s r.domain with retireActive := false } s t
  | _, _ => t.ways = s.ways ∧ ∀ y, dom t y = dom s y

/-- The write-backs that a FLUSH_TAGS still goes by once those without a tag are left to others (R10, R61): each of them
that it waited for is struck from the lines waited for and once from the lines found. -/
def withoutUnissued (x : FlushWork) (s : State) : FlushWork :=
  let unissued := fun l => (waitingJobs s).any (fun j => match j with
    | .writeBack _ line => line == l
    | _ => false)
  { x with
    waiting := x.waiting.filter (fun l => !unissued l)
    found := x.found.diff (x.waiting.filter unissued)
    issued := x.issued.filter (fun l => !unissued l) }

/-! ### Conditions of granules, drains and fills -/

/-- The range check refuses granules f to f + n − 1 (R23). -/
abbrev RangeRefused (s : State) (f n : Nat) : Prop := n = 0 ∨ 65536 < n ∨ granuleCount s < f + n

/-- Some channel's command holds a claim on the granule (R113). -/
abbrev Claimed (s : State) (g : Nat) : Prop := ∃ x ∈ [0, 1, 2, 3], (chan s x).claim = some g

/-- The granule is busy for a validation: it is being cleared, or is under a claim (R113). -/
abbrev Busy (s : State) (g : Nat) (r : TagRecord) : Prop :=
  r.state = .gClearingIn ∨ r.state = .gClearingOut ∨ Claimed s g

/-- The granule lies in a Region Table entry that is not EMPTY (R117, R158). -/
abbrev InSomeRegion (s : State) (g : Nat) : Prop :=
  ∃ i ∈ List.range 8, (regionOf s i).state ≠ .empty ∧ (regionOf s i).first ≤ g ∧
    g < (regionOf s i).first + (regionOf s i).count

/-- No transaction on the granule is in the In-Flight Table or holds the check stage (R85). -/
abbrev NoTraffic (g : Nat) (s : State) : Prop :=
  (∀ p ∈ s.inFlight, p.2.granule ≠ g) ∧ ∀ h, s.stage = some h → h.granule ≠ g

/-- The drain that begins for a user over the transactions that a test of granule and domain picks (R85): it counts every
In-Flight Table entry that matches, and the transaction that holds the check stage if it matches. -/
def counting (u : DrainUser) (picks : Nat → Nat → Bool) (s : State) : Drain :=
  { user := u
    members := (s.inFlight.filter (fun p => picks p.2.granule p.2.domain)).map (·.1)
    held := s.stage.any (fun h => picks h.granule h.request.domain.val) }

/-- The drains of RETIRE's clearance that have something to wait for (R85, R105): of the domain's transactions, and for
each entry that it owns of the grantee's on the granule. -/
def clearanceDrains (c d : Nat) (s : State) : List Drain :=
  (counting (.clearance c) (fun _ x => x == d) s ::
    (s.grants.filter (fun p => p.2.owner == d)).map (fun p =>
      counting (.clearance c) (fun g x => g == p.2.granule && x == p.2.grantee) s)).filter
    (fun x => !x.members.isEmpty || x.held)

/-- A transaction of the domain on the granule is in the In-Flight Table or holds the check stage (R85). -/
abbrev PairTraffic (g d : Nat) (s : State) : Prop :=
  (∃ p ∈ s.inFlight, p.2.granule = g ∧ p.2.domain = d) ∨
    ∃ h ∈ s.stage.toList, h.granule = g ∧ h.request.domain.val = d

/-- No drain of this user is in progress. -/
def NoDrain (u : DrainUser) (s : State) : Prop := ∀ d ∈ s.drains, d.user ≠ u

/-- No command step, undo, request, poisoning or removal waits for the fill of a tag line (R48, R51). -/
def NoStepWaits (line : Nat) (s : State) : Prop :=
  (∀ x, x < 4 → (∀ a, (chan s x).active = some a → a.wait ≠ .fill line) ∧
    ∀ u, (chan s x).undo = some u → u.wait ≠ .fill line) ∧
  (∀ r, s.running = some r → r.wait ≠ .fill line) ∧ (∀ p ∈ s.poisonings, p.wait ≠ .fill line) ∧
  ∀ w todo d x, s.warm = some w → w.stage = .revocation todo d x → x ≠ .fill line

/-- The record that the check of a landing line leaves of one reading (R52): an unreadable part poisons the
granule, its owner kept if it can be read. -/
def landedRecord (r : RecordRead) : TagRecord :=
  match r.ownerPart, r.statePart with
  | .lost, _ => poisonedRecord none
  | .good o, .lost => poisonedRecord (ownerOf o)
  | .corrected o, .lost => poisonedRecord (ownerOf o)
  | .good o, .good p => recordOf o p
  | .good o, .corrected p => recordOf o p
  | .corrected o, .good p => recordOf o p
  | .corrected o, .corrected p => recordOf o p

/-- Whether the check changes a reading (R52). -/
def landedChanged (r : RecordRead) : Bool :=
  match r.ownerPart, r.statePart with
  | .good _, .good _ => false
  | _, _ => true

/-- Whether a reading is counted as corrected (R52, R53): its owner part can be read and a part was corrected. -/
def landedCorrected (r : RecordRead) : Bool :=
  match r.ownerPart, r.statePart with
  | .lost, _ => false
  | .corrected _, _ => true
  | .good _, .corrected _ => true
  | .good _, _ => false

/-- Whether a reading has lost its state part and kept its owner part, good or corrected (R55). -/
def landedStateLost (r : RecordRead) : Bool :=
  match r.ownerPart, r.statePart with
  | .lost, _ => false
  | _, .lost => true
  | _, _ => false

/-- Whether a reading has lost a part (R55, R56). -/
def landedLost (r : RecordRead) : Bool := r.ownerPart == .lost || r.statePart == .lost

/-- The granules of a tag line, in slot order, whose readings meet a test, with their readings (R25, R52). -/
def granulesWith (p : RecordRead → Bool) (line : Nat) (r0 r1 r2 r3 : RecordRead) : List (Nat × RecordRead) :=
  [(4 * line, r0), (4 * line + 1, r1), (4 * line + 2, r2), (4 * line + 3, r3)].filter (fun x => p x.2)

/-- What a landing does for its corrected records (R53): each is counted, up to 255, the first of a count that stood at 0
is latched, and TAG_CORRECTED_LIMIT is raised where an increment meets the limit. -/
def LandingCounted (line : Nat) (r0 r1 r2 r3 : RecordRead) (s t : State) : Prop :=
  ∀ fixed, fixed = granulesWith landedCorrected line r0 r1 r2 r3 →
    t.corrected = (if fixed = [] then s.corrected else min (s.corrected + fixed.length) 255) ∧
    t.firstCorrected = (if s.corrected = 0 ∧ fixed ≠ [] then fixed.head?.map (·.1) else s.firstCorrected) ∧
    t.correctedLimit = s.correctedLimit ∧
    ((sourceOf t 3).pending = true ↔ (sourceOf s 3).pending = true ∨
      (s.corrected < s.correctedLimit ∧ s.correctedLimit ≤ s.corrected + fixed.length ∧ s.correctedLimit ≤ 255))

/-- What the lost parts of a landing line touch besides the records and their grants: the poison list, the integrity
hold, and the causes that Mode Control takes, in order. -/
structure Losses where
  list   : List PoisonEntry
  hold   : Option Nat
  causes : List Cause

/-- One more record has lost a part (R54 to R57): its granule's poison-list entry takes the owner that the record now has,
or joins the end of the list with cause RECORD, or on a full list enters POISON_FULL; a lost state part takes a hold that
is clear and otherwise enters CASCADE, and a lost owner part enters OWNER_LOST. -/
def oneMoreLoss (x : Losses) (p : Nat × RecordRead) : Losses :=
  let owner := (landedRecord p.2).owner
  let listed := x.list.any (fun e => e.granule == p.1)
  let full := !listed && decide (16 ≤ x.list.length)
  { list :=
      if listed then x.list.map (fun e => if e.granule = p.1 then { e with owner := owner } else e)
      else if full then x.list
      else x.list ++ [{ granule := p.1, owner := owner, cause := .record }]
    hold := if landedStateLost p.2 then x.hold.or (some p.1) else x.hold
    causes := x.causes ++ (if full then [.poisonFull] else []) ++
      if !landedStateLost p.2 then [.ownerLost] else if x.hold.isSome then [.cascade] else [] }

/-- Mode Control has taken these integrity causes in order (R198, R59): the first contains an OPERATIONAL part and is its
cause, a CONTAINED part keeps its own, and from a power warning on nothing changes. -/
def TakesCauses (causes : List Cause) (s t : State) : Prop :=
  if causes ≠ [] ∧ s.flush = .none ∧ (s.mode = .operational ∨ s.mode = .contained) then
    t.mode = .contained ∧ t.integrityMark = true ∧ (sourceOf t 6).pending = true ∧
      t.cause = if s.mode = .operational then causes.head? else s.cause
  else t.mode = s.mode ∧ t.cause = s.cause ∧ t.integrityMark = s.integrityMark

/-- What a landing does for the records that have lost a part, in slot order (R54 to R57, R198): the poison list, the hold
and the mode as the losses leave them, TAG_UNCORRECTABLE raised, and every grant of such a granule removed, with the
given count of its owner and the held count of its grantee. -/
def LandingPoisons (line : Nat) (r0 r1 r2 r3 : RecordRead) (s t : State) : Prop :=
  ∀ lost x, lost = granulesWith landedLost line r0 r1 r2 r3 →
    x = lost.foldl oneMoreLoss { list := s.poisonList, hold := s.hold, causes := [] } →
    t.poisonList = x.list ∧ t.hold = x.hold ∧ TakesCauses x.causes s t ∧
    (lost ≠ [] → (sourceOf t 4).pending = true) ∧
    ((lost = [] ∨ tblWf s.grants = true) → ∀ gone,
      gone = s.grants.filter (fun p => (lost.map (·.1)).contains p.2.granule) →
      t.grants = s.grants.filter (fun p => !(lost.map (·.1)).contains p.2.granule) ∧
      ∀ d, dom t d = { dom s d with
        given := (dom s d).given - (gone.filter (fun p => p.2.owner == d)).length
        held := (dom s d).held - (gone.filter (fun p => p.2.grantee == d)).length })

/-- The fill f has landed in way w of its set with these readings (R48, R50, R52): the way holds the four records as the
check leaves them, dirty if it changed one, the fill has left the table, and its waiters are released. -/
def Landed (f : Fill) (w : Nat) (r0 r1 r2 r3 : RecordRead) (s t : State) : Prop :=
  tblGet t.ways (8 * (f.line % 256) + w) = some
    { line := f.line
      records := { r0 := landedRecord r0, r1 := landedRecord r1, r2 := landedRecord r2, r3 := landedRecord r3 }
      dirty := landedChanged r0 || landedChanged r1 || landedChanged r2 || landedChanged r3 } ∧
  (∀ x, x ≠ 8 * (f.line % 256) + w → tblGet t.ways x = tblGet s.ways x) ∧
  t.fills = s.fills.filter (fun x => x.serial != f.serial) ∧
  t.missQueue = s.missQueue.map (fun m => if m.line = f.line then { m with released := true } else m) ∧
  t.completions = s.completions ∧ (∀ c, chan t c = chan s c) ∧
  LandingCounted f.line r0 r1 r2 r3 s t ∧ LandingPoisons f.line r0 r1 r2 r3 s t

/-- The fill f has failed (R49): its waiters are answered TAG_UNAVAILABLE, in the order in which they came to the Miss
Queue (log entry 39), it has left the table, TAG_FETCH_FAILED is raised, and no way, domain or channel changes. -/
def FillFailed (f : Fill) (s t : State) : Prop :=
  t.completions = s.completions ++
    (s.missQueue.filter (fun m => m.line == f.line && !m.released)).map
      (fun m => refusalOf m.request .tagUnavailable) ∧
  t.missQueue = s.missQueue.filter (fun m => !(m.line == f.line && !m.released)) ∧
  t.fills = s.fills.filter (fun x => x.serial != f.serial) ∧ (sourceOf t 5).pending = true ∧
  t.ways = s.ways ∧ (∀ d, dom t d = dom s d) ∧ ∀ c, chan t c = chan s c

/-! ### Write-backs (R45, R46, R60 to R62) -/

/-- The write-back outstanding under o's tag has ended at way v of this key (R42, R45, R46): its tag is free, and the way
is clean if the write was OK and no record changed since its issue. -/
def afterWriteBack (o : Outstanding) (key : Nat) (v : Way) (ok : Bool) (s : State) : State :=
  { s with
    outstanding := s.outstanding.filter (fun x => x.tag != o.tag)
    ways := if ok && !o.changed then tblPut s.ways key { v with dirty := false } else s.ways }

/-- What a write-back of the whole cache goes by once the write-back of a line has ended (R61, R62, R202; log entry 42):
one of its own that failed is passed over from now on, and one outstanding when it began is its own no more. -/
def afterEnd (line : Nat) (ok : Bool) (x : CacheWrites) : CacheWrites :=
  { failed := if ok = true ∨ line ∈ x.earlier then x.failed else line :: x.failed, earlier := x.earlier.erase line }

/-- Nothing of the cache is left to write back (R62, R202): no write-back is outstanding or waits for a tag, and every
dirty line is one whose own write-back has failed. -/
abbrev AllWritten (failed : List Nat) (s : State) : Prop :=
  writeBackCount s = 0 ∧ ∀ p ∈ s.ways, p.2.dirty = true → p.2.line ∈ failed

/-- The next dirty ways, as many as make 16 write-backs, are being written back (R62, R202; log entries 33 and 35): `s` is
the state before their issue. -/
def NextGo (failed : List Nat) (s t : State) : Prop :=
  ∀ p ∈ (s.ways.filter (fun p => p.2.dirty && !failed.contains p.2.line && !writeBackPending s p.1)).take
    (16 - writeBackCount s), writeBackPending t p.1 = true

/-! ### Stops by RESET_ENGINES (R173) -/

/-- Channel y once channel c has taken RESET_ENGINES, before any command stops (R168). -/
def engineTaken (c : Nat) (s : State) (y : Nat) : Channel :=
  if y = c then { chan s y with control := (chan s y).control.tail, reserved := (chan s y).reserved + 1 } else chan s y

/-- A channel whose command has stopped within a warm reset (R173): its reservation and its claim are released, and no
response is made. -/
def stoppedInReset (ch : Channel) : Channel :=
  { ch with active := none, stop := false, claim := none, reserved := ch.reserved - 1 }

/-- The drains that the POWER_WARN edge withdraws with what it abandons (R87, R202). -/
def abandonedUsers : List DrainUser :=
  .request :: .warmReset :: [0, 1, 2, 3].flatMap (fun x => [.command x, .clearance x, .group x])

/-- The value word that QUERY_GRANULES gives for a record (R181). -/
def recordValue (r : TagRecord) : Nat :=
  gstateCode r.state + 2 ^ 16 * (r.owner.getD 65535 % 2 ^ 16) + 2 ^ 32 * boolBit r.pinned +
    2 ^ 40 * boolBit r.dirty + 2 ^ 48 * (r.count % 2 ^ 8)

/-- The record that FORMAT writes for granule g with the tag region at T (R29, R34): RESERVED inside it, OPEN outside
it. -/
def formatted (T g : Nat) (s : State) : TagRecord :=
  { owner := some 0, state := if T ≤ g ∧ g < T + tagRegionSize s then .gReserved else .gOpen, pinned := false
    dirty := false, count := 0 }

/-- FORMAT's write of a tag line has been produced (R10, R34): it waits for a tag, or is outstanding under one and
stands offered as a write of the line's four records at the line's address. -/
def FormatLineGoes (T line : Nat) (t : State) : Prop :=
  .formatLine line ∈ t.tagWaits ∨
    ∃ o ∈ t.outstanding, o.job = .formatLine line ∧
      { tag := o.tag, kind := .write, domain := 0, address := t.base + 4096 * T + 64 * line, mask := 0
        data := .tagLine
          { r0 := formatted T (4 * line) t, r1 := formatted T (4 * line + 1) t
            r2 := formatted T (4 * line + 2) t, r3 := formatted T (4 * line + 3) t } } ∈ t.offers

/-! ### The span (R18 to R20) -/

/-- A base and a size that the straps can give and that fit with the aperture below 2^46 (R18, R19). -/
def SpanLegal (s : State) : Prop :=
  (∃ k, k ≤ 960 ∧ s.base = Config.gib64 * k) ∧ (∃ k, k ≤ 4 ∧ s.size = Config.gib256 * 2 ^ k) ∧
    s.base + s.size + Config.apertureBytes ≤ Config.addressEnd

/-! ### The forms that every step keeps -/

/-- An indexed table in its one form: indices strictly rising, no entry equal to what its index holds when it is
not listed. -/
def TableForm {α : Type} (d : Nat → α) (t : Table α) : Prop := tblWf t = true ∧ ∀ p ∈ t, p.2 ≠ d p.1

/-- An indexed table whose indices are strictly rising and below a bound. -/
def TableBelow {α : Type} (n : Nat) (t : Table α) : Prop := tblWf t = true ∧ ∀ p ∈ t, p.1 < n

/-- The tables of the part are in their one form; no queue, list or counter holds more than its block has places (the
capacities of 1.3 and R184); every channel keeps a response slot for its active work command and one for the warm
reset it owns (R165, R168, R173); every fill's way and every set's order name ways of the set (R40, R41); no guest's
entry is ROOT (R90); every notice source has one of the four classes and is pending if it is notified (R189); and no request stands produced
and not issued between steps (R10). -/
structure Sound (s : State) : Prop where
  domains      : TableForm Domain.resetOf s.domains
  channels     : TableForm (fun _ => Channel.reset) s.channels
  slots        : TableForm (fun _ => Slot.reset) s.slots
  regions      : TableForm (fun _ => Region.reset) s.regions
  notices      : TableForm Source.resetOf s.notices
  results      : TableForm (fun _ => LastResult.reset) s.results
  lru          : TableForm (fun _ => lruReset) s.lru
  grants       : TableBelow Config.grantEntries s.grants
  inFlight     : TableBelow Config.inFlightEntries s.inFlight
  units        : TableBelow Config.scrubUnits s.units
  ways         : TableBelow (Config.cacheWays * Config.cacheSets) s.ways
  orders       : ∀ p ∈ s.lru, p.1 < Config.cacheSets ∧ p.2.Perm lruReset
  fillWays     : ∀ f ∈ s.fills, ∀ w ∈ f.way.toList, w < Config.cacheWays
  guests       : ∀ p ∈ s.domains, p.1 ≠ 0 → p.2.state ≠ .root
  queues       : ∀ p ∈ s.channels, p.2.control.length ≤ Config.queueDepth ∧ p.2.work.length ≤ Config.queueDepth
  responses    : ∀ p ∈ s.channels, p.2.ready.length + p.2.reserved ≤ Config.responseSlots
  reservations : ∀ p ∈ s.channels, p.2.active ≠ none → 1 ≤ p.2.reserved
  resetSlot    : ∀ w ∈ s.warm.toList,
    (if (chan s w.channel).active = none then 1 else 2) ≤ (chan s w.channel).reserved
  dirtyQueues  : ∀ p ∈ s.slots, p.2.queue.length ≤ Config.trackQueue
  counters     : ∀ p ∈ s.domains, p.2.violations ≤ Config.violationMax
  log          : s.log.length ≤ Config.logRecords
  poison       : s.poisonList.length ≤ Config.poisonEntries
  fills        : s.fills.length ≤ Config.fillEntries
  misses       : s.missQueue.length ≤ Config.missEntries
  requests     : s.requests.length ≤ Config.requestQueue
  correct      : s.corrected ≤ Config.correctedMax
  sources      : ∀ p ∈ s.notices, p.2.cls ≤ 3 ∧ (p.2.notified = true → p.2.pending = true)
  produced     : s.produced = []

end Sys2Proof.Machine
end

