-- ==== Sys2Proof/WellFormed.lean ====
section
/-!
DEFINITION. The checks of a command: what a command may name for it to be one of its row (R9, R10, R139, R166).
A command that fails a check stands for no event of the part; its meaning leaves the state as it is.
-/

namespace Sys2Proof

/-- The own-request class and the tags of the classes (R10): `lo` and the number of tags. -/
def ReqClass.tagRange : ReqClass → Nat × Nat
  | .forwarded => (0, 256)
  | .fill => (256, 16)
  | .writeBack => (272, 32)
  | .formatWrite => (304, 32)
  | .zeroWrite => (336, 256)
  | .harvestWrite => (592, 16)

/-- Whether a downstream tag is one of a class (R10). -/
def ReqClass.hasTag (cls : ReqClass) (tag : Fin 1024) : Bool :=
  decide (cls.tagRange.1 ≤ tag.val ∧ tag.val < cls.tagRange.1 + cls.tagRange.2)

/-- Whether a downstream tag is one of the part's own requests (R10): 256 to 607. -/
def isOwnTag (tag : Fin 1024) : Bool := decide (256 ≤ tag.val ∧ tag.val < 608)

/-- Whether R166 gives the root access of a kind to an aperture line a behaviour of its own: a WRITE of a submit
line, a READ of a response line or of the identity line. -/
def isOwnAccess (kind : AccessKind) (line : Fin 1024) : Bool :=
  match kind with
  | .write => decide (line.val = 0 ∨ line.val = 64 ∨ line.val = 128 ∨ line.val = 192)
  | .read => decide (line.val = 1 ∨ line.val = 65 ∨ line.val = 129 ∨ line.val = 193 ∨ line.val = 960)
  | .writeMasked => false

/-- The downstream tag of an own request that a command names, if it names one. -/
def Instr.ownTag : Instr → Option (Fin 1024)
  | .ownRequestTimeout tag => some tag
  | .heldTagRelease tag => some tag
  | .fillReadCompletion tag _ => some tag
  | .writeBackCompletion tag _ => some tag
  | .formatWriteCompletion tag _ => some tag
  | .zeroWriteCompletion tag _ => some tag
  | .harvestWriteCompletion tag _ => some tag
  | _ => none

/-- The checks of a command. -/
def Instr.wellFormed : Instr → Bool
  | .ownRequestTimeout tag => isOwnTag tag
  | .heldTagRelease tag => isOwnTag tag
  | .fillReadCompletion tag _ => ReqClass.fill.hasTag tag
  | .writeBackCompletion tag _ => ReqClass.writeBack.hasTag tag
  | .formatWriteCompletion tag _ => ReqClass.formatWrite.hasTag tag
  | .zeroWriteCompletion tag _ => ReqClass.zeroWrite.hasTag tag
  | .harvestWriteCompletion tag _ => ReqClass.harvestWrite.hasTag tag
  | .downstreamTagGrant cls => cls != .forwarded
  | .apertureOtherWrite _ kind line _ _ => !isOwnAccess kind line
  | .domainRequestWrite _ domain _ _ _ => domain != 0
  | .domainRequestRead _ domain => domain != 0
  | _ => true

end Sys2Proof
end

