-- ==== Sys2Proof/Certificates/Slice0/Obligations.lean ====
section
/-!
DEFINITION. The statements about the part, for the provers.
-/

open Sys2Proof Sys2Proof.Machine

/-! ### Domain commands (5.2) -/

/-- CREATE refuses bad parameters and a domain in use, and otherwise sets the entry to PREPARING with its values
(R91, R168, R169, R170). -/
def Obligations.CreateBringsAFreeDomainIntoUse : Prop :=
  ∀ (c : Fin 4) (b : Line) (s : State), TakesControl .create c.val b s →
    ∃ t, exec (.create c) s = .next t ∧
      if wordA b = 0 ∨ 511 < wordA b ∨ granuleCount s < wordB b ∨ 15 < wordC b then
        OnlyAnswered c.val b .parameter {} s t
      else if (dom s (wordA b)).state ≠ .free then OnlyAnswered c.val b .domainInUse {} s t
      else
        Answered c.val b .done { w0 := 1 } s t ∧ NoticesKept c.val s t ∧
          DomainNow (wordA b)
            { dom s (wordA b) with
              state := .preparing, quota := wordB b, threshold := wordC b, violations := 0, firstAddress := none }
            s t ∧
          Untouched s { t with domains := s.domains }

/-- START, PAUSE, RESUME and UNFENCE move a domain from the one state they accept to the next (R92).  The rule
says: "The response is DONE, with the state before the change in value word 0 and the state after it in value
word 1." -/
def Obligations.DomainCommandsMoveOneState : Prop :=
  ∀ (c : Fin 4) (b : Line) (s : State) (cmd : Cmd) (old new : DState) (clears : Bool),
    (cmd, old, new, clears) ∈
      [(Cmd.start, DState.preparing, DState.running, false), (.pause, .running, .paused, false),
        (.resume, .paused, .running, false), (.unfence, .fenced, .paused, true)] →
    TakesControl cmd c.val b s →
    ∃ t, exec (rowOf cmd c) s = .next t ∧
      if 511 < wordA b then OnlyAnswered c.val b .parameter {} s t
      else if wordA b = 0 ∨ (dom s (wordA b)).state ≠ old then OnlyAnswered c.val b .domainState {} s t
      else
        Answered c.val b .done { w0 := dstateCode old, w1 := dstateCode new } s t ∧ NoticesKept c.val s t ∧
          DomainNow (wordA b)
            { dom s (wordA b) with
              state := new
              violations := if clears then 0 else (dom s (wordA b)).violations
              firstAddress := if clears then none else (dom s (wordA b)).firstAddress } s t ∧
          Untouched s { t with domains := s.domains }

/-- SET_QUOTA and SET_FENCE change one field, and SET_FENCE fences a domain whose counter meets the threshold
(R93, R94, R101, R169, R170).  MODEL'S CHOICE, log entry 17: PARAMETER is tested before DOMAIN_STATE (the rules
give no order). -/
def Obligations.SetQuotaAndSetFenceChangeOneField : Prop :=
  (∀ (c : Fin 4) (b : Line) (s : State), TakesControl .setQuota c.val b s →
    ∃ t, exec (.setQuota c) s = .next t ∧
      if 511 < wordA b ∨ granuleCount s < wordB b then OnlyAnswered c.val b .parameter {} s t
      else if (dom s (wordA b)).state = .free ∨ (dom s (wordA b)).state = .retiring ∨
          (dom s (wordA b)).state = .root then OnlyAnswered c.val b .domainState {} s t
      else
        Answered c.val b .done { w0 := (dom s (wordA b)).quota, w1 := (dom s (wordA b)).owned } s t ∧
          NoticesKept c.val s t ∧ DomainNow (wordA b) { dom s (wordA b) with quota := wordB b } s t ∧
          Untouched s { t with domains := s.domains }) ∧
  (∀ (c : Fin 4) (b : Line) (s : State), TakesControl .setFence c.val b s →
    ∃ t, exec (.setFence c) s = .next t ∧
      if 511 < wordA b ∨ 15 < wordB b then OnlyAnswered c.val b .parameter {} s t
      else if (dom s (wordA b)).state = .free ∨ (dom s (wordA b)).state = .retiring ∨
          (dom s (wordA b)).state = .root then OnlyAnswered c.val b .domainState {} s t
      else if wordB b ≠ 0 ∧ (dom s (wordA b)).state ≠ .fenced ∧ wordB b ≤ (dom s (wordA b)).violations then
        Answered c.val b .done { w0 := (dom s (wordA b)).threshold, w1 := 1 } s t ∧
          DomainNow (wordA b) { dom s (wordA b) with threshold := wordB b, state := .fenced } s t ∧
          (sourceOf t 2).pending = true ∧
          (∀ n, n ≠ 2 → n ≠ 7 + c.val → (sourceOf t n).pending = (sourceOf s n).pending) ∧
          Untouched s { t with domains := s.domains }
      else
        Answered c.val b .done { w0 := (dom s (wordA b)).threshold, w1 := 0 } s t ∧ NoticesKept c.val s t ∧
          DomainNow (wordA b) { dom s (wordA b) with threshold := wordB b } s t ∧
          Untouched s { t with domains := s.domains })

/-- CLEAR_DOMAIN_COUNTERS zeroes the counter and the address in every state; DOMAIN_STATUS reads the whole entry
(R95, R96).  The rule says: "CLEAR_DOMAIN_COUNTERS(domain) sets the domain's violation counter to 0 and makes
its first-violation address absent, in one step at the entry." -/
def Obligations.DomainCountersAreClearedAndStatusReadsTheEntry : Prop :=
  (∀ (c : Fin 4) (b : Line) (s : State), TakesControl .clearDomainCounters c.val b s →
    ∃ t, exec (.clearDomainCounters c) s = .next t ∧
      if 511 < wordA b then OnlyAnswered c.val b .parameter {} s t
      else
        Answered c.val b .done
          { w0 := (dom s (wordA b)).violations
            w1 := ((dom s (wordA b)).firstAddress).getD (2 ^ 64 - 1) } s t ∧
          NoticesKept c.val s t ∧
          DomainNow (wordA b) { dom s (wordA b) with violations := 0, firstAddress := none } s t ∧
          Untouched s { t with domains := s.domains }) ∧
  (∀ (c : Fin 4) (b : Line) (s : State), TakesControl .domainStatus c.val b s →
    ∃ t, exec (.domainStatus c) s = .next t ∧
      if 511 < wordA b then OnlyAnswered c.val b .parameter {} s t
      else
        OnlyAnswered c.val b .done
          { w0 := dstateCode (dom s (wordA b)).state + 2 ^ 8 * boolBit (dom s (wordA b)).retireActive +
              2 ^ 16 * ((dom s (wordA b)).violations % 2 ^ 8) + 2 ^ 24 * ((dom s (wordA b)).threshold % 2 ^ 8)
            w1 := (dom s (wordA b)).quota
            w2 := (dom s (wordA b)).owned
            w3 := (dom s (wordA b)).given % 2 ^ 16 + 2 ^ 16 * ((dom s (wordA b)).held % 2 ^ 16) +
              2 ^ 32 * (((dom s (wordA b)).slot).getD 255 % 2 ^ 8)
            w4 := ((dom s (wordA b)).firstAddress).getD (2 ^ 64 - 1) } s t)

/-! ### Grant, track and violation commands (7.5, 8.5, 10.2) -/

/-- ACTIVATE_GRANT makes an OFFERED entry ACTIVE; GRANT_READ returns an entry and the number in use (R146,
R148).  MODEL'S CHOICE, log entry 41: the done, remaining and next-granule fields of these responses are 0. -/
def Obligations.ActivateGrantAndGrantReadAnswerByTheEntry : Prop :=
  (∀ (c : Fin 4) (b : Line) (s : State), TakesControl .activateGrant c.val b s →
    ∃ t, exec (.activateGrant c) s = .next t ∧
      if 1024 ≤ wordA b then OnlyAnswered c.val b .parameter {} s t
      else match grantAt s (wordA b) with
        | none => OnlyAnswered c.val b .noEntry {} s t
        | some g =>
          if g.state = .offered then
            Answered c.val b .done
              { w0 := g.granule, w1 := grantWord g.owner g.grantee g.readWrite (some .active) } s t ∧
              NoticesKept c.val s t ∧ grantAt t (wordA b) = some { g with state := .active } ∧
              (∀ i, i ≠ wordA b → grantAt t i = grantAt s i) ∧ Untouched s { t with grants := s.grants }
          else
            OnlyAnswered c.val b .grantState
              { w0 := g.granule, w1 := grantWord g.owner g.grantee g.readWrite (some g.state) } s t) ∧
  (∀ (c : Fin 4) (b : Line) (s : State), TakesControl .grantRead c.val b s →
    ∃ t, exec (.grantRead c) s = .next t ∧
      if 1024 ≤ wordA b then OnlyAnswered c.val b .parameter {} s t
      else match grantAt s (wordA b) with
        | none => OnlyAnswered c.val b .noEntry { w2 := s.grants.length } s t
        | some g =>
          OnlyAnswered c.val b .done
            { w0 := g.granule, w1 := grantWord g.owner g.grantee g.readWrite (some g.state)
              w2 := s.grants.length } s t)

/-- TRACK_STOP makes a slot IDLE and clears its domain's slot field; TRACK_STATUS reads a slot (R162, R163).
MODEL'S CHOICE, log entry 41: the done, remaining and next-granule fields of these responses are 0. -/
def Obligations.TrackStopReleasesASlotAndTrackStatusReadsIt : Prop :=
  (∀ (c : Fin 4) (b : Line) (s : State), TakesControl .trackStop c.val b s → Quiet s →
    ∃ t, exec (.trackStop c) s = .next t ∧
      if 3 < wordA b then OnlyAnswered c.val b .parameter {} s t
      else if (slotOf s (wordA b)).state = .idle then OnlyAnswered c.val b .slotState {} s t
      else (slotOf s (wordA b)).collecting = none →
        Answered c.val b .done
          { w0 := ((slotOf s (wordA b)).domain).getD 0, w1 := (slotOf s (wordA b)).queue.length } s t ∧
          NoticesKept c.val s t ∧
          (slotOf t (wordA b)).state = .idle ∧ (slotOf t (wordA b)).domain = none ∧
          (slotOf t (wordA b)).queue = [] ∧ (slotOf t (wordA b)).fillMark = (slotOf s (wordA b)).fillMark ∧
          (∀ k, k ≠ wordA b → slotOf t k = slotOf s k) ∧
          (∀ d, (slotOf s (wordA b)).domain = some d → DomainNow d { dom s d with slot := none } s t) ∧
          Untouched s { t with slots := s.slots, domains := s.domains }) ∧
  (∀ (c : Fin 4) (b : Line) (s : State), TakesControl .trackStatus c.val b s →
    ∃ t, exec (.trackStatus c) s = .next t ∧
      if 3 < wordA b then OnlyAnswered c.val b .parameter {} s t
      else
        OnlyAnswered c.val b .done
          { w0 := slotStateCode (slotOf s (wordA b)).state +
              2 ^ 16 * (((slotOf s (wordA b)).domain).getD 65535 % 2 ^ 16) +
              2 ^ 32 * ((slotOf s (wordA b)).fillMark % 2 ^ 16)
            w1 := (slotOf s (wordA b)).queue.length
            w2 := (((slotOf s (wordA b)).queue.head?).map (·.granule)).getD (2 ^ 64 - 1)
            w3 := ((slotOf s (wordA b)).collecting).getD (2 ^ 64 - 1) } s t)

/-- VIOLATION_POP returns and removes the oldest record of the Violation Log, or answers NO_ENTRY (R187, R181,
R168). -/
def Obligations.ViolationPopRemovesTheOldestRecord : Prop :=
  ∀ (c : Fin 4) (b : Line) (s : State), TakesControl .violationPop c.val b s →
    ∃ t, exec (.violationPop c) s = .next t ∧
      match s.log with
      | [] => OnlyAnswered c.val b .noEntry {} s t
      | v :: rest =>
        Answered c.val b .done { w0 := v.address, w1 := violationWord v, w2 := rest.length } s t ∧
          NoticesKept c.val s t ∧ t.log = rest ∧ Untouched s { t with log := s.log }

/-! ### Notice commands (10.6) -/

/-- NOTICE_CONFIG sets one class, NOTICE_CLEAR clears the marks of a set, NOTICE_STATUS reads all fourteen
sources (R191, R192, R193).  NOTICE_CLEAR: PARAMETER for a bit above 13, otherwise DONE with the sources of the
set that were pending, and their marks clear (MODEL'S CHOICE, log entry 27: CHANNEL_DONE of the channel itself
is cleared first and raised by the response, so it ends pending). MODEL'S CHOICE, log entry 27: NOTICE_CONFIG's
word 1 and NOTICE_STATUS's word 0 show the marks as they stood before the response raised CHANNEL_DONE. -/
def Obligations.NoticeCommandsChangeClassesAndMarks : Prop :=
  (∀ (c : Fin 4) (b : Line) (s : State), TakesControl .noticeConfig c.val b s →
    ∃ t, exec (.noticeConfig c) s = .next t ∧
      if 13 < wordA b ∨ 3 < wordB b then OnlyAnswered c.val b .parameter {} s t
      else
        Answered c.val b .done
          { w0 := (sourceOf s (wordA b)).cls
            w1 := boolBit (sourceOf s (wordA b)).pending + 2 * boolBit (sourceOf s (wordA b)).notified } s t ∧
          (sourceOf t (wordA b)).cls = wordB b ∧
          (∀ n, n ≠ wordA b → (sourceOf t n).cls = (sourceOf s n).cls) ∧
          (∀ n, n ≠ 7 + c.val → (sourceOf t n).pending = (sourceOf s n).pending) ∧ Untouched s t) ∧
  (∀ (c : Fin 4) (b : Line) (s : State), TakesControl .noticeClear c.val b s →
    ∃ t, exec (.noticeClear c) s = .next t ∧
      if 2 ^ 14 ≤ wordA b then OnlyAnswered c.val b .parameter {} s t
      else
        (∃ w, Answered c.val b .done { w0 := w } s t ∧
          ∀ n, w.testBit n = ((wordA b).testBit n && (sourceOf s n).pending)) ∧
          (∀ n, (wordA b).testBit n = true → n ≠ 7 + c.val →
            (sourceOf t n).pending = false ∧ (sourceOf t n).notified = false) ∧
          (∀ n, (wordA b).testBit n = false → n ≠ 7 + c.val →
            (sourceOf t n).pending = (sourceOf s n).pending) ∧
          (∀ n, (sourceOf t n).cls = (sourceOf s n).cls) ∧ Untouched s t) ∧
  (∀ (c : Fin 4) (b : Line) (s : State), TakesControl .noticeStatus c.val b s →
    (∀ n, n < 14 → (sourceOf s n).cls ≤ 3) →
    ∃ t w, exec (.noticeStatus c) s = .next t ∧
      OnlyAnswered c.val b .done
        { w0 := w, w1 := (s.noticeSlot.map (·.source)).getD (2 ^ 64 - 1) } s t ∧
      ∀ n, n < 14 → w / 16 ^ n % 16 =
        (sourceOf s n).cls + 4 * boolBit (sourceOf s n).pending + 8 * boolBit (sourceOf s n).notified)

/-! ### Regions and Mode Control (chapter 11) -/

/-- REGION_CLEAR and REGION_LOCKDOWN act on a SET entry alone, and FREEZE stops both (R197, R195, R181).
MODEL'S CHOICE, log entry 2: what an EMPTY entry holds in the first three fields, which every response here then
reports. -/
def Obligations.RegionClearAndLockdownTakeASetEntry : Prop :=
  ∀ (c : Fin 4) (b : Line) (s : State) (cmd : Cmd) (new : RegionState),
    (cmd, new) ∈ [(Cmd.regionClear, RegionState.empty), (.regionLockdown, .lockedDown)] →
    TakesControl cmd c.val b s →
    ∃ t, exec (rowOf cmd c) s = .next t ∧
      if 7 < wordA b then OnlyAnswered c.val b .parameter {} s t
      else if s.freeze then
        OnlyAnswered c.val b .frozen
          { w0 := (regionOf s (wordA b)).first, w1 := regionWord (regionOf s (wordA b)) } s t
      else
        match (regionOf s (wordA b)).state with
        | .empty =>
          OnlyAnswered c.val b .noEntry
            { w0 := (regionOf s (wordA b)).first, w1 := regionWord (regionOf s (wordA b)) } s t
        | .pending =>
          OnlyAnswered c.val b .regionConflict
            { w0 := (regionOf s (wordA b)).first, w1 := regionWord (regionOf s (wordA b)) } s t
        | .lockedDown =>
          OnlyAnswered c.val b .locked
            { w0 := (regionOf s (wordA b)).first, w1 := regionWord (regionOf s (wordA b)) } s t
        | .set =>
          Answered c.val b .done
            { w0 := (regionOf s (wordA b)).first
              w1 := regionWord { regionOf s (wordA b) with state := new } } s t ∧
            NoticesKept c.val s t ∧ regionOf t (wordA b) = { regionOf s (wordA b) with state := new } ∧
            (∀ i, i ≠ wordA b → regionOf t i = regionOf s i) ∧ Untouched s { t with regions := s.regions }

/-- FREEZE sets its flag, and no command but COLD_RESET clears it (R197, R204). -/
def Obligations.FreezeSetsItsFlagUntilColdReset : Prop :=
  (∀ (c : Fin 4) (b : Line) (s : State), TakesControl .freeze c.val b s →
    ∃ t, exec (.freeze c) s = .next t ∧
      Answered c.val b .done { w0 := if s.freeze then 0 else 1 } s t ∧ NoticesKept c.val s t ∧
      t.freeze = true ∧ Untouched s { t with freeze := s.freeze }) ∧
  (∀ (i : Instr) (s t : State), (∀ b k, i ≠ .coldReset b k) → s.freeze = true → exec i s = .next t →
    t.freeze = true)

/-- An assertion of PLATFORM_FAULT contains an OPERATIONAL part under policy CONTAIN; SET_FAULT_POLICY sets the
policy (R201, R198, R202).  MODEL'S CHOICE, log entry 38: SET_FAULT_POLICY tests its value before FREEZE.
MODEL'S CHOICE, log entry 41: the done, remaining and next-granule fields of its response are 0. -/
def Obligations.PlatformFaultContainsUnderItsPolicy : Prop :=
  (∀ (c : Fin 4) (b : Line) (s : State), TakesControl .setFaultPolicy c.val b s →
    ∃ t, exec (.setFaultPolicy c) s = .next t ∧
      if wordA b ≠ 1 ∧ wordA b ≠ 2 then OnlyAnswered c.val b .parameter {} s t
      else if s.freeze then OnlyAnswered c.val b .frozen {} s t
      else
        Answered c.val b .done { w0 := policyCode s.policy } s t ∧ NoticesKept c.val s t ∧
          policyCode t.policy = wordA b ∧ Untouched s { t with policy := s.policy }) ∧
  (∀ s : State, ∃ t, exec .platformFaultAssert s = .next t ∧ t.faultLine = true ∧
    if s.faultLine = false ∧ s.mode = .operational ∧ s.policy = .contain ∧ s.flush = .none then
      t.mode = .contained ∧ t.cause = some .platformFault ∧ (sourceOf t 6).pending = true ∧
        Untouched s { t with mode := s.mode, cause := s.cause, faultLine := s.faultLine } ∧
        (∀ x, chan t x = chan s x)
    else Untouched s { t with faultLine := s.faultLine } ∧ (∀ x, chan t x = chan s x) ∧
      (∀ n, (sourceOf t n).pending = (sourceOf s n).pending)) ∧
  (∀ s : State, exec .platformFaultDeassert s = .next { s with faultLine := false }) ∧
  (∀ (k : Fin 1024) (n : Fin 8) (s t : State), exec (.coldReset k n) s = .next t → t.policy = .contain)

/-- CONTAIN enters CONTAINED with cause COMMAND; RESUME_PART leaves it when its three tests pass (R199, R200,
R198).  MODEL'S CHOICE, log entry 41: the done, remaining and next-granule fields of these responses are 0. -/
def Obligations.ContainAndResumeMoveTheMode : Prop :=
  (∀ (c : Fin 4) (b : Line) (s : State), TakesControl .contain c.val b s →
    ∃ t, exec (.contain c) s = .next t ∧
      if s.mode = .operational then
        Answered c.val b .done {} s t ∧ t.mode = .contained ∧ t.cause = some .command ∧
          (sourceOf t 6).pending = true ∧
          (∀ n, n ≠ 6 → n ≠ 7 + c.val → (sourceOf t n).pending = (sourceOf s n).pending) ∧
          Untouched s { t with mode := s.mode, cause := s.cause }
      else OnlyAnswered c.val b .mode {} s t) ∧
  (∀ (c : Fin 4) (b : Line) (s : State), TakesControl .resumePart c.val b s →
    ∃ t, exec (.resumePart c) s = .next t ∧
      if s.mode ≠ .contained ∨ s.integrityMark = true then
        OnlyAnswered c.val b .mode { w0 := causeCode s.cause } s t
      else if s.cause = some .platformFault ∧ s.faultLine = true then
        OnlyAnswered c.val b .lineAsserted { w0 := causeCode s.cause } s t
      else
        Answered c.val b .done { w0 := causeCode s.cause } s t ∧ NoticesKept c.val s t ∧
          t.mode = .operational ∧ t.cause = none ∧ Untouched s { t with mode := s.mode, cause := s.cause })

/-! ### The Integrity Checker's commands (3.5) -/

/-- ACK_INTEGRITY, CLEAR_INTEGRITY_COUNT, SET_CORRECTED_LIMIT, POISON_READ and PART_STATUS answer by their state
(R53, R57, R58, R203, R181, R34).  MODEL'S CHOICE, log entry 32: R34's total N/4, which R181 places nowhere,
stands in word 4. MODEL'S CHOICE, log entry 41: the done, remaining and next-granule fields of the first four
commands' responses are 0. -/
def Obligations.IntegrityCommandsAnswerAndPartStatusReads : Prop :=
  (∀ (c : Fin 4) (b : Line) (s : State), TakesControl .ackIntegrity c.val b s →
    ∃ t, exec (.ackIntegrity c) s = .next t ∧
      Answered c.val b .done { w0 := s.hold.getD (2 ^ 64 - 1) } s t ∧ NoticesKept c.val s t ∧ t.hold = none ∧
      Untouched s { t with hold := s.hold }) ∧
  (∀ (c : Fin 4) (b : Line) (s : State), TakesControl .clearIntegrityCount c.val b s →
    ∃ t, exec (.clearIntegrityCount c) s = .next t ∧
      Answered c.val b .done { w0 := s.corrected, w1 := s.firstCorrected.getD (2 ^ 64 - 1) } s t ∧
      NoticesKept c.val s t ∧ t.corrected = 0 ∧ t.firstCorrected = none ∧
      Untouched s { t with corrected := s.corrected, firstCorrected := s.firstCorrected }) ∧
  (∀ (c : Fin 4) (b : Line) (s : State), TakesControl .setCorrectedLimit c.val b s →
    ∃ t, exec (.setCorrectedLimit c) s = .next t ∧
      if wordA b < 1 ∨ 255 < wordA b then OnlyAnswered c.val b .parameter {} s t
      else
        Answered c.val b .done {} s t ∧ t.correctedLimit = wordA b ∧
          (wordA b ≤ s.corrected → (sourceOf t 3).pending = true) ∧
          (s.corrected < wordA b → NoticesKept c.val s t) ∧
          Untouched s { t with correctedLimit := s.correctedLimit }) ∧
  (∀ (c : Fin 4) (b : Line) (s : State), TakesControl .poisonRead c.val b s →
    ∃ t, exec (.poisonRead c) s = .next t ∧
      if 15 < wordA b then OnlyAnswered c.val b .parameter {} s t
      else match s.poisonList[wordA b]? with
        | none => OnlyAnswered c.val b .noEntry { w3 := s.poisonList.length } s t
        | some e =>
          OnlyAnswered c.val b .done
            { w0 := e.granule, w1 := e.owner.getD (2 ^ 64 - 1), w2 := poisonCauseCode e.cause
              w3 := s.poisonList.length } s t) ∧
  (∀ (c : Fin 4) (b : Line) (s : State), TakesControl .partStatus c.val b s →
    ∃ t, exec (.partStatus c) s = .next t ∧
      OnlyAnswered c.val b .done
        { w0 := modeCode s.mode + 2 ^ 8 * causeCode s.cause + 2 ^ 16 * boolBit s.freeze +
            2 ^ 24 * policyCode s.policy + 2 ^ 32 * (boolBit s.faultLine + 2 * boolBit s.warnLine) +
            2 ^ 40 * boolBit s.hold.isSome + 2 ^ 48 * (s.poisonList.length % 2 ^ 8)
          w1 := s.progress % 2 ^ 32 + 2 ^ 32 * (s.tagBase.getD (2 ^ 32 - 1) % 2 ^ 32)
          w2 := s.firstCorrected.getD (2 ^ 32 - 1) % 2 ^ 32 + 2 ^ 32 * (s.corrected % 2 ^ 8) +
            2 ^ 40 * (s.correctedLimit % 2 ^ 8)
          w3 := s.hold.getD (2 ^ 32 - 1) % 2 ^ 32 + 2 ^ 32 * ((256 - s.inFlight.length) % 2 ^ 16) +
            2 ^ 48 * ((1024 - s.grants.length) % 2 ^ 16)
          w4 := granuleCount s / 4 } s t)

/-! ### The queue of the block and the shape of a step -/

/-- A step runs the command at the front of the queue on the state with the queue's rest
(95_what_each_step_holds.md).  The queue of commands is the model's (log entry 4): one row of the table is one
step. -/
def Obligations.StepRunsTheFrontCommand : Prop :=
  ∀ (i : Instr) (rest : List Instr) (s : State), s.pending = i :: rest →
    step s = exec i { s with pending := rest }

/-- The model's choice (log entry 6): on an empty queue a step lets 1 µs pass and changes only timers (1.5, R12,
R80, R82, R84).  MODEL'S CHOICE, log entry 6: on an empty queue step answers a next state that differs from the
state before in timers alone: every In-Flight timer has risen by 1, up to 100 µs or, once orphaned, 1 ms; every
own request's timer by 1, up to 50 µs for a fill read and 100 µs for a write; every held tag's by 1, up to 1 ms.
-/
def Obligations.IdleStepLetsOneMicrosecondPass : Prop :=
  ∀ s : State, s.pending = [] → ∃ t, step s = .next t ∧
    { t with inFlight := s.inFlight, outstanding := s.outstanding, heldTags := s.heldTags } = s ∧
    (∀ i, tblGet t.inFlight i = (tblGet s.inFlight i).map (fun e =>
      { e with timer := min (e.timer + 1) (if e.orphaned then 1000 else 100) })) ∧
    t.inFlight.map (·.1) = s.inFlight.map (·.1) ∧
    t.outstanding = s.outstanding.map (fun o =>
      { o with timer := min (o.timer + 1) (if jobClass o.job = .fill then 50 else 100) }) ∧
    t.heldTags = s.heldTags.map (fun h => { h with timer := min (h.timer + 1) 1000 })

/-- Every command of the block, in every state, has a next state and leaves the queue of commands alone
(95_what_each_step_holds.md).  (A command whose event cannot happen in the state leaves it as it is: log entry
5.) -/
def Obligations.EveryCommandIsAnsweredAndLeavesTheQueue : Prop :=
  ∀ (i : Instr) (s : State), ∃ t, exec i s = .next t ∧ t.pending = s.pending

/-! ### What every step keeps -/

/-- Every step keeps the tables in their one form and the lists, queues and response slots that Sound bounds
within their sizes (1.3, R40, R47, R50, R53, R57, R90, R140, R152, R165, R186, R189). -/
def Obligations.EveryStepKeepsTheTablesSound : Prop :=
  ∀ s t : State, Sound s → step s = .next t → Sound t

/-- Every step keeps the span base a multiple of 64 GiB, the size one of five, and both below 2^46 (R18, R19,
R20). -/
def Obligations.EveryStepKeepsTheSpanLegal : Prop :=
  ∀ s t : State, SpanLegal s → step s = .next t → SpanLegal t

/-- The state right after reset is Sound, its span legal, and nothing in it can go on by itself (1.3, R18, R19,
R90, R111, R164, R176). -/
def Obligations.ResetStateIsSoundQuietAndLegal : Prop :=
  Sound State.reset ∧ SpanLegal State.reset ∧ Quiet State.reset

/-- COLD_RESET fixes B and the requested size from the straps, and no other command changes the span (R18).  The
rule says: "The part holds B and the requested size until the next cold reset." -/
def Obligations.SpanIsSampledOnlyAtColdReset : Prop :=
  (∀ (b : Fin 1024) (k : Fin 8) (s : State), ∃ t, exec (.coldReset b k) s = .next t ∧
    t.base = 64 * 2 ^ 30 * (if b.val ≤ 960 then b.val else 960) ∧
    t.requested = 256 * 2 ^ 30 * 2 ^ (if k.val ≤ 4 then k.val else 4)) ∧
  (∀ (i : Instr) (s t : State), (∀ b k, i ≠ .coldReset b k) → exec i s = .next t →
    t.base = s.base ∧ t.requested = s.requested ∧ t.size = s.size)

/-! ### Cold reset and the links (chapter 1) -/

/-- COLD_RESET leaves every table, queue and flag at its reset value, and the span legal and clamped (R15, R19,
R39, R62, R88, R111, R133, R151, R164, R176, R194, R204).  MODEL'S CHOICE, log entry 3: the upstream link is
down and the downstream link is up. The levels of the two platform lines, which are inputs (log entry 1), and
the model's queue stay. -/
def Obligations.ColdResetReturnsThePartToUnformatted : Prop :=
  ∀ (b : Fin 1024) (k : Fin 8) (s : State), ∃ t, exec (.coldReset b k) s = .next t ∧ SpanLegal t ∧
    (t.base + t.requested + 65536 ≤ 2 ^ 46 → t.size = t.requested) ∧
    (2 ^ 46 < t.base + t.requested + 65536 → t.size = 2 ^ 41) ∧
    t.mode = .unformatted ∧ t.cause = none ∧ t.integrityMark = false ∧ t.tagBase = none ∧ t.progress = 0 ∧
    t.tagsInUse = [] ∧ t.completions = [] ∧ t.noticeSlot = none ∧ t.outstanding = [] ∧ t.heldTags = [] ∧
    t.tagWaits = [] ∧ t.produced = [] ∧ t.txOffered = none ∧ t.txLast = none ∧ t.downOffered = none ∧ t.upLink = false ∧
    t.downLink = true ∧
    t.offers = [] ∧ t.lastClass = none ∧ t.stage = none ∧ t.inFlight = [] ∧ t.drains = [] ∧
    t.ways = [] ∧ (∀ x, lruOf t x = [0, 1, 2, 3, 4, 5, 6, 7]) ∧ t.fills = [] ∧ t.fillWaits = [] ∧
    t.missQueue = [] ∧ t.poisonings = [] ∧
    t.corrected = 0 ∧ t.correctedLimit = 16 ∧ t.firstCorrected = none ∧ t.hold = none ∧ t.poisonList = [] ∧
    (∀ d, dom t d = { Domain.reset with state := if d = 0 then .root else .free }) ∧ t.grants = [] ∧
    t.requests = [] ∧ t.running = none ∧ (∀ d, resultOf t d = LastResult.reset) ∧
    (∀ c, chan t c = Channel.reset) ∧ t.warm = none ∧ t.flush = .none ∧ t.units = [] ∧ t.lastServed = 3 ∧
    (∀ x, slotOf t x = Slot.reset) ∧ (∀ i, (regionOf t i).state = .empty) ∧
    t.freeze = false ∧ t.policy = .contain ∧ t.log = [] ∧
    (∀ n, (sourceOf t n).pending = false ∧ (sourceOf t n).notified = false ∧
      (sourceOf t n).cls = if 3 ≤ n ∧ n ≤ 6 then 3 else 2) ∧
    t.faultLine = s.faultLine ∧ t.warnLine = s.warnLine ∧ t.pending = s.pending

/-- A link reset drops what its port owes and keeps every other field; the downstream port keeps every issued
request (R13, R14, R6, R11, R85, R62).  MODEL'S CHOICE, log entry 26: nothing is offered while the downstream
link is down. -/
def Obligations.LinkResetsDropOrKeepWhatTheirPortHolds : Prop :=
  (∀ s : State, ∃ t, exec .upstreamLinkDown s = .next t ∧ t.upLink = false ∧ t.tagsInUse = [] ∧
    t.completions = [] ∧ t.stage = none ∧ t.missQueue = [] ∧
    (∀ i, tblGet t.inFlight i = (tblGet s.inFlight i).map (fun e => { e with suppress := true })) ∧
    (∀ d, d ∈ t.drains ↔ d.held = false ∧ d.members ≠ [] ∧ ∃ x ∈ s.drains, d = { x with held := false }) ∧
    Untouched s { t with
      upLink := s.upLink, tagsInUse := s.tagsInUse, completions := s.completions, stage := s.stage
      missQueue := s.missQueue, inFlight := s.inFlight, drains := s.drains } ∧
    (∀ c, chan t c = chan s c) ∧ (∀ n, s.noticeSlot = some n → t.noticeSlot = some n) ∧
    (∀ n, (sourceOf t n).cls = (sourceOf s n).cls ∧ (sourceOf t n).pending = (sourceOf s n).pending)) ∧
  (∀ s : State, s.upLink = false → ∃ t, exec .upstreamLinkUp s = .next t ∧ t.upLink = true ∧
    Untouched s { t with upLink := s.upLink } ∧ (∀ c, chan t c = chan s c) ∧
    (s.txOffered = none → s.completions ≠ [] → t.txOffered = some .completion)) ∧
  (∀ s : State, ∃ t, exec .downstreamLinkDown s = .next t ∧ t.downLink = false ∧ t.downOffered = none ∧
    t.offers = s.offers ∧ t.outstanding = s.outstanding ∧ t.heldTags = s.heldTags ∧ t.inFlight = s.inFlight ∧
    t.tagWaits = s.tagWaits ∧ Untouched s { t with downLink := s.downLink } ∧ ∀ c, chan t c = chan s c) ∧
  (∀ s : State, ∃ t, exec .downstreamLinkUp s = .next t ∧ t.downLink = true ∧
    t.offers = s.offers ∧ t.outstanding = s.outstanding ∧ t.heldTags = s.heldTags ∧ t.inFlight = s.inFlight ∧
    Untouched s { t with downLink := s.downLink } ∧ ∀ c, chan t c = chan s c)

/-- Completions leave in order and free their tags; the next notice is the candidate of highest class and lowest
number (R5, R6, R8, R190, R174).  MODEL'S CHOICE, log entry 37 (DEDUCED from R174): from a warm reset's clearing
step to its resumption the packet placed is not offered, and a completion that waits is. -/
def Obligations.UpstreamPacketsLeaveInTheirOrder : Prop :=
  (∀ (s : State) (x : Completion) (rest : List Completion), s.txOffered = some .completion →
    s.completions = x :: rest →
    ∃ t, exec .completionTaken s = .next t ∧ t.completions = rest ∧
      t.tagsInUse = (if x.duplicate then s.tagsInUse else s.tagsInUse.filter (· != x.tag)) ∧
      Untouched s { t with completions := s.completions, tagsInUse := s.tagsInUse } ∧
      (∀ c, chan t c = chan s c) ∧
      (s.upLink = true → rest ≠ [] → t.noticeSlot = none → t.txOffered = some .completion) ∧
      ((∀ w, s.warm = some w → w.stage = .settling) →
        s.upLink = true → s.txLast = some .completion → t.noticeSlot ≠ none → t.txOffered = some .notice)) ∧
  (∀ (s : State) (n : Notice), s.txOffered = some .notice → s.noticeSlot = some n →
    ∃ t, exec .noticePacketTaken s = .next t ∧ Untouched s t ∧ (∀ c, chan t c = chan s c) ∧
      (∀ x, (sourceOf t x).cls = (sourceOf s x).cls ∧ (sourceOf t x).pending = (sourceOf s x).pending) ∧
      (∀ m, t.noticeSlot = some m →
        m.source < 14 ∧ m.cls = (sourceOf s m.source).cls ∧ 1 ≤ m.cls ∧ (sourceOf s m.source).pending = true ∧
          (sourceOf s m.source).notified = false ∧ (sourceOf t m.source).notified = true ∧
          ∀ x, x < 14 → (sourceOf s x).pending = true → (sourceOf s x).notified = false →
            (sourceOf s x).cls ≤ 3 →
            (sourceOf s x).cls ≤ m.cls ∧ ((sourceOf s x).cls = m.cls → m.source ≤ x)) ∧
      ((∃ x, x < 14 ∧ (sourceOf s x).pending = true ∧ (sourceOf s x).notified = false ∧
          1 ≤ (sourceOf s x).cls ∧ (sourceOf s x).cls ≤ 3) → t.noticeSlot ≠ none) ∧
      ((∀ w, s.warm = some w → w.stage = .settling) → s.upLink = true → s.completions = [] → t.noticeSlot ≠ none →
        t.txOffered = some .notice) ∧
      (∀ w, s.warm = some w → w.stage ≠ .settling → t.txOffered ≠ some .notice ∧
        (s.upLink = true → s.completions ≠ [] → t.txOffered = some .completion)))

/-- The request offered leaves with its tag, and the next is of the first waiting class after its class in the
rotation (R9, R10, R11).  MODEL'S CHOICE, log entry 26 (DEDUCED): the class last served becomes the class of the
request at its taking, not at its being offered. -/
def Obligations.ExpanderTakesOffersInClassRotation : Prop :=
  ∀ (s : State) (x : Nat), s.downLink = true → s.downOffered = some x →
    ∃ t, exec .downstreamOfferTaken s = .next t ∧ t.offers = s.offers.filter (fun r => r.tag != x) ∧
      (∀ cls, tagInClass cls x = true → t.lastClass = some cls) ∧
      Untouched s { t with offers := s.offers, lastClass := s.lastClass } ∧ (∀ c, chan t c = chan s c) ∧
      (∀ cls k y, tagInClass cls x = true → t.downOffered = some y → tagInClass k y = true →
        (∃ r, t.offers.find? (fun r => tagInClass k r.tag) = some r ∧ r.tag = y) ∧
        ∀ r ∈ t.offers, ∀ k', tagInClass k' r.tag = true →
          (classIndex k + 5 - classIndex cls) % 6 ≤ (classIndex k' + 5 - classIndex cls) % 6) ∧
      ((∃ r ∈ t.offers, r.tag < 608) → t.downOffered ≠ none) ∧ (t.offers = [] → t.downOffered = none)

/-- A free tag of a class goes to the first request that waits for one, which is then offered under it with its
packet (R9, R10, R12, R25, R34, R45, R47, R125, R160, R183).  The tag line records are held in the packet as
records, not as bytes (log entry 13). -/
def Obligations.FreedTagGoesToTheFirstWaitingRequest : Prop :=
  ∀ (cls : ReqClass) (s : State) (job : OwnJob) (x : Nat),
    s.tagWaits.find? (fun j => jobClass j == cls) = some job → freeTag cls s = some x →
    ∃ t, exec (.downstreamTagGrant cls) s = .next t ∧ tagInClass cls x = true ∧
      t.tagWaits = s.tagWaits.erase job ∧
      t.outstanding = s.outstanding ++ [{ tag := x, job := job, changed := false, timer := 0 }] ∧
      (∃ p : DownRequest, t.offers = s.offers ++ [p] ∧ p.tag = x ∧ p.domain = 0 ∧ p.mask = 0 ∧
        match job with
        | .fill _ line =>
          p.kind = .read ∧ p.address = s.base + 4096 * s.tagBase.getD 0 + 64 * line ∧ p.data = .none
        | .writeBack key line =>
          p.kind = .write ∧ p.address = s.base + 4096 * s.tagBase.getD 0 + 64 * line ∧
            ∀ v, tblGet s.ways key = some v → p.data = .tagLine v.records
        | .formatLine line =>
          p.kind = .write ∧ p.address = s.base + 4096 * s.tagBase.getD 0 + 64 * line ∧
            ∀ T, s.tagBase = some T →
              p.data = .tagLine
                { r0 := formatted T (4 * line) s, r1 := formatted T (4 * line + 1) s
                  r2 := formatted T (4 * line + 2) s, r3 := formatted T (4 * line + 3) s }
        | .zeroLine u i =>
          p.kind = .write ∧ p.data = .line 0 ∧
            ∀ z, unitOf s u = some z → p.address = s.base + 4096 * z.granule + 64 * i
        | .harvest c =>
          p.kind = .write ∧ ∀ a k, (chan s c).active = some a → a.work = .trackCollect k →
            p.address = s.base + 4096 * k.buffer + 64 * k.lines ∧ p.data = .line (encodeHarvest k.group)) ∧
      (∀ y, tagInClass cls y = true → y < x →
        (∃ o ∈ s.outstanding, o.tag = y) ∨ (∃ h ∈ s.heldTags, h.tag = y)) ∧
      t.heldTags = s.heldTags ∧ t.inFlight = s.inFlight ∧ t.ways = s.ways ∧ ∀ c, chan t c = chan s c

/-! ### Forwarded transactions (4.5) -/

/-- The completion of a forwarded request frees its entry and answers the requester once (R81, R4, R13, R83,
R85). -/
def Obligations.ForwardedCompletionFreesItsEntry : Prop :=
  ∀ (i : Fin 256) (status : DownStatus) (data : Line) (s : State) (e : InFlight),
    tblGet s.inFlight i.val = some e → e.limitReached = false →
    ∃ t, exec (.forwardedCompletion i status data) s = .next t ∧ tblGet t.inFlight i.val = none ∧
      (∀ x, x ≠ i.val → tblGet t.inFlight x = tblGet s.inFlight x) ∧
      (if e.orphaned ∨ e.suppress then t.completions = s.completions
       else Decided
         { tag := e.upstreamTag
           status := match status with
             | .ok => .ok
             | .error => .downstreamError
           data := if e.write then none else match status with
             | .ok => some data
             | .error => some 0
           duplicate := false } s t) ∧
      (∀ d ∈ t.drains, i.val ∉ d.members ∧ (d.members ≠ [] ∨ d.held = true)) ∧
      t.ways = s.ways ∧ t.log = s.log ∧ (∀ d, dom t d = dom s d) ∧ ∀ c, chan t c = chan s c

/-- A forwarded request's timeout orphans its entry and answers TIMEOUT; an orphaned write at its limit poisons
its granule (R82, R84, R54, R57, R202). -/
def Obligations.ForwardedTimeoutOrphansAndItsLimitPoisons : Prop :=
  (∀ (i : Fin 256) (s : State) (e : InFlight),
    tblGet s.inFlight i.val = some e → e.orphaned = false →
    ∃ t, exec (.forwardedTimeout i) s = .next t ∧
      tblGet t.inFlight i.val = some { e with orphaned := true, timer := 0 } ∧
      (if e.suppress then t.completions = s.completions
       else Decided
         { tag := e.upstreamTag, status := .timeout, data := if e.write then none else some 0, duplicate := false }
         s t) ∧
      (sourceOf t 12).pending = true ∧ (∀ r ∈ t.offers, r.tag ≠ i.val) ∧ t.drains = s.drains ∧
      t.ways = s.ways ∧ t.log = s.log ∧ (∀ d, dom t d = dom s d) ∧ ∀ c, chan t c = chan s c) ∧
  (∀ (i : Fin 256) (s : State) (e : InFlight),
    tblGet s.inFlight i.val = some e → e.orphaned = true → e.limitReached = false →
    ∃ t, exec (.orphanLimit i) s = .next t ∧
      (e.write = false ∨ e.unformatted = true ∨ s.flush ≠ .none →
        tblGet t.inFlight i.val = none ∧ t.ways = s.ways ∧ t.poisonList = s.poisonList ∧
          ∀ c, chan t c = chan s c) ∧
      (e.write = true → e.unformatted = false → s.flush = .none → Quiet s → ∀ rec, recordAt s e.granule = some rec →
        tblGet t.inFlight i.val = none ∧
          recordAt t e.granule = some { owner := rec.owner, state := .gPoisoned, pinned := false, dirty := false,
                                        count := 0 } ∧
          (∀ p ∈ t.grants, p.2.granule ≠ e.granule) ∧
          (s.poisonList.length < 16 → ∃ x ∈ t.poisonList, x.granule = e.granule ∧ x.owner = rec.owner)))

/-! ### Own requests that time out (1.5) -/

/-- A timed-out own request ends as by an ERROR completion, and its tag is held until its late completion or 1
ms (R12, R11, R36, R46, R49, R127, R161).  MODEL'S CHOICE, log entry 34: a request that the expander has not
taken is withdrawn by that completion as it is by the timeout. -/
def Obligations.TimedOutTagIsHeldUntilItsCompletionOrOneMillisecond : Prop :=
  (∀ (tag : Fin 1024) (s : State) (o : Outstanding), outstandingAt s tag.val = some o →
    ∃ t, exec (.ownRequestTimeout tag) s = .next t ∧ (∃ h ∈ t.heldTags, h.tag = tag.val) ∧
      ∃ s', SameButTimers s s' ∧
        exec (errorRow o.job tag) { s' with heldTags := s'.heldTags ++ [{ tag := tag.val, timer := 0 }] } = .next t) ∧
  (∀ (tag : Fin 1024) (s : State), (∃ h ∈ s.heldTags, h.tag = tag.val) →
    ∃ t, exec (.heldTagRelease tag) s = .next t ∧ (∀ h ∈ t.heldTags, h.tag ≠ tag.val) ∧
      t.ways = s.ways ∧ t.offers = s.offers ∧ (∀ c, chan t c = chan s c)) ∧
  (∀ (tag : Fin 1024) (s : State), outstandingAt s tag.val = none → tblGet s.inFlight tag.val = none →
    ∃ t, exec (.staleCompletionDiscard tag) s = .next t ∧ (∀ h ∈ t.heldTags, h.tag ≠ tag.val) ∧
      (∀ h ∈ s.heldTags, h.tag ≠ tag.val → h ∈ t.heldTags) ∧ Untouched s { t with heldTags := s.heldTags } ∧
      ∀ c, chan t c = chan s c)

/-! ### The upstream port and the check (chapters 1, 2 and 4) -/

/-- An address is governed with its granule, in the aperture at its line, or outside, by B and S alone (R21,
R22, R2). -/
def Obligations.AddressClassesFollowTheSpan : Prop :=
  ∀ (s : State) (a : Address), SpanLegal s →
    (s.base ≤ a.toNat → a.toNat < s.base + s.size → classify s a = .governed ((a.toNat - s.base) / 4096)) ∧
    (s.base + s.size ≤ a.toNat → a.toNat < s.base + s.size + 65536 →
      classify s a = .aperture ((a.toNat - (s.base + s.size)) / 64 * 64)) ∧
    (a.toNat < s.base ∨ s.base + s.size + 65536 ≤ a.toNat → classify s a = .outside)

/-- A request waits while a condition of R3 or R7 stands, and a tag in use is answered REFUSED (R3, R5, R7, R63,
R64). -/
def Obligations.RequestsWaitOrMeetTheDuplicateTest : Prop :=
  (∀ (r : Request) (s : State), ¬PortTakes s → exec (.requestTaken r) s = .next s) ∧
  (∀ (r : Request) (s : State), PortTakes s → r.tag.val ∈ s.tagsInUse →
    ∃ t, exec (.requestTaken r) s = .next t ∧
      Decided { refusalOf r .refused with duplicate := true } s t ∧
      Untouched s { t with completions := s.completions } ∧ (∀ c, chan t c = chan s c))

/-- The steps of the check before the record decide by class, mode, domain, tag region and region, in their
order (R65, R66, R67, R68, R69, R70, R74, R75, R31, R32, R101, R186). -/
def Obligations.StepsBeforeTheRecordDecide : Prop :=
  ∀ (r : Request) (s : State), Arrives r s →
    ∃ t, exec (.requestTaken r) s = .next t ∧
      ((∀ off, classify s r.address ≠ .aperture off) → t.tagsInUse = s.tagsInUse ++ [r.tag.val]) ∧
      DecidedBeforeTheRecord r s t

/-- A request that its granule's cached record permits is forwarded, and marks the record if R155 says so (R72, R73, R76,
R77, R78, R80, R9, R155). -/
def Obligations.StepNineForwardsWhatTheRecordPermits : Prop :=
  ∀ (r : Request) (g : Nat) (rec : TagRecord) (s : State),
    Arrives r s → ReachesStepNine r g s → recordAt s g = some rec → Permits r g rec s →
    ∃ t, exec (.requestTaken r) s = .next t ∧ t.tagsInUse = s.tagsInUse ++ [r.tag.val] ∧
      Forwarded r g false s t ∧ (∀ d, dom t d = dom s d) ∧ t.grants = s.grants ∧
      (IsMarked r rec s → RecordNow g { rec with dirty := true } s t) ∧
      (¬IsMarked r rec s → t.ways = s.ways ∧ t.slots = s.slots)

/-- A request that step 9 refuses is answered and recorded with the reason of its row (R72, R73, R74, R75, R100,
R101, R186, R189). -/
def Obligations.StepNineRefusesByItsTables : Prop :=
  ∀ (r : Request) (g : Nat) (rec : TagRecord) (reason : Reason) (s : State),
    Arrives r s → ReachesStepNine r g s → recordAt s g = some rec → StepNine r g rec s reason →
    ∃ t, exec (.requestTaken r) s = .next t ∧ t.tagsInUse = s.tagsInUse ++ [r.tag.val] ∧
      RefusesLogged r reason (some rec) (if reason = .poisoned then .poisoned else .blocked) s t ∧
      ¬Permits r g rec s

/-- A request whose tag line is not cached starts one fill read of that line and waits in the Miss Queue (R71,
R25, R47, R50, R10). -/
def Obligations.MissedRequestWaitsInTheMissQueue : Prop :=
  ∀ (r : Request) (g : Nat) (s : State),
    Arrives r s → ReachesStepNine r g s → recordAt s g = none → s.fillWaits = [] → s.fills.length < 8 →
    (∀ f ∈ s.fills, f.line ≠ g / 4) →
    ∃ t, exec (.requestTaken r) s = .next t ∧
      t.missQueue = s.missQueue ++ [{ request := r, granule := g, line := g / 4, released := false }] ∧
      t.completions = s.completions ∧ t.log = s.log ∧ (∀ d, dom t d = dom s d) ∧ t.inFlight = s.inFlight ∧
      t.ways = s.ways ∧ t.fills.length = s.fills.length + 1 ∧
      (∃ f ∈ t.fills, f.line = g / 4 ∧ f.data = none) ∧ (∀ f ∈ s.fills, ∃ f' ∈ t.fills, f'.line = f.line) ∧
      (∀ x, freeTag .fill s = some x → (∀ j ∈ s.tagWaits, jobClass j ≠ .fill) →
        { tag := x, kind := .read, domain := 0, mask := 0, data := .none
          address := s.base + 4096 * s.tagBase.getD 0 + 64 * (g / 4) } ∈ t.offers)

/-- No guest's request is forwarded, or held for it, but by its owner's right or an ACTIVE grant, in an
OPERATIONAL part (R66, R67, R68, R69, R70, R72, R73, R76, R77, R90). -/
def Obligations.GuestTrafficNeedsOwnershipOrAnActiveGrant : Prop :=
  (∀ (i : Instr) (r : Request) (s t : State), (∀ d, d ≠ 0 → (dom s d).state ≠ .root) → r.domain ≠ 0 →
    (i = .requestTaken r ∨
      (i = .presentReleasedWaiter ∧ ∃ m, s.missQueue.find? (·.released) = some m ∧ m.request = r)) →
    exec i s = .next t →
    (∃ x e, tblGet t.inFlight x = some e ∧ tblGet s.inFlight x ≠ some e) ∨ t.stage ≠ s.stage →
    ∃ g rec, classify s r.address = .governed g ∧ s.mode = .operational ∧
      (dom s r.domain.val).state = .running ∧ inTagRegion s g = false ∧
      (∀ k, k < 8 → ((regionOf s k).state = .set ∨ (regionOf s k).state = .lockedDown) →
        ¬((regionOf s k).first ≤ g ∧ g < (regionOf s k).first + (regionOf s k).count)) ∧
      recordAt s g = some rec ∧ rec.state = .gPrivate ∧
      (rec.owner = some r.domain.val ∨
        ∃ k e, grantFor s g r.domain.val = some (k, e) ∧ e.state = .active ∧
          (r.kind = .read ∨ e.readWrite = true)) ∧
      (∀ x e, tblGet t.inFlight x = some e → tblGet s.inFlight x ≠ some e → e = entryFor r g false) ∧
      (t.stage ≠ s.stage → t.stage = some { request := r, granule := g, unformatted := false })) ∧
  (∀ s t : State, exec .heldTransactionForward s = .next t →
    (t.stage = s.stage ∨ t.stage = none) ∧
    (∀ x e, tblGet t.inFlight x = some e → tblGet s.inFlight x ≠ some e →
      t.stage = none ∧ ∃ h, s.stage = some h ∧ e = entryFor h.request h.granule h.unformatted) ∧
    (∀ p ∈ t.offers, p ∈ s.offers ∨ ∃ h x, s.stage = some h ∧ tblGet s.inFlight x = none ∧ p = offerFor h.request x))

/-- A released waiter is checked from step 1 again; a held transaction is forwarded when an entry frees (R50,
R64, R65, R66, R67, R68, R69, R70, R71, R73, R77, R85). -/
def Obligations.ReleasedAndHeldTransactionsGoOn : Prop :=
  (∀ (s u : State) (m : Miss), s.stage = none → s.missQueue.find? (·.released) = some m →
    u = { s with missQueue := s.missQueue.erase m } →
    ∃ t, exec .presentReleasedWaiter s = .next t ∧
      ((∀ off, classify s m.request.address ≠ .aperture off) → t.tagsInUse = s.tagsInUse) ∧
      DecidedBeforeTheRecord m.request u t ∧
      ∀ g, ReachesStepNine m.request g s →
        (∀ rec, recordAt s g = some rec →
          (Permits m.request g rec s → Forwarded m.request g false u t ∧ t.missQueue = s.missQueue.erase m) ∧
          ∀ reason, StepNine m.request g rec s reason →
            RefusesLogged m.request reason (some rec) (if reason = .poisoned then .poisoned else .blocked) u t) ∧
        (recordAt s g = none → WaitsForItsLine m.request g u t)) ∧
  (∀ (s : State) (h : HeldTx) (i : Nat), s.stage = some h → tblFree 256 s.inFlight = some i →
    ∃ t, exec .heldTransactionForward s = .next t ∧ t.stage = none ∧
      tblGet t.inFlight i = some (entryFor h.request h.granule h.unformatted) ∧
      (∀ x, x ≠ i → tblGet t.inFlight x = tblGet s.inFlight x) ∧
      t.offers = s.offers ++ [offerFor h.request i] ∧ t.completions = s.completions ∧
      (∀ d ∈ s.drains, d.held = true → { d with members := d.members ++ [i], held := false } ∈ t.drains) ∧
      (∀ d ∈ s.drains, d.held = false → d.members ≠ [] → d ∈ t.drains) ∧
      t.ways = s.ways ∧ (∀ d, dom t d = dom s d) ∧ ∀ c, chan t c = chan s c)

/-- A permitted write to a PRIVATE granule of a tracked domain sets DIRTY and lists the granule, or overflows
the slot (R155, R156, R157). -/
def Obligations.PermittedWriteMarksATrackedGranule : Prop :=
  ∀ (r : Request) (g k : Nat) (rec : TagRecord) (s : State),
    Arrives r s → ReachesStepNine r g s → recordAt s g = some rec → Permits r g rec s → r.kind ≠ .read →
    rec.state = .gPrivate → rec.dirty = false →
    (∃ d, rec.owner = some d ∧ d ≠ 0 ∧ (dom s d).slot = some k) →
    (slotOf s k).state = .active → (∀ e ∈ (slotOf s k).queue, e.group = false) →
    ∃ t, exec (.requestTaken r) s = .next t ∧ RecordNow g { rec with dirty := true } s t ∧
      (∀ j, j ≠ k → slotOf t j = slotOf s j) ∧
      if (slotOf s k).queue.length < 512 then
        slotOf t k = { slotOf s k with
          queue := (slotOf s k).queue ++ [{ granule := g, group := false, keep := false }] } ∧
        ((slotOf s k).queue.length + 1 = (slotOf s k).fillMark → (sourceOf t 11).pending = true)
      else slotOf t k = { slotOf s k with state := .overflowed } ∧ (sourceOf t 11).pending = true

/-! ### The management aperture (chapter 9) -/

/-- A submitted block joins the control or the work queue of its channel, or is refused (R167, R178, R180,
R165).  That taking the command is a step of its own is the model's (log entry 7). -/
def Obligations.SubmissionJoinsTheQueueItsCodeNames : Prop :=
  ∀ (tag : Fin 1024) (c : Fin 4) (b : Line) (s : State), SpanLegal s → PortTakes s → tag.val ∉ s.tagsInUse →
    s.mode ≠ .halted →
    ∃ t, exec (.submission tag c b) s = .next t ∧ OtherChannels c.val s t ∧
      t.tagsInUse = s.tagsInUse ++ [tag.val] ∧
      Untouched s { t with completions := s.completions, tagsInUse := s.tagsInUse } ∧
      (match cmdOfCode (blockCode b) with
        | none =>
          if (chan s c.val).ready.length + (chan s c.val).reserved < 8 then
            Decided { tag := tag.val, status := .ok, data := none, duplicate := false } s t ∧
            chan t c.val = { chan s c.val with ready := (chan s c.val).ready ++
              [{ code := blockCode b, result := .unknownCommand, channel := c.val, cookie := blockCookie b
                 finished := 0, remaining := 0, next := 0, w0 := 0, w1 := 0, w2 := 0, w3 := 0, w4 := 0 }] } ∧
            (sourceOf t (7 + c.val)).pending = true
          else
            Decided { tag := tag.val, status := .refused, data := none, duplicate := false } s t ∧
            chan t c.val = chan s c.val
        | some cmd =>
          if isWork cmd = false ∧ (chan s c.val).control.length < 4 then
            Decided { tag := tag.val, status := .ok, data := none, duplicate := false } s t ∧
            chan t c.val = { chan s c.val with control := (chan s c.val).control ++ [b] }
          else if isWork cmd = true ∧ (chan s c.val).work.length < 4 then
            Decided { tag := tag.val, status := .ok, data := none, duplicate := false } s t ∧
            chan t c.val = { chan s c.val with work := (chan s c.val).work ++ [b] }
          else
            Decided { tag := tag.val, status := .refused, data := none, duplicate := false } s t ∧
            chan t c.val = chan s c.val)

/-- A read of a response line returns the oldest response and frees its slot, or returns EMPTY (R171, R181).
MODEL'S CHOICE, log entry 30: of a remaining count of 2^32 or more the bytes hold the low 32 bits. -/
def Obligations.ResponseReadRemovesTheOldestResponse : Prop :=
  ∀ (tag : Fin 1024) (c : Fin 4) (s : State), SpanLegal s → PortTakes s → tag.val ∉ s.tagsInUse →
    s.mode ≠ .halted → Quiet s → (chan s c.val).control = [] → (chan s c.val).work = [] →
    ∃ t, exec (.responseRead tag c) s = .next t ∧ t.tagsInUse = s.tagsInUse ++ [tag.val] ∧
      OtherChannels c.val s t ∧ Untouched s { t with completions := s.completions, tagsInUse := s.tagsInUse } ∧
      (∀ n, (sourceOf t n).pending = (sourceOf s n).pending) ∧
      match (chan s c.val).ready with
      | [] =>
        chan t c.val = chan s c.val ∧
          Decided
            { tag := tag.val, status := .ok, duplicate := false
              data := some (encodeResponse
                { code := 0, result := .empty, channel := c.val, cookie := 0, finished := 0, remaining := 0
                  next := 0, w0 := 0, w1 := 0, w2 := 0, w3 := 0, w4 := 0 }) } s t
      | x :: rest =>
        chan t c.val = { chan s c.val with ready := rest } ∧
          Decided { tag := tag.val, status := .ok, data := some (encodeResponse x), duplicate := false } s t

/-- A root access to the aperture that no line takes is answered REFUSED; the identity line answers the part's
constants (R166, R177, R184). -/
def Obligations.OtherApertureAccessesAreRefused : Prop :=
  (∀ (tag : Fin 1024) (kind : AccessKind) (line : Fin 1024) (mask : ByteMask) (data : Line) (s : State),
    SpanLegal s → PortTakes s → tag.val ∉ s.tagsInUse → s.mode ≠ .halted → isOwnAccess kind line = false →
    ∃ t, exec (.apertureOtherWrite tag kind line mask data) s = .next t ∧
      Decided { tag := tag.val, status := .refused, data := if kind = .read then some 0 else none
                duplicate := false } s t ∧
      Untouched s { t with completions := s.completions, tagsInUse := s.tagsInUse } ∧ ∀ c, chan t c = chan s c) ∧
  (∀ (r : Request) (s : State), Arrives r s → s.mode ≠ .halted → r.domain = 0 → r.kind = .read →
    classify s r.address = .aperture 0xF000 →
    ∃ t, exec (.requestTaken r) s = .next t ∧
      Decided { tag := r.tag.val, status := .ok, data := some (identityLine s), duplicate := false } s t ∧
      Untouched s { t with completions := s.completions, tagsInUse := s.tagsInUse } ∧ ∀ c, chan t c = chan s c)

/-! ### The domain request line and guest requests (chapter 7) -/

/-- A guest's write to the domain request line queues its request or is refused; a read returns its last-result
record (R138, R139, R141, R182).  (The premise leaves out a kind above 5 at an idle unit: log entry 9 has it
finish at once.) MODEL'S CHOICE, log entry 31: bytes 5 to 7 of a record without a query part are 0. -/
def Obligations.DomainRequestLineTakesARequestAndAnswers : Prop :=
  (∀ (tag : Fin 1024) (d : Fin 512) (masked : Bool) (mask : ByteMask) (data : Line) (s : State),
    SpanLegal s → PortTakes s → tag.val ∉ s.tagsInUse → d ≠ 0 → s.mode = .operational →
    (dom s d.val).state = .running → Quiet s →
    (s.requests = [] → s.flush = .none → lineField data 0 1 ≤ 5) →
    ∃ t, exec (.domainRequestWrite tag d masked mask data) s = .next t ∧
      Untouched s { t with
        completions := s.completions, tagsInUse := s.tagsInUse, requests := s.requests, results := s.results } ∧
      (∀ c, chan t c = chan s c) ∧
      if masked = true ∨ lineField data 0 1 = 0 ∨ (∃ q ∈ s.requests, q.requester = d.val) ∨
          16 ≤ s.requests.length then
        Decided { tag := tag.val, status := .refused, data := none, duplicate := false } s t ∧
          t.requests = s.requests ∧ t.results = s.results
      else
        Decided { tag := tag.val, status := .ok, data := none, duplicate := false } s t ∧
          t.requests = s.requests ++
            [{ requester := d.val, kind := lineField data 0 1, access := lineField data 1 1
               grantee := lineField data 2 2, granule := lineField data 8 8 }] ∧
          resultOf t d.val = { kind := lineField data 0 1, result := .pending, granule := lineField data 8 8
                               grant := none, query := .absent } ∧
          ∀ x, x ≠ d.val → resultOf t x = resultOf s x) ∧
  (∀ (tag : Fin 1024) (d : Fin 512) (s : State), SpanLegal s → PortTakes s → tag.val ∉ s.tagsInUse → d ≠ 0 →
    ∃ t, exec (.domainRequestRead tag d) s = .next t ∧
      Untouched s { t with completions := s.completions, tagsInUse := s.tagsInUse, log := s.log } ∧
      (∀ c, chan t c = chan s c) ∧
      (s.mode = .operational → (dom s d.val).state = .running →
        Decided { tag := tag.val, status := .ok, data := some (encodeLastResult (resultOf s d.val))
                  duplicate := false } s t ∧ t.log = s.log) ∧
      (¬(s.mode = .operational ∧ ((dom s d.val).state = .running ∨ (dom s d.val).state = .root)) →
        Decided
          { tag := tag.val, data := some 0, duplicate := false
            status := if s.mode = .halted then .halted
              else if s.mode = .unformatted ∨ s.mode = .formatting then .stopped
              else if s.mode = .contained ∨ (dom s d.val).state = .free ∨ (dom s d.val).state = .fenced then
                .blocked
              else .stopped } s t ∧
          t.log = if s.mode = .operational ∧ (dom s d.val).state = .free then
              logWith s.log { domain := d.val, write := false, address := s.base + s.size + 0x8000
                              reason := .unknownDomain, counted := false, ownerSeen := none, stateSeen := none }
            else s.log))

/-- OFFER meets its start tests, waits for a line not cached, and applies its tests in order to create an
OFFERED entry at the lowest free index (R140, R142, R141, R51). -/
def Obligations.OfferCreatesAnEntryAtTheLowestFreeIndex : Prop :=
  (∀ (x : GuestRequest) (rest : List GuestRequest) (r : Result) (s : State),
    HeadAtItsTests 1 x rest s → Quiet s → startRefusal x s = some r →
    ∃ t, exec .offer s = .next t ∧ Finished x rest r none .absent s t ∧ TablesKept s t) ∧
  (∀ (x : GuestRequest) (rest : List GuestRequest) (s : State),
    HeadStarts 1 x rest s → Quiet s → recordAt s x.granule = none →
    ∃ t, exec .offer s = .next t ∧ RequestWaitsForFill x none s t ∧ t.grants = s.grants) ∧
  ∀ (x : GuestRequest) (rest : List GuestRequest) (rec : TagRecord) (s : State),
    HeadStarts 1 x rest s → Quiet s → recordAt s x.granule = some rec →
    ∃ t, exec .offer s = .next t ∧
      if rec.state ≠ .gPrivate ∨ rec.owner ≠ some x.requester then
        Finished x rest .granuleState none .absent s t ∧ TablesKept s t
      else if 511 < x.grantee ∨ x.grantee = x.requester ∨ (x.access ≠ 1 ∧ x.access ≠ 2) then
        Finished x rest .parameter none .absent s t ∧ TablesKept s t
      else if (dom s x.grantee).state = .free ∨ (dom s x.grantee).state = .retiring then
        Finished x rest .domainState none .absent s t ∧ TablesKept s t
      else if (grantFor s x.granule x.grantee).isSome then
        Finished x rest .duplicate none .absent s t ∧ TablesKept s t
      else if 7 ≤ rec.count then Finished x rest .grantLimit none .absent s t ∧ TablesKept s t
      else match tblFree 1024 s.grants with
        | none => Finished x rest .tableFull none .absent s t ∧ TablesKept s t
        | some i =>
          Finished x rest .done (some i) .absent s t ∧
            grantAt t i = some { serial := s.grantSerial, granule := x.granule, owner := x.requester
                                 grantee := x.grantee, readWrite := x.access == 2, state := .offered } ∧
            (∀ j, j ≠ i → grantAt t j = grantAt s j) ∧
            RecordNow x.granule { rec with count := rec.count + 1 } s t ∧
            dom t x.requester = { dom s x.requester with given := (dom s x.requester).given + 1 } ∧
            dom t x.grantee = { dom s x.grantee with held := (dom s x.grantee).held + 1 } ∧
            (∀ d, d ≠ x.requester → d ≠ x.grantee → dom t d = dom s d) ∧ t.inFlight = s.inFlight ∧
            t.log = s.log ∧ ∀ c, chan t c = chan s c

/-- PIN and UNPIN set and clear PINNED for the owner; QUERY answers an owner or a grantee; each meets its start
tests and waits for a line not cached (R140, R144, R145, R141, R51). -/
def Obligations.PinUnpinAndQueryActForTheOwner : Prop :=
  (∀ (i : Instr) (kind : Nat) (x : GuestRequest) (rest : List GuestRequest) (r : Result) (s : State),
    (i, kind) ∈ [(Instr.pin, 3), (.unpin, 4), (.query, 5)] →
    HeadAtItsTests kind x rest s → Quiet s → startRefusal x s = some r →
    ∃ t, exec i s = .next t ∧ Finished x rest r none .absent s t ∧ TablesKept s t) ∧
  (∀ (i : Instr) (kind : Nat) (x : GuestRequest) (rest : List GuestRequest) (s : State),
    (i, kind) ∈ [(Instr.pin, 3), (.unpin, 4), (.query, 5)] →
    HeadStarts kind x rest s → Quiet s → recordAt s x.granule = none →
    ∃ t, exec i s = .next t ∧ RequestWaitsForFill x none s t ∧ t.grants = s.grants) ∧
  (∀ (i : Instr) (kind : Nat) (flag : Bool) (x : GuestRequest) (rest : List GuestRequest) (rec : TagRecord)
    (s : State),
    (i, kind, flag) ∈ [(Instr.pin, 3, true), (.unpin, 4, false)] →
    HeadStarts kind x rest s → Quiet s → recordAt s x.granule = some rec →
    ∃ t, exec i s = .next t ∧
      if rec.state ≠ .gPrivate ∨ rec.owner ≠ some x.requester then
        Finished x rest .granuleState none .absent s t ∧ TablesKept s t
      else if rec.pinned = flag then Finished x rest .done none .absent s t ∧ TablesKept s t
      else
        Finished x rest .done none .absent s t ∧ RecordNow x.granule { rec with pinned := flag } s t ∧
          t.grants = s.grants ∧ (∀ d, dom t d = dom s d) ∧ ∀ c, chan t c = chan s c) ∧
  (∀ (x : GuestRequest) (rest : List GuestRequest) (rec : TagRecord) (s : State),
    HeadStarts 5 x rest s → Quiet s → recordAt s x.granule = some rec →
    ∃ t, exec .query s = .next t ∧ TablesKept s t ∧
      if rec.owner = some x.requester then
        Finished x rest .done none (.ownerView rec.state rec.pinned rec.count) s t
      else match grantFor s x.granule x.requester with
        | some (i, g) => Finished x rest .done (some i) (.granteeView rec.state g.state g.readWrite) s t
        | none => Finished x rest .notOwner none .absent s t)

/-- WITHDRAW meets its start tests, makes its owner's entry REVOKING and, with no transaction of the grantee,
removes it or waits for its line (R143, R136, R140, R85, R51). -/
def Obligations.WithdrawRevokesAGrantOfItsOwner : Prop :=
  (∀ (x : GuestRequest) (rest : List GuestRequest) (r : Result) (s : State),
    HeadAtItsTests 2 x rest s → Quiet s → startRefusal x s = some r →
    ∃ t, exec .withdraw s = .next t ∧ Finished x rest r none .absent s t ∧ TablesKept s t) ∧
  ∀ (x : GuestRequest) (rest : List GuestRequest) (s : State), HeadStarts 2 x rest s → Quiet s →
    (∀ d ∈ s.drains, d.user ≠ .request) →
    ∃ t, exec .withdraw s = .next t ∧
      if 511 < x.grantee then Finished x rest .parameter none .absent s t ∧ TablesKept s t
      else match grantFor s x.granule x.grantee with
        | none => Finished x rest .noEntry none .absent s t ∧ TablesKept s t
        | some (i, g) =>
          if g.owner ≠ x.requester then Finished x rest .notOwner none .absent s t ∧ TablesKept s t
          else if (∀ p ∈ s.inFlight, ¬(p.2.granule = x.granule ∧ p.2.domain = x.grantee)) ∧
              (∀ h, s.stage = some h → ¬(h.granule = x.granule ∧ h.request.domain.val = x.grantee)) then
            (recordAt s x.granule = none → tblGet s.grants i = some g →
              RequestWaitsForFill x (some (i, g.serial)) s t ∧ grantAt t i = some { g with state := .revoking } ∧
              ∀ j, j ≠ i → grantAt t j = grantAt s j) ∧
            ∀ rec, recordAt s x.granule = some rec → tblGet s.grants i = some g →
              Finished x rest .done (some i) .absent s t ∧ grantAt t i = none ∧
              (∀ j, j ≠ i → grantAt t j = grantAt s j) ∧
              RecordNow x.granule { rec with count := rec.count - 1 } s t ∧
              (g.owner ≠ g.grantee →
                dom t g.owner = { dom s g.owner with given := (dom s g.owner).given - 1 } ∧
                dom t g.grantee = { dom s g.grantee with held := (dom s g.grantee).held - 1 }) ∧
              (∀ d, d ≠ g.owner → d ≠ g.grantee → dom t d = dom s d) ∧ ∀ c, chan t c = chan s c
          else
            tblGet s.grants i = some g →
              grantAt t i = some { g with state := .revoking } ∧ (∀ j, j ≠ i → grantAt t j = grantAt s j) ∧
              t.requests = s.requests ∧ t.running = some { wait := .drain, entry := some (i, g.serial) } ∧
              t.drains = s.drains ++ [counting .request (fun y d => y == x.granule && d == x.grantee) s] ∧
              t.ways = s.ways ∧ (∀ d, dom t d = dom s d)

/-! ### Taking commands (9.3, 9.4) -/

/-- A channel takes only the command in front of its queue, when it may, and refuses control and work commands
with MODE in two modes (R168, R169, R181).  MODEL'S CHOICE, log entries 5 and 7: the row of a command that is
not in front or cannot be taken leaves the state as it is (log entry 5), and the taking is a step of its own
(log entry 7). MODEL'S CHOICE, log entry 17: value word 0 = 0 of a refused RESTORE, and the owned count 0 and
quota 0 of an ASSIGN or RELEASE of a tag above 511, which no rule gives. -/
def Obligations.ChannelsTakeCommandsInTurnAndByMode : Prop :=
  (∀ (cmd : Cmd) (c : Fin 4) (s : State),
    (¬CanTake c.val s ∨ ((chan s c.val).control = [] ∧ (chan s c.val).work = []) ∨
      (∃ b, (chan s c.val).control.head? = some b ∧ cmdOfCode (blockCode b) ≠ some cmd) ∨
      ((chan s c.val).control = [] ∧ ((chan s c.val).active ≠ none ∨ (chan s c.val).undo ≠ none)) ∨
      ((chan s c.val).control = [] ∧ ∃ b, (chan s c.val).work.head? = some b ∧
        cmdOfCode (blockCode b) ≠ some cmd)) →
    exec (rowOf cmd c) s = .next s) ∧
  (∀ (cmd : Cmd) (c : Fin 4) (b : Line) (s : State), CanTake c.val s → Quiet s → isWork cmd = false →
    (chan s c.val).control.head? = some b → cmdOfCode (blockCode b) = some cmd →
    (s.mode = .unformatted ∨ s.mode = .formatting) →
    (cmd ∉ [.partStatus, .abort, .resetEngines, .noticeConfig, .noticeClear, .noticeStatus, .setFaultPolicy]) →
    ∃ t, exec (rowOf cmd c) s = .next t ∧ OnlyAnswered c.val b .mode {} s t) ∧
  (∀ (cmd : Cmd) (c : Fin 4) (b : Line) (s : State), CanTake c.val s → Quiet s → isWork cmd = true →
    (chan s c.val).control = [] → (chan s c.val).active = none → (chan s c.val).undo = none →
    (chan s c.val).work = [b] → cmdOfCode (blockCode b) = some cmd →
    (s.mode = .unformatted ∨ s.mode = .formatting) → cmd ≠ .format →
    ∃ t, exec (rowOf cmd c) s = .next t ∧
      WorkRefused c.val b .mode (if cmd = .revokeGrant then {} else refusal cmd b s) s t)

/-- ABORT discards the work queue it names and stops the active command, its own channel's too, where it stands;
a granule mid-change is undone (R172, R129, R130, R114, R170, R37, R61, R110, R147, R154, R161, R196).  MODEL'S
CHOICE, log entry 27 (DEDUCED): on its own channel ABORT's response comes first. MODEL'S CHOICE, log entry 16
(DEDUCED): a command that had begun to stop for another reason and has not stopped yet ends with ABORTED, too; and
the lowest line of a stopped FORMAT and its unissued lines. MODEL'S CHOICE, log entry 22: the next granule of a
stopped TRACK_COLLECT and its unissued write. MODEL'S CHOICE, log entry 23: the unissued write-backs of a
stopped FLUSH_TAGS and its count of dirty lines. MODEL'S CHOICE, log entry 17: value words that a rule does not
name for the ending, RESTORE's word 0 among them, are 0. -/
def Obligations.AbortStopsTheNamedChannelsCommand : Prop :=
  (∀ (c : Fin 4) (b : Line) (s : State), TakesControl .abort c.val b s → Quiet s →
    ∃ t, exec (.abort c) s = .next t ∧
      (3 < wordA b ∨ 1 < wordB b → OnlyAnswered c.val b .parameter {} s t) ∧
      (wordA b ≤ 3 → wordB b ≤ 1 → (chan s (wordA b)).active = none →
        chan t c.val = { chan s c.val with
          control := (chan s c.val).control.tail
          work := if wordB b = 1 ∧ wordA b = c.val then [] else (chan s c.val).work
          ready := (chan s c.val).ready ++ [mkResponse b c.val .done
            { w0 := 0, w1 := if wordB b = 1 then (chan s (wordA b)).work.length else 0, w2 := 2 ^ 64 - 1 }] } ∧
        (∀ x, x ≠ c.val →
          chan t x = if x = wordA b ∧ wordB b = 1 then { chan s x with work := [] } else chan s x) ∧
        NoticesKept c.val s t ∧ Untouched s t)) ∧
  (∀ (c x : Fin 4) (b : Line) (a : Active) (s : State), TakesControl .abort c.val b s → Quiet s →
    wordA b = x.val → wordB b ≤ 1 → (chan s x.val).active = some a → (chan s x.val).stop = true →
    ∃ t, exec (.abort c) s = .next t ∧ (∀ y, chan t y = abortAnswered c.val b s y) ∧ NoticesKept c.val s t ∧
      Untouched s t) ∧
  (∀ (c x : Fin 4) (b : Line) (a : Active) (s : State), AbortFinds c.val x.val b a s →
    stopsAtOnce a = true → (∀ k, a.work = .trackCollect k → (slotOf s k.slot).collecting ≠ some x.val) →
    ∃ t, exec (.abort c) s = .next t ∧ AbortEnds c.val x.val b a (stoppedReport a t) s t ∧
      StopLeaves x.val a.work s t ∧ t.ways = s.ways ∧ t.grants = s.grants ∧ t.outstanding = s.outstanding ∧
      t.tagWaits = s.tagWaits ∧ t.fills = s.fills ∧ t.fillWaits = s.fillWaits ∧
      t.drains = s.drains.filter (fun d => !(a.phase == .clearance && d.user == .clearance x.val) &&
        !(a.phase == .drain && d.user == .command x.val))) ∧
  (∀ (c x : Fin 4) (b : Line) (a : Active) (base : Nat) (s : State), AbortFinds c.val x.val b a s →
    a.work = .format base 0 none → a.phase = .drain → s.progress = 0 →
    ∃ t, exec (.abort c) s = .next t ∧ t.mode = .unformatted ∧ t.tagBase = none ∧
      AbortEnds c.val x.val b a { remaining := tagLineCount s, w0 := base, w1 := tagRegionSize s } s t ∧
      t.drains = s.drains.filter (fun d => d.user != .command x.val) ∧ t.outstanding = s.outstanding) ∧
  (∀ (c x : Fin 4) (b : Line) (a : Active) (g : Nat) (s : State), AbortFinds c.val x.val b a s →
    a.phase ∈ [.drain, .afterDrain, .unit, .afterZero] → undoesGranules a.work = true → g = granuleAt a.work →
    (chan s x.val).claim = some g →
    ∃ t, exec (.abort c) s = .next t ∧
      t.drains = s.drains.filter (fun d => !(a.phase == .drain && d.user == .command x.val)) ∧
      match recordAt s g with
      | none =>
        AbortWaits c.val x.val b { a with phase := .undo, wait := .fill (g / 4), ending := some .aborted } s t ∧
          ((∃ f ∈ t.fills, f.line = g / 4) ∨ g / 4 ∈ t.fillWaits) ∧ t.ways = s.ways ∧ ∀ y, dom t y = dom s y
      | some rec =>
        AbortEnds c.val x.val b a (stoppedReport a t) s t ∧ Undone a.work g rec s t ∧ t.grants = s.grants) ∧
  (∀ (c x : Fin 4) (b : Line) (a : Active) (u : Nat) (z : Zeroing) (s : State), AbortFinds c.val x.val b a s →
    a.phase = .zero → unitOf s u = some z → s.units.filter (fun p => p.2.channel == x.val) = [(u, z)] →
    (∃ o ∈ s.outstanding, ∃ i, o.job = .zeroLine u i) →
    ∃ t, exec (.abort c) s = .next t ∧ AbortWaits c.val x.val b { a with ending := some .aborted } s t ∧
      unitOf t u = some { z with halted := true } ∧ (∀ v, v ≠ u → unitOf t v = unitOf s v) ∧
      (∀ i, .zeroLine u i ∉ t.tagWaits) ∧ t.outstanding = s.outstanding ∧ t.ways = s.ways ∧
      ∀ y, dom t y = dom s y) ∧
  (∀ (tag : Fin 1024) (o : Outstanding) (x : Fin 4) (a : Active) (u i g : Nat) (z : Zeroing) (rec : TagRecord)
    (s : State), outstandingAt s tag.val = some o → o.job = .zeroLine u i → unitOf s u = some z → Quiet s →
    z.channel = x.val → z.halted = true → (∀ p ∈ s.outstanding, p.tag ≠ tag.val → ∀ j, p.job ≠ .zeroLine u j) →
    (∀ j, OwnJob.zeroLine u j ∉ waitingJobs s) → (chan s x.val).active = some a → a.phase = .zero →
    a.ending = some .aborted → (chan s x.val).control = [] → (chan s x.val).work = [] → (chan s x.val).undo = none →
    s.warm = none → undoesGranules a.work = true → g = granuleAt a.work → (chan s x.val).claim = some g →
    recordAt s g = some rec →
    ∃ t, exec (.zeroWriteCompletion tag .ok) s = .next t ∧ unitOf t u = none ∧
      Ends x.val a .aborted (stoppedReport a t) s t ∧ Undone a.work g rec s t) ∧
  (∀ (c x : Fin 4) (b : Line) (a : Active) (s : State), TakesControl .abort c.val b s → Quiet s →
    wordA b = x.val → wordB b ≤ 1 → (chan s x.val).active = some a → a.phase = .scrubFailed →
    (chan s x.val).stop = false →
    ∃ t, exec (.abort c) s = .next t ∧ AbortWaits c.val x.val b { a with ending := some .aborted } s t ∧
      NoticesKept c.val s t ∧ Untouched s t) ∧
  (∀ (tag : Fin 1024) (status : DownStatus) (o : Outstanding) (x : Fin 4) (a : Active) (u i : Nat) (z : Zeroing)
    (s : State), outstandingAt s tag.val = some o → o.job = .zeroLine u i → unitOf s u = some z → Quiet s →
    z.channel = x.val → z.failed = true → (∀ p ∈ s.outstanding, p.tag ≠ tag.val → ∀ j, p.job ≠ .zeroLine u j) →
    (∀ j, OwnJob.zeroLine u j ∉ waitingJobs s) → (∀ p ∈ s.units, p.2.channel = x.val → p.1 = u) →
    (∀ p ∈ s.poisonings, p.source ≠ .scrub x.val) → (chan s x.val).active = some a → a.phase = .scrubFailed →
    undoesGranules a.work = true → (chan s x.val).control = [] → (chan s x.val).work = [] →
    (chan s x.val).undo = none → s.warm = none →
    ∃ t, exec (.zeroWriteCompletion tag status) s = .next t ∧ unitOf t u = none ∧
      Ends x.val a (a.ending.getD .poisoned) (stoppedReport a t) s t ∧ StopLeaves x.val a.work s t ∧
      t.ways = s.ways ∧ t.poisonList = s.poisonList) ∧
  (∀ (c x : Fin 4) (b : Line) (a : Active) (base next : Nat) (lowest : Option Nat) (s : State),
    AbortFinds c.val x.val b a s → a.work = .format base next lowest → a.phase = .writes →
    ∃ t, exec (.abort c) s = .next t ∧ (∀ j ∈ t.tagWaits, jobClass j ≠ .formatWrite) ∧
      t.outstanding = s.outstanding ∧
      ∃ low, (low = lowest ∨ ∃ l, low = some l ∧ .formatLine l ∈ waitingJobs s) ∧
      (∀ l, lowest = some l ∨ .formatLine l ∈ waitingJobs s → ∃ m, low = some m ∧ m ≤ l) ∧
      if ∃ o ∈ s.outstanding, jobClass o.job = .formatWrite then
        AbortWaits c.val x.val b
          { a with work := .format base next low, wait := .writes, ending := some .aborted } s t ∧
          t.mode = s.mode ∧ t.tagBase = s.tagBase
      else
        AbortEnds c.val x.val b a (stoppedReport { a with work := .format base next low } t) s t ∧
          t.mode = .unformatted ∧ t.tagBase = none) ∧
  (∀ (c x : Fin 4) (b : Line) (a : Active) (w : FlushWork) (s : State), AbortFinds c.val x.val b a s →
    a.work = .flushTags w → a.phase = .writes →
    (∀ y, y < 4 → y ≠ x.val → ∀ a', (chan s y).active = some a' → ∀ v, a'.work ≠ .flushTags v) →
    ∃ t, exec (.abort c) s = .next t ∧ t.ways = s.ways ∧ t.outstanding = s.outstanding ∧
      (∀ key line, .writeBack key line ∈ t.tagWaits ↔ .writeBack key line ∈ s.tagWaits ∧
        (line ∉ w.issued ∨ ∃ f ∈ s.fills, ∃ v ∈ f.way.toList, 8 * (f.line % 256) + v = key)) ∧
      if (withoutUnissued w s).waiting = [] then
        AbortEnds c.val x.val b a (stoppedReport { a with work := .flushTags (withoutUnissued w s) } t) s t
      else
        AbortWaits c.val x.val b
          { a with work := .flushTags (withoutUnissued w s), wait := .writes, ending := some .aborted } s t) ∧
  (∀ (c x : Fin 4) (b : Line) (a : Active) (k : CollectWork) (s : State), AbortFinds c.val x.val b a s →
    a.work = .trackCollect k → a.phase ∈ [.clearing, .draining, .harvest] →
    (slotOf s k.slot).collecting = some x.val →
    ∃ t, exec (.abort c) s = .next t ∧ t.ways = s.ways ∧ t.outstanding = s.outstanding ∧ (∀ y, dom t y = dom s y) ∧
      .harvest x.val ∉ t.tagWaits ∧ (∀ j, j ≠ k.slot → slotOf t j = slotOf s j) ∧
      if ∃ o ∈ s.outstanding, o.job = .harvest x.val then
        AbortWaits c.val x.val b { a with ending := some .aborted } s t ∧ slotOf t k.slot = slotOf s k.slot ∧
          t.drains = s.drains
      else
        AbortEnds c.val x.val b a (stoppedReport a t) s t ∧
          slotOf t k.slot = { slotOf s k.slot with
            collecting := none
            queue := (slotOf s k.slot).queue.map (fun e => { e with group := false, keep := false }) } ∧
          t.drains = s.drains.filter (fun d => d.user != .group x.val)) ∧
  (∀ (c x : Fin 4) (b : Line) (a : Active) (d f n k : Nat) (keep : Bool) (s : State),
    TakesControl .abort c.val b s → wordA b = x.val → wordB b = 0 → x ≠ c → Runs x.val a s →
    (chan s x.val).stop = false → a.work = .assign d f n keep k → a.phase = .visit ∨ a.phase = .drain →
    ∃ t, exec (.abort c) s = .next t ∧
      (chan t c.val).ready = (chan s c.val).ready ++
        [mkResponse b c.val .done { w0 := 1, w1 := 0, w2 := blockCode a.block }] ∧
      (a.phase = .visit →
        chan t x.val = { chan s x.val with
          active := none, stop := false, claim := none, reserved := (chan s x.val).reserved - 1
          ready := (chan s x.val).ready ++ [mkResponse a.block x.val .aborted
            { finished := k, remaining := n - k, next := f + k, w0 := (dom s d).owned, w1 := (dom s d).quota }] } ∧
        t.ways = s.ways ∧ ∀ y, dom t y = dom s y) ∧
      (∀ rec, a.phase = .drain → recordAt s (f + k) = some rec → rec.state = .gClearingIn →
        (chan s x.val).claim = some (f + k) →
        RecordNow (f + k) { owner := some 0, state := .gOpen, pinned := false, dirty := false, count := 0 } s t ∧
        DomainNow d { dom s d with owned := (dom s d).owned - 1 } s t ∧
        (∀ y ∈ t.drains, y.user ≠ .command x.val) ∧
        chan t x.val = { chan s x.val with
          active := none, stop := false, claim := none, reserved := (chan s x.val).reserved - 1
          ready := (chan s x.val).ready ++ [mkResponse a.block x.val .aborted
            { finished := k, remaining := n - k, next := f + k, w0 := (dom s d).owned - 1
              w1 := (dom s d).quota }] }))

/-- RESET_ENGINES begins the warm reset and stops the guest request and the active commands, which are counted and not
answered; a settled part with clean ways and no revocation resumes (R173, R174, R150, R62, R194, R47, R110, R129,
R130, R154, R196).  MODEL'S CHOICE, log entry 24 (DEDUCED from R47 and R62):
the settling does not end while a line stands on the fill wait list for which no command step, undo or poisoning
waits, because it takes a freed entry. -/
def Obligations.WarmResetBeginsSettlesAndResumes : Prop :=
  (∀ (c : Fin 4) (b : Line) (s : State), TakesControl .resetEngines c.val b s → Quiet s →
    (∀ x a, x < 4 → (chan s x).active = some a → (chan s x).stop = false ∧ stopsAtOnce a = true ∧
      ∀ k, a.work = .trackCollect k → (slotOf s k.slot).collecting ≠ some x) →
    ∃ t, exec (.resetEngines c) s = .next t ∧
      t.warm = some
        { channel := c.val, block := b, stage := .settling
          stopped := ([0, 1, 2, 3].filter (fun x => (chan s x).active.isSome)).length
          discarded := 0, lost := 0, removed := 0, left := 0 } ∧
      t.running = none ∧
      (∀ x, chan t x =
        if x < 4 ∧ (chan s x).active.isSome = true then stoppedInReset (engineTaken c.val s x)
        else engineTaken c.val s x) ∧
      Untouched s { t with
        warm := s.warm, running := s.running, drains := s.drains, domains := s.domains, slots := s.slots
        regions := s.regions } ∧
      ((∀ x, x < 4 → (chan s x).active = none) →
        t.domains = s.domains ∧ t.slots = s.slots ∧ t.regions = s.regions) ∧
      (∀ x a, x < 4 → (chan s x).active = some a → (∀ y, y < 4 → y ≠ x → (chan s y).active = none) →
        StopLeaves x a.work s t) ∧
      ∀ d, d ∈ t.drains ↔ d ∈ s.drains ∧ d.user ≠ .request ∧
        ∀ x a, x < 4 → (chan s x).active = some a →
          ¬(a.phase = .clearance ∧ d.user = .clearance x) ∧ ¬(a.phase = .drain ∧ d.user = .command x)) ∧
  (∀ (c x : Fin 4) (b : Line) (a : Active) (u : Nat) (z : Zeroing) (s : State),
    TakesControl .resetEngines c.val b s → Quiet s → (chan s x.val).active = some a → a.phase = .zero →
    (chan s x.val).stop = false → (∀ y, y < 4 → y ≠ x.val → (chan s y).active = none) →
    unitOf s u = some z → s.units.filter (fun p => p.2.channel == x.val) = [(u, z)] →
    (∃ o ∈ s.outstanding, ∃ i, o.job = .zeroLine u i) →
    ∃ t, exec (.resetEngines c) s = .next t ∧
      t.warm = some { channel := c.val, block := b, stage := .settling, stopped := 0, discarded := 0, lost := 0
                      removed := 0, left := 0 } ∧
      t.running = none ∧
      chan t x.val = { engineTaken c.val s x.val with
        active := some { a with ending := some .aborted }, stop := true } ∧
      (∀ y, y ≠ x.val → chan t y = engineTaken c.val s y) ∧
      unitOf t u = some { z with halted := true } ∧ (∀ v, v ≠ u → unitOf t v = unitOf s v) ∧
      (∀ i, .zeroLine u i ∉ t.tagWaits) ∧ t.outstanding = s.outstanding ∧ t.ways = s.ways ∧
      ∀ y, dom t y = dom s y) ∧
  (∀ (tag : Fin 1024) (o : Outstanding) (x : Fin 4) (a : Active) (u i g : Nat) (z : Zeroing) (w : WarmReset)
    (rec : TagRecord) (s : State), outstandingAt s tag.val = some o → o.job = .zeroLine u i →
    unitOf s u = some z → Quiet s → z.channel = x.val → z.halted = true →
    (∀ p ∈ s.outstanding, p.tag ≠ tag.val → ∀ j, p.job ≠ .zeroLine u j) →
    (∀ j, OwnJob.zeroLine u j ∉ waitingJobs s) → (chan s x.val).active = some a → a.phase = .zero →
    s.warm = some w → undoesGranules a.work = true → g = granuleAt a.work → (chan s x.val).claim = some g →
    recordAt s g = some rec →
    ∃ t, exec (.zeroWriteCompletion tag .ok) s = .next t ∧ unitOf t u = none ∧ Undone a.work g rec s t ∧
      t.warm = some { w with stopped := w.stopped + 1 } ∧ chan t x.val = stoppedInReset (chan s x.val) ∧
      OtherChannels x.val s t) ∧
  (∀ (s : State) (w : WarmReset), s.warm = some w → w.stage = .settling → w.channel < 4 → s.flush = .none →
    Quiet s → s.stage = none → (∀ p ∈ s.inFlight, p.2.orphaned = true) → s.missQueue = [] → s.running = none →
    s.units = [] → (∀ x, x < 4 → (chan s x).active = none ∧ (chan s x).undo = none) → s.fills = [] →
    s.fillWaits = [] → s.poisonings = [] → (∀ p ∈ s.ways, p.2.dirty = false) → writeBackCount s = 0 →
    (∀ p ∈ s.grants, p.2.state ≠ .revoking) →
    ∃ t, exec .warmResetSettled s = .next t ∧ t.warm = none ∧ t.ways = [] ∧ t.requests = [] ∧ t.log = [] ∧
      (∀ d, resultOf t d = LastResult.reset) ∧
      (∀ n, n < 14 → (sourceOf t n).cls = (sourceOf s n).cls ∧
        (sourceOf t n).pending = decide (n = 7 + w.channel)) ∧
      (∀ x, x < 4 → chan t x = { chan s x with
        control := [], work := [], reserved := 0
        ready := if x = w.channel then
            [mkResponse w.block x .done
              { w0 := w.stopped
                w1 := ([0, 1, 2, 3].map (fun y => (chan s y).control.length + (chan s y).work.length)).sum
                w2 := ([0, 1, 2, 3].map (fun y => (chan s y).ready.length)).sum
                w3 := w.removed, w4 := w.left }]
          else [] }) ∧
      t.mode = s.mode ∧ t.grants = s.grants ∧ t.regions = s.regions ∧ t.slots = s.slots ∧
      t.poisonList = s.poisonList ∧ t.inFlight = s.inFlight ∧ ∀ d, dom t d = dom s d) ∧
  (∀ (s : State) (l : Nat), l ∈ s.fillWaits → NoStepWaits l s → exec .warmResetSettled s = .next s)

/-- The POWER_WARN edge abandons commands and begins the flush, which halts the part once the ways are clean
(R202, R16, R132, R170, R176, R47, R62).  MODEL'S CHOICE, log entry 14 (DEDUCED): the first edge abandons every
active command and pending undo in its own step, a waiting one too, and frees their reservations, where R176
says that reservations stay and R170 that an abandoned command has none. MODEL'S CHOICE, log entry 24 (DEDUCED
from R47 and R62): the flush waits for every line on the fill wait list, because it takes a freed entry. MODEL'S
CHOICE, log entry 33: a write-back for which no tag is free is pending all the same. MODEL'S CHOICE, log entry
35: of more than 16 dirty lines those of the lowest ways are written back first. MODEL'S CHOICE, log entry 42: a
write-back outstanding when the writing begins counts among the 16, the flush waits for it, and a line whose such
write-back fails is written back again, where the failure of the flush's own passes the line over. -/
def Obligations.PowerWarnFlushesTheCacheAndHalts : Prop :=
  (∀ s : State, ∃ t, exec .powerWarn s = .next t ∧ t.warnLine = true ∧
    (s.warnLine = true → t = s) ∧
    (s.flush ≠ .none → Untouched s { t with warnLine := s.warnLine } ∧ ∀ x, chan t x = chan s x) ∧
    (s.warnLine = false → s.flush = .none → Quiet s →
      t.flush ≠ .none ∧ t.running = none ∧ t.warm = none ∧ t.requests = s.requests ∧ t.grants = s.grants ∧
      t.drains = s.drains.filter (fun d => !abandonedUsers.contains d.user) ∧ t.inFlight = s.inFlight ∧
      (∀ x, x < 4 → chan t x = { chan s x with
        active := none, stop := false, undo := none, claim := none
        reserved := (chan s x).reserved - if (chan s x).active = none then 0 else 1 }) ∧
      t.poisonings.map (fun p => (p.granule, p.cause, p.source)) =
        (s.poisonings.filter (fun p =>
          !(List.range 4).any (fun x => p.source == .scrub x && (chan s x).undo.any (·.poison)))).map
          (fun p => (p.granule, p.cause, p.source)) ∧
      (∀ l ∈ s.fillWaits, (∃ m ∈ s.missQueue, m.line = l ∧ m.released = false) ∨ NoStepWaits l s →
        l ∈ t.fillWaits ∧ t.flush = .waiting) ∧
      ((∃ p ∈ s.inFlight, p.2.orphaned = false) → t.flush = .waiting ∧ t.mode = s.mode ∧ t.ways = s.ways))) ∧
  (∀ s : State, s.flush = .waiting → s.stage = none → s.missQueue = [] →
    (∀ p ∈ s.inFlight, p.2.orphaned = true) → s.fills = [] → s.fillWaits = [] →
    ∃ t, exec .powerWarnQuiesced s = .next t ∧ t.ways = s.ways ∧ (∀ x, chan t x = chan s x) ∧
      if AllWritten [] s then t.mode = .halted ∧ t.flush = .done ∧ t.offers = s.offers
      else t.mode = s.mode ∧ NextGo [] s t ∧
        t.flush = .writing
          { failed := []
            earlier := (s.outstanding.map (·.job) ++ waitingJobs s).filterMap (fun j => match j with
              | .writeBack _ line => some line
              | _ => none) }) ∧
  (∀ (tag : Fin 1024) (status : DownStatus) (o : Outstanding) (key line : Nat) (v : Way) (x y : CacheWrites)
    (s u : State), outstandingAt s tag.val = some o → o.job = .writeBack key line → tblGet s.ways key = some v →
    s.flush = .writing x → s.fills = [] → Quiet s →
    (∀ c a f, (chan s c).active = some a → a.work ≠ .flushTags f) →
    y = afterEnd line (status == .ok) x → u = afterWriteBack o key v (status == .ok) s →
    ∃ t, exec (.writeBackCompletion tag status) s = .next t ∧ t.ways = u.ways ∧ t.cause = s.cause ∧
      t.integrityMark = s.integrityMark ∧ (∀ c, chan t c = chan s c) ∧
      if AllWritten y.failed u then t.mode = .halted ∧ t.flush = .done
      else t.mode = s.mode ∧ t.flush = .writing y ∧ NextGo y.failed u t) ∧
  (∀ s : State, s.fillWaits ≠ [] → exec .powerWarnQuiesced s = .next s) ∧
  (∀ s : State, exec .powerWarnDeassert s = .next { s with warnLine := false })

/-! ### The Tag Cache and the Fill Table (chapter 3) -/

/-- A fill read lands its line with every record checked, poisoning the granules whose records lost a part, or answers
its waiters TAG_UNAVAILABLE (R48, R49, R50, R52, R53, R54, R55, R56, R57, R198).  MODEL'S CHOICE, log entry 39: the
waiters of the failed fill join the completion queue in the order in which they came to the Miss Queue. -/
def Obligations.FillReadLandsItsLineOrFailsItsWaiters : Prop :=
  ∀ (tag : Fin 1024) (o : Outstanding) (f : Fill) (s : State), outstandingAt s tag.val = some o →
    o.job = .fill f.serial f.line → s.fills.find? (fun x => x.serial == f.serial) = some f →
    NoStepWaits f.line s → Quiet s →
    (∀ (r0 r1 r2 r3 : RecordRead) (w : Nat), f.way = some w →
      (∀ v, tblGet s.ways (8 * (f.line % 256) + w) = some v → v.dirty = false) →
      ∃ t, exec (.fillReadCompletion tag (.records r0 r1 r2 r3)) s = .next t ∧ Landed f w r0 r1 r2 r3 s t ∧
        t.outstanding = s.outstanding.filter (fun x => x.tag != tag.val)) ∧
    ∃ t, exec (.fillReadCompletion tag .error) s = .next t ∧ FillFailed f s t ∧ t.mode = s.mode ∧
      t.outstanding = s.outstanding.filter (fun x => x.tag != tag.val)

/-- A way that leaves use goes to the first fill of its set that waits, and its dirty line is written back; a
waiting line starts its fill (R44, R45, R47, R10, R25, R174, R62).  MODEL'S CHOICE, log entry 24 (DEDUCED, R174
over R47): once a warm reset has settled but for its fills, a line that only poisonings or undos wait for starts
no fill and is passed over. MODEL'S CHOICE, log entry 18: the fill that has waited longest comes first. -/
def Obligations.FillsClaimWaysAndFollowTheWaitList : Prop :=
  (∀ (set : Fin 256) (way : Fin 8) (f : Fill) (s : State), s.fills.find? (waitsForWay set.val) = some f →
    (∀ x ∈ s.fills, x.serial = f.serial → x.data = none) → wayInUse s (8 * set.val + way.val) = false →
    Quiet s →
    ∃ t, exec (.fillClaimsWay set way) s = .next t ∧
      t.fills = s.fills.map (fun x => if x.serial = f.serial then { x with way := some way.val } else x) ∧
      t.ways = s.ways ∧ (∀ c, chan t c = chan s c) ∧ t.missQueue = s.missQueue ∧
      match tblGet s.ways (8 * set.val + way.val) with
      | none => t.outstanding = s.outstanding ∧ t.offers = s.offers ∧ t.tagWaits = s.tagWaits
      | some v =>
        if v.dirty = false then t.outstanding = s.outstanding ∧ t.offers = s.offers ∧ t.tagWaits = s.tagWaits
        else if s.tagWaits.any (fun j => jobClass j == .writeBack) then
          t.tagWaits = s.tagWaits ++ [.writeBack (8 * set.val + way.val) v.line] ∧ t.offers = s.offers
        else match freeTag .writeBack s with
          | none => t.tagWaits = s.tagWaits ++ [.writeBack (8 * set.val + way.val) v.line] ∧ t.offers = s.offers
          | some x =>
            t.outstanding = s.outstanding ++
              [{ tag := x, job := .writeBack (8 * set.val + way.val) v.line, changed := false, timer := 0 }] ∧
            t.offers = s.offers ++
              [{ tag := x, kind := .write, domain := 0, mask := 0, data := .tagLine v.records
                 address := s.base + 4096 * s.tagBase.getD 0 + 64 * v.line }]) ∧
  (∀ (line : Nat) (rest : List Nat) (s : State), s.fillWaits = line :: rest → s.fills.length < 8 →
    (s.warm = none ∨ (∃ w, s.warm = some w ∧ w.stage ≠ .settling) ∨
      (∃ m ∈ s.missQueue, m.line = line ∧ m.released = false) ∨ NoStepWaits line s) →
    ∃ t, exec .fillWaitListStart s = .next t ∧ t.fillWaits = rest ∧
      t.fills.length = s.fills.length + 1 ∧ (∃ f ∈ t.fills, f.line = line ∧ f.data = none) ∧
      t.ways = s.ways ∧ t.missQueue = s.missQueue ∧ t.completions = s.completions ∧
      (∀ d, dom t d = dom s d) ∧ ∀ c, chan t c = chan s c) ∧
  (∀ (w : WarmReset) (s : State), s.warm = some w → w.stage = .settling → s.stage = none → s.missQueue = [] →
    (∀ p ∈ s.inFlight, p.2.orphaned = true) → s.running = none → s.units = [] →
    (∀ x, x < 4 → (chan s x).active = none) →
    ((∀ l ∈ s.fillWaits, ∃ p ∈ s.poisonings, p.wait = .fill l) → exec .fillWaitListStart s = .next s) ∧
    ∀ (held rest : List Nat) (line : Nat), s.fillWaits = held ++ line :: rest → s.fills.length < 8 →
      (∀ l ∈ held, ∃ p ∈ s.poisonings, p.wait = .fill l) → NoStepWaits line s →
      ∃ t, exec .fillWaitListStart s = .next t ∧ t.fillWaits = held ++ rest ∧
        t.fills.length = s.fills.length + 1 ∧ (∃ f ∈ t.fills, f.line = line ∧ f.data = none))

/-- A completed write-back cleans its line unless it changed; a failed one contains the part; a fill that waits on its
victim, FLUSH_TAGS and the warm reset's Tag Cache stage go on with it; FLUSH_TAGS issues sixteen (R44, R45, R46, R48,
R49, R60, R61, R62, R151, R174, R175, R198).  MODEL'S CHOICE, log entry 33: write-backs that still wait for a tag count
among the 16. MODEL'S CHOICE, log entry 35: of more than 16 dirty lines the stage writes those of the lowest ways
first. MODEL'S CHOICE, log entry 42: a write-back outstanding when the stage begins counts among its 16, the stage
waits for it, and a line whose such write-back fails is written back again. -/
def Obligations.WriteBacksCleanLinesAndFlushTagsIssuesThem : Prop :=
  (∀ (tag : Fin 1024) (o : Outstanding) (key line : Nat) (v : Way) (s : State),
    outstandingAt s tag.val = some o → o.job = .writeBack key line → tblGet s.ways key = some v → Quiet s →
    s.warm = none → s.flush = .none →
    (∀ f ∈ s.fills, ∀ w, f.way = some w → 8 * (f.line % 256) + w ≠ key) →
    (∀ c a x, (chan s c).active = some a → a.work = .flushTags x → line ∉ x.waiting) →
    (∃ t, exec (.writeBackCompletion tag .ok) s = .next t ∧
      tblGet t.ways key = some { v with dirty := if o.changed then v.dirty else false } ∧
      (∀ x, x ≠ key → tblGet t.ways x = tblGet s.ways x) ∧
      t.outstanding = s.outstanding.filter (fun x => x.tag != tag.val) ∧ t.mode = s.mode ∧
      ∀ c, chan t c = chan s c) ∧
    ∃ t, exec (.writeBackCompletion tag .error) s = .next t ∧ t.ways = s.ways ∧
      t.outstanding = s.outstanding.filter (fun x => x.tag != tag.val) ∧ (∀ c, chan t c = chan s c) ∧
      TakesCauses [.tagWrite] s t) ∧
  (∀ (tag : Fin 1024) (o : Outstanding) (key line w : Nat) (v : Way) (f : Fill) (s : State),
    outstandingAt s tag.val = some o → o.job = .writeBack key line → tblGet s.ways key = some v → v.dirty = true →
    Quiet s → s.warm = none → s.flush = .none → f.way = some w → key = 8 * (f.line % 256) + w →
    s.fills.find? (fun y => y.way.any (fun n => 8 * (y.line % 256) + n == key)) = some f →
    s.fills.find? (fun y => y.serial == f.serial) = some f → NoStepWaits f.line s →
    (∀ c a x, (chan s c).active = some a → a.work = .flushTags x → line ∉ x.waiting) →
    (o.changed = false → f.data = none →
      ∃ t, exec (.writeBackCompletion tag .ok) s = .next t ∧ t.ways = tblPut s.ways key { v with dirty := false } ∧
        t.fills = s.fills ∧ t.missQueue = s.missQueue ∧ t.mode = s.mode ∧ ∀ c, chan t c = chan s c) ∧
    (o.changed = false → ∀ r0 r1 r2 r3, f.data = some (r0, r1, r2, r3) →
      ∃ t, exec (.writeBackCompletion tag .ok) s = .next t ∧ Landed f w r0 r1 r2 r3 s t) ∧
    (o.changed = true →
      ∃ t, exec (.writeBackCompletion tag .ok) s = .next t ∧ writeBackPending t key = true ∧ t.ways = s.ways ∧
        t.fills = s.fills ∧ t.missQueue = s.missQueue ∧ t.mode = s.mode ∧ ∀ c, chan t c = chan s c) ∧
    ∃ t, exec (.writeBackCompletion tag .error) s = .next t ∧ FillFailed f s t ∧ TakesCauses [.tagWrite] s t) ∧
  (∀ (tag : Fin 1024) (status : DownStatus) (o : Outstanding) (key line : Nat) (v : Way) (c : Fin 4) (a : Active)
    (x y : FlushWork) (more : List (Nat × Way)) (s u : State),
    outstandingAt s tag.val = some o → o.job = .writeBack key line → tblGet s.ways key = some v →
    (chan s c.val).active = some a → (chan s c.val).control = [] → (chan s c.val).work = [] →
    (chan s c.val).undo = none → s.warm = none → Quiet s → a.work = .flushTags x → a.phase = .writes →
    a.wait = .writes → line ∈ x.waiting → s.flush = .none → (∀ f ∈ s.fills, ∀ w, f.way = some w → 8 * (f.line % 256) + w ≠ key) →
    (∀ c' a' x', c' ≠ c.val → (chan s c').active = some a' → a'.work ≠ .flushTags x') →
    u = afterWriteBack o key v (status == .ok) s →
    more = (if a.ending = none then (u.ways.filter (fun p => decide (x.position ≤ p.1) && p.2.dirty)).take
      (16 - (x.waiting.erase line).length) else []) →
    y = { x with
      waiting := x.waiting.erase line, issued := x.issued.erase line
      good := if status = .ok then x.good + 1 else x.good
      failed := if status = .ok then x.failed else x.failed + 1
      lowest := if status = .ok then x.lowest else some (min (x.lowest.getD line) line) } →
    ∃ t, exec (.writeBackCompletion tag status) s = .next t ∧ t.ways = u.ways ∧
      (status = .ok → t.mode = s.mode) ∧ (status = .error → TakesCauses [.tagWrite] s t) ∧
      if y.waiting = [] ∧ more = [] then
        Ends c.val a (a.ending.getD (if y.failed = 0 then .done else .downstreamError))
          (stoppedReport { a with work := .flushTags y } t) s t
      else
        (∀ p ∈ more, writeBackPending t p.1 = true) ∧
        ∃ z, GoesOn c.val { a with work := .flushTags z } (chan s c.val).claim s t ∧
          z.waiting = y.waiting ++ more.map (·.2.line) ∧ z.found = y.found ++ more.map (·.2.line) ∧
          z.good = y.good ∧ z.failed = y.failed ∧ z.lowest = y.lowest ∧
          z.position =
            if a.ending = none ∧ more.length < 16 - y.waiting.length then 2048
            else (more.getLast?.map (·.1 + 1)).getD x.position) ∧
  (∀ (tag : Fin 1024) (status : DownStatus) (o : Outstanding) (key line : Nat) (v : Way) (w : WarmReset)
    (x y : CacheWrites) (s u : State), outstandingAt s tag.val = some o → o.job = .writeBack key line →
    tblGet s.ways key = some v → s.warm = some w → w.stage = .tagCache x → s.flush = .none → s.fills = [] →
    Quiet s → (∀ c a f, (chan s c).active = some a → a.work ≠ .flushTags f) →
    y = afterEnd line (status == .ok) x → u = afterWriteBack o key v (status == .ok) s →
    ∃ t, exec (.writeBackCompletion tag status) s = .next t ∧
      (status = .ok → t.mode = s.mode) ∧ (status = .error → TakesCauses [.tagWrite] s t) ∧
      (¬AllWritten y.failed u → t.ways = u.ways ∧ t.warm = some { w with stage := .tagCache y } ∧
        NextGo y.failed u t ∧ ∀ c, chan t c = chan s c) ∧
      (AllWritten y.failed u → (∀ p ∈ s.grants, p.2.state ≠ .revoking) → (∀ c, c < 4 → (chan s c).undo = none) →
        s.poisonings = [] → s.requests = [] →
        t.ways = u.ways.filter (fun p => p.2.dirty) ∧ t.warm = none ∧
        chan t w.channel = { chan s w.channel with
          reserved := (chan s w.channel).reserved - 1
          ready := (chan s w.channel).ready ++ [mkResponse w.block w.channel .done
            { w0 := w.stopped, w1 := w.discarded, w2 := w.lost, w3 := w.removed, w4 := w.left }] } ∧
        OtherChannels w.channel s t ∧ (sourceOf t (7 + w.channel)).pending = true) ∧
      ∀ i g rest, AllWritten y.failed u → s.grants.filter (fun p => p.2.state == .revoking) = (i, g) :: rest →
        tblGet s.grants i = some g → PairTraffic g.granule g.grantee s →
        t.ways = u.ways.filter (fun p => p.2.dirty) ∧ t.grants = s.grants ∧ (∀ c, chan t c = chan s c) ∧
        t.drains = s.drains ++ [counting .warmReset (fun n d => n == g.granule && d == g.grantee) s] ∧
        t.warm = some { w with
          stage := .revocation (((i, g) :: rest).map (fun p => (p.1, p.2.serial))) true .drain }) ∧
  (∀ (c : Fin 4) (b : Line) (s : State), StartsWork .flushTags c.val b s →
    ∃ t, exec (.flushTags c) s = .next t ∧ t.ways = s.ways ∧
      if ∀ p ∈ s.ways, p.2.dirty = false then
        EndsAtOnce c.val b .done { next := granuleCount s } s t ∧ Untouched s t
      else
        (∃ x, Starts c.val b (.flushTags x) .writes .writes (chan s c.val).claim s t ∧
          x.waiting = ((s.ways.filter (fun p => p.2.dirty)).take 16).map (fun p => p.2.line) ∧
          x.found = x.waiting ∧ x.good = 0 ∧ x.failed = 0 ∧ x.lowest = none) ∧
        ∀ p ∈ (s.ways.filter (fun p => p.2.dirty)).take 16, writeBackPending t p.1 = true)

/-! ### FORMAT (chapter 2) -/

/-- FORMAT drains its region, writes every tag line with its records, sixteen outstanding, and ends OPERATIONAL,
or UNFORMATTED on an error (R33, R34, R35, R36, R25, R29, R85). -/
def Obligations.FormatWritesEveryTagLineAndOpensThePart : Prop :=
  (∀ (c : Fin 4) (b : Line) (s : State), StartsWork .format c.val b s → SpanLegal s → formatWrites s = 0 →
    NoDrain (.command c.val) s →
    ∃ t, exec (.format c) s = .next t ∧
      if s.mode ≠ .unformatted then
        WorkRefused c.val b .mode
          { remaining := tagLineCount s, w0 := wordA b, w1 := tagRegionSize s } s t
      else if granuleCount s < wordA b + tagRegionSize s then
        WorkRefused c.val b .parameter
          { remaining := tagLineCount s, w0 := wordA b, w1 := tagRegionSize s } s t
      else
        t.mode = .formatting ∧ t.tagBase = some (wordA b) ∧ t.progress = 0 ∧ t.ways = [] ∧
        ∀ x, x = counting (.command c.val)
            (fun g _ => decide (wordA b ≤ g ∧ g < wordA b + tagRegionSize s)) s →
        (x.members ≠ [] ∨ x.held = true →
          Starts c.val b (.format (wordA b) 0 none) .drain .drain (chan s c.val).claim s t ∧
            t.drains = s.drains ++ [x] ∧ t.outstanding = s.outstanding) ∧
        (x.members = [] → x.held = false → t.drains = s.drains ∧
          Starts c.val b (.format (wordA b) 16 none) .writes .writes (chan s c.val).claim s t ∧
            ∀ l, l < 16 → FormatLineGoes (wordA b) l t)) ∧
  (∀ (c : Fin 4) (a : Active) (base : Nat) (s : State), Runs c.val a s → a.work = .format base 0 none →
    a.phase = .drain → a.wait = .drain → NoDrain (.command c.val) s → formatWrites s = 0 → s.progress = 0 →
    SpanLegal s → s.tagBase = some base →
    ∃ t, exec (.formatDrainDone c) s = .next t ∧
      GoesOn c.val { a with work := .format base 16 none, phase := .writes, wait := .writes }
        (chan s c.val).claim s t ∧
      (∀ l, l < 16 → FormatLineGoes base l t) ∧ t.mode = s.mode ∧ t.tagBase = s.tagBase) ∧
  (∀ (tag : Fin 1024) (o : Outstanding) (line : Nat) (c : Fin 4) (a : Active) (base next : Nat) (s : State),
    outstandingAt s tag.val = some o → o.job = .formatLine line → Runs c.val a s →
    (∀ x, x < c.val → ∀ a', (chan s x).active = some a' → ∀ p q r, a'.work ≠ .format p q r) →
    a.work = .format base next none → a.phase = .writes → a.wait = .writes →
    (∀ n k, s.progress + 1 < tagLineCount s → s.tagBase = some base →
      formatWrites { s with outstanding := s.outstanding.filter (fun x => x.tag != tag.val) } = n →
      k = min (16 - n) (tagLineCount s - next) →
      ∃ t, exec (.formatWriteCompletion tag .ok) s = .next t ∧ t.progress = s.progress + 1 ∧
        t.mode = s.mode ∧ t.tagBase = s.tagBase ∧
        GoesOn c.val { a with work := .format base (next + k) none } (chan s c.val).claim s t ∧
        (∀ l, next ≤ l → l < next + k → FormatLineGoes base l t) ∧
        (k = 0 → t.outstanding = s.outstanding.filter (fun x => x.tag != tag.val))) ∧
    (s.progress + 1 = tagLineCount s → next = tagLineCount s →
      ∃ t, exec (.formatWriteCompletion tag .ok) s = .next t ∧ t.progress = s.progress + 1 ∧
        t.mode = .operational ∧ t.tagBase = s.tagBase ∧ (sourceOf t 13).pending = true ∧
        Ends c.val a .done
          { finished := tagLineCount s, next := 4 * tagLineCount s, w0 := base, w1 := tagRegionSize s } s t) ∧
    ((∀ x ∈ s.outstanding, x.tag ≠ tag.val → jobClass x.job ≠ .formatWrite) →
      (∀ j ∈ waitingJobs s, jobClass j ≠ .formatWrite) →
      ∃ t, exec (.formatWriteCompletion tag .error) s = .next t ∧ t.mode = .unformatted ∧ t.tagBase = none ∧
        t.progress = s.progress ∧
        Ends c.val a .downstreamError
          { finished := s.progress, remaining := tagLineCount s - s.progress, next := 4 * min line next
            w0 := base, w1 := tagRegionSize s } s t))

/-! ### Granule operations and the Scrub Units (chapter 6) -/

/-- ASSIGN applies its tests in order, then claims an OPEN granule for the domain and counts it (R116, R117,
R118, R112, R113, R114, R98, R85).  MODEL'S CHOICE, log entry 17: refused with PARAMETER for a domain tag above 511
it reports owned count 0 and quota 0, which no rule gives. -/
def Obligations.AssignClaimsAnOpenGranule : Prop :=
  ∀ (c : Fin 4) (b : Line) (s : State) (d f n : Nat), StartsWork .assign c.val b s → wordA b = d →
    wordB b = f → wordC b = n →
    ∃ t, exec (.assign c) s = .next t ∧
      if d = 0 ∨ 511 < d ∨ (wordD b ≠ 1 ∧ wordD b ≠ 2) ∨ RangeRefused s f n then
        WorkRefused c.val b .parameter
          { remaining := n, next := f, w0 := (dom s d).owned, w1 := (dom s d).quota } s t
      else if (dom s d).state ≠ .preparing ∧ (dom s d).state ≠ .running ∧ (dom s d).state ≠ .paused then
        WorkRefused c.val b .domainState
          { remaining := n, next := f, w0 := (dom s d).owned, w1 := (dom s d).quota } s t
      else if wordD b = 2 ∧ (dom s d).state ≠ .preparing then
        WorkRefused c.val b .keepNotAllowed
          { remaining := n, next := f, w0 := (dom s d).owned, w1 := (dom s d).quota } s t
      else match recordAt s f with
        | none => StartsWithFill c.val b (.assign d f n (wordD b == 2) 0) .visit f s t
        | some rec =>
          if (dom s d).quota ≤ (dom s d).owned then
            StopsAtOnce c.val b .quotaReached
              { remaining := n, next := f, w0 := (dom s d).owned, w1 := (dom s d).quota } s t
          else if InSomeRegion s f then
            StopsAtOnce c.val b .regionConflict
              { remaining := n, next := f, w0 := (dom s d).owned, w1 := (dom s d).quota } s t
          else if Busy s f rec then
            StopsAtOnce c.val b .granuleBusy
              { remaining := n, next := f, w0 := (dom s d).owned, w1 := (dom s d).quota } s t
          else if rec.state ≠ .gOpen then
            StopsAtOnce c.val b .granuleState
              { remaining := n, next := f, w0 := (dom s d).owned, w1 := (dom s d).quota } s t
          else
            NoDrain (.command c.val) s →
            (wordD b = 1 ∨ ¬NoTraffic f s →
              RecordNow f { owner := some d, state := .gClearingIn, pinned := false, dirty := false, count := 0 }
                s t ∧
              DomainNow d { dom s d with owned := (dom s d).owned + 1 } s t ∧
              if NoTraffic f s then
                Starts c.val b (.assign d f n false 0) .unit .unit (some f) s t ∧ t.drains = s.drains
              else
                Starts c.val b (.assign d f n (wordD b == 2) 0) .drain .drain (some f) s t ∧
                  t.drains = s.drains ++ [counting (.command c.val) (fun g _ => g == f) s]) ∧
            (wordD b = 2 → n = 1 → NoTraffic f s →
              RecordNow f { owner := some d, state := .gPrivate, pinned := false, dirty := false, count := 0 }
                s t ∧
              DomainNow d { dom s d with owned := (dom s d).owned + 1 } s t ∧
              EndsAtOnce c.val b .done
                { finished := 1, next := f + 1, w0 := (dom s d).owned + 1, w1 := (dom s d).quota } s t ∧
              t.drains = s.drains)

/-- RELEASE and RESTORE apply their tests in order and claim their granule; RELEASE makes it CLEARING_OUT (R119,
R120, R123, R112, R113, R114, R85).  MODEL'S CHOICE, log entry 17: value word 0 of a RESTORE refused or stopped is 0,
and a RELEASE of a domain tag above 511 reports owned count 0 and quota 0, which no rule gives. -/
def Obligations.ReleaseAndRestoreClaimTheirGranule : Prop :=
  (∀ (c : Fin 4) (b : Line) (s : State) (d f n : Nat), StartsWork .release c.val b s → wordA b = d →
    wordB b = f → wordC b = n →
    ∃ t, exec (.release c) s = .next t ∧
      if d = 0 ∨ 511 < d ∨ RangeRefused s f n then
        WorkRefused c.val b .parameter
          { remaining := n, next := f, w0 := (dom s d).owned, w1 := (dom s d).quota } s t
      else if (dom s d).state = .free ∨ (dom s d).state = .retiring ∨ (dom s d).state = .root then
        WorkRefused c.val b .domainState
          { remaining := n, next := f, w0 := (dom s d).owned, w1 := (dom s d).quota } s t
      else match recordAt s f with
        | none => StartsWithFill c.val b (.release d f n 0) .visit f s t
        | some rec =>
          if Busy s f rec then
            StopsAtOnce c.val b .granuleBusy
              { remaining := n, next := f, w0 := (dom s d).owned, w1 := (dom s d).quota } s t
          else if rec.state ≠ .gPrivate ∨ rec.owner ≠ some d then
            StopsAtOnce c.val b .granuleState
              { remaining := n, next := f, w0 := (dom s d).owned, w1 := (dom s d).quota } s t
          else if rec.pinned = true then
            StopsAtOnce c.val b .granulePinned
              { remaining := n, next := f, w0 := (dom s d).owned, w1 := (dom s d).quota } s t
          else if rec.count ≠ 0 then
            StopsAtOnce c.val b .granuleShared
              { remaining := n, next := f, w0 := (dom s d).owned, w1 := (dom s d).quota } s t
          else
            NoDrain (.command c.val) s →
            RecordNow f { rec with state := .gClearingOut } s t ∧ (∀ x, dom t x = dom s x) ∧
              if NoTraffic f s then
                Starts c.val b (.release d f n 0) .unit .unit (some f) s t ∧ t.drains = s.drains
              else
                Starts c.val b (.release d f n 0) .drain .drain (some f) s t ∧
                  t.drains = s.drains ++ [counting (.command c.val) (fun g _ => g == f) s]) ∧
  (∀ (c : Fin 4) (b : Line) (s : State), StartsWork .restore c.val b s →
    ∃ t, exec (.restore c) s = .next t ∧
      if granuleCount s ≤ wordA b then
        WorkRefused c.val b .parameter
          { remaining := 1, next := wordA b, w1 := 2 ^ 64 - 1, w2 := s.poisonList.length } s t
      else match recordAt s (wordA b) with
        | none => StartsWithFill c.val b (.restore (wordA b)) .visit (wordA b) s t
        | some rec =>
          if Busy s (wordA b) rec then
            StopsAtOnce c.val b .granuleBusy
              { remaining := 1, next := wordA b, w1 := 2 ^ 64 - 1, w2 := s.poisonList.length } s t
          else if inTagRegion s (wordA b) = true ∨ rec.state ≠ .gPoisoned then
            StopsAtOnce c.val b .granuleState
              { remaining := 1, next := wordA b, w1 := 2 ^ 64 - 1, w2 := s.poisonList.length } s t
          else
            NoDrain (.command c.val) s →
            t.ways = s.ways ∧ (∀ x, dom t x = dom s x) ∧ t.poisonList = s.poisonList ∧
              if NoTraffic (wordA b) s then
                Starts c.val b (.restore (wordA b)) .unit .unit (some (wordA b)) s t ∧ t.drains = s.drains
              else
                Starts c.val b (.restore (wordA b)) .drain .drain (some (wordA b)) s t ∧
                  t.drains = s.drains ++ [counting (.command c.val) (fun g _ => g == wordA b) s])

/-- A drained granule asks for a Scrub Unit, which zeroes its 64 lines; its command then finishes it, and a
failed write poisons it (R112, R118, R121, R123, R107, R109, R125, R126, R127, R54). -/
def Obligations.ScrubbedGranuleIsFinishedOrPoisoned : Prop :=
  (∀ (c : Fin 4) (a : Active) (d f n k : Nat) (rec : TagRecord) (s : State), Runs c.val a s →
    a.phase = .drain → a.wait = .drain →
    (a.work = .assign d f n false k ∨ a.work = .release d f n k) → NoDrain (.command c.val) s →
    (chan s c.val).claim = some (f + k) → recordAt s (f + k) = some rec → rec.state ≠ .gPoisoned →
    ∃ t, exec (.granuleDrainDone c) s = .next t ∧
      GoesOn c.val { a with phase := .unit, wait := .unit } (some (f + k)) s t ∧
      Untouched s { t with lru := s.lru }) ∧
  (∀ (s : State) (u k c : Nat) (a : Active), tblFree 2 s.units = some u → 1 ≤ k → k ≤ 4 →
    c = (s.lastServed + k) % 4 → (chan s c).active = some a → a.wait = .unit →
    (∀ j a', 1 ≤ j → j < k → (chan s ((s.lastServed + j) % 4)).active = some a' → a'.wait ≠ .unit) →
    ∃ t, exec .scrubUnitGrant s = .next t ∧ t.lastServed = c ∧
      (∃ z, unitOf t u = some z ∧ z.channel = c ∧ z.granule = granuleAt a.work ∧ z.completed = 0 ∧
        z.failed = false ∧ z.halted = false) ∧
      (∀ i, i < 64 → .zeroLine u i ∈ t.tagWaits ∨
        ∃ o ∈ t.outstanding, o.job = .zeroLine u i ∧
          { tag := o.tag, kind := .write, domain := 0, mask := 0, data := .line 0
            address := s.base + 4096 * granuleAt a.work + 64 * i } ∈ t.offers) ∧
      chan t c = { chan s c with active := some { a with phase := .zero, wait := .zero } } ∧
      OtherChannels c s t ∧ t.ways = s.ways ∧ ∀ d, dom t d = dom s d) ∧
  (∀ (tag : Fin 1024) (o : Outstanding) (u i : Nat) (z : Zeroing) (s : State),
    outstandingAt s tag.val = some o → o.job = .zeroLine u i → unitOf s u = some z → Quiet s →
    ((∃ x ∈ s.outstanding, x.tag ≠ tag.val ∧ ∃ j, x.job = .zeroLine u j) →
      (∃ t, exec (.zeroWriteCompletion tag .ok) s = .next t ∧
        unitOf t u = some { z with completed := z.completed + 1 } ∧
        t.outstanding = s.outstanding.filter (fun x => x.tag != tag.val) ∧ t.ways = s.ways ∧
        ∀ c, chan t c = chan s c) ∧
      ∀ (c : Fin 4) (a : Active) (rec : TagRecord), z.channel = c.val → z.failed = false → s.flush = .none →
        Runs c.val a s → a.phase = .zero → a.wait = .zero → recordAt s z.granule = some rec →
        ∃ t, exec (.zeroWriteCompletion tag .error) s = .next t ∧
          unitOf t u = some { z with failed := true, halted := true } ∧
          RecordNow z.granule
            { owner := rec.owner, state := .gPoisoned, pinned := false, dirty := false, count := 0 } s t ∧
          (s.poisonList.length < 16 → ∃ e ∈ t.poisonList, e.granule = z.granule ∧ e.owner = rec.owner) ∧
          GoesOn c.val { a with phase := .scrubFailed, wait := .poison, ending := some .poisoned }
            (chan s c.val).claim s t) ∧
    ∀ (c : Fin 4) (a : Active) (g : Nat) (rec : TagRecord), z.channel = c.val → z.halted = false →
      Runs c.val a s → a.phase = .zero → a.wait = .zero → recordAt s g = some rec →
      (∀ x ∈ s.outstanding, x.tag ≠ tag.val → ∀ j, x.job ≠ .zeroLine u j) →
      (∀ j, OwnJob.zeroLine u j ∉ waitingJobs s) →
      (∀ d f n, a.work = .assign d f (n + 1) false n → g = f + n → (chan s c.val).claim = some g →
        rec.state ≠ .gPoisoned →
        ∃ t, exec (.zeroWriteCompletion tag .ok) s = .next t ∧ unitOf t u = none ∧
          RecordNow g { owner := some d, state := .gPrivate, pinned := false, dirty := false, count := 0 } s t ∧
          (∀ x, dom t x = dom s x) ∧
          Ends c.val a .done
            { finished := n + 1, next := f + (n + 1), w0 := (dom s d).owned, w1 := (dom s d).quota } s t) ∧
      (∀ d f n, a.work = .release d f (n + 1) n → g = f + n → (chan s c.val).claim = some g →
        rec.state ≠ .gPoisoned →
        ∃ t, exec (.zeroWriteCompletion tag .ok) s = .next t ∧ unitOf t u = none ∧
          RecordNow g { owner := some 0, state := .gOpen, pinned := false, dirty := false, count := 0 } s t ∧
          DomainNow d { dom s d with owned := (dom s d).owned - 1 } s t ∧
          Ends c.val a .done
            { finished := n + 1, next := f + (n + 1), w0 := (dom s d).owned - 1, w1 := (dom s d).quota } s t) ∧
      (a.work = .restore g →
        ∃ t, exec (.zeroWriteCompletion tag .ok) s = .next t ∧ unitOf t u = none ∧
          RecordNow g { owner := some 0, state := .gOpen, pinned := false, dirty := false, count := 0 } s t ∧
          t.poisonList = s.poisonList.filter (fun e => e.granule != g) ∧
          (∀ d, rec.owner = some d → d ≠ 0 → DomainNow d { dom s d with owned := (dom s d).owned - 1 } s t) ∧
          (rec.owner = none ∨ rec.owner = some 0 → ∀ x, dom t x = dom s x) ∧
          Ends c.val a .done
            { finished := 1, next := g + 1, w0 := rec.owner.getD (2 ^ 64 - 1)
              w1 := ((s.poisonList.find? (fun e => e.granule == g)).map
                (fun e => poisonCauseCode e.cause)).getD (2 ^ 64 - 1)
              w2 := (s.poisonList.filter (fun e => e.granule != g)).length } s t) ∧
      ∀ r, a.work = .retire r → r.walk.position = g → rec.owner = some r.domain →
        (rec.state ≠ .gPoisoned ∨ r.poisonedAtVisit = true) →
        ((dom s r.domain).owned = 1 → (∀ q ∈ s.requests, q.requester ≠ r.domain) →
          ∃ t, exec (.zeroWriteCompletion tag .ok) s = .next t ∧ unitOf t u = none ∧
            RecordNow g { owner := some 0, state := .gOpen, pinned := false, dirty := false, count := 0 } s t ∧
            DomainNow r.domain Domain.reset s t ∧
            t.poisonList = (if r.poisonedAtVisit = true then s.poisonList.filter (fun e => e.granule != g)
              else s.poisonList) ∧
            Ends c.val a .done
              { finished := r.released + 1, next := r.walk.after, w0 := r.removed
                w1 := r.slotReleased.getD (2 ^ 64 - 1), w2 := r.ownedAtWalk } s t) ∧
        (2 ≤ (dom s r.domain).owned → g + 1 < granuleCount s →
          (r.walk.inHint = true → g + 1 < r.hintFirst + r.hintCount) → recordAt s (g + 1) = none →
          ∃ t, exec (.zeroWriteCompletion tag .ok) s = .next t ∧ unitOf t u = none ∧
            RecordNow g { owner := some 0, state := .gOpen, pinned := false, dirty := false, count := 0 } s t ∧
            DomainNow r.domain { dom s r.domain with owned := (dom s r.domain).owned - 1 } s t ∧
            GoesOn c.val
              { a with
                work := .retire { r with released := r.released + 1, walk := { r.walk with position := g + 1 } }
                phase := .visiting, wait := .fill ((g + 1) / 4) } none s t))

/-- QUERY_GRANULES reads up to five cached records; REGION_SET closes a range of one OPEN granule or leaves its
entry EMPTY (R124, R181, R196, R23).  MODEL'S CHOICE, log entry 2: the EMPTY entry that a stopped REGION_SET
leaves holds the first granule, count and kind that it gave. -/
def Obligations.QueryGranulesAndRegionSetWalkTheirRange : Prop :=
  (∀ (c : Fin 4) (b : Line) (s : State) (f n : Nat), StartsWork .queryGranules c.val b s → wordA b = f →
    wordB b = n →
    ∃ t, exec (.queryGranules c) s = .next t ∧
      if n = 0 ∨ 5 < n ∨ granuleCount s < f + n then
        WorkRefused c.val b .parameter
          { remaining := n, next := f, w0 := 2 ^ 64 - 1, w1 := 2 ^ 64 - 1, w2 := 2 ^ 64 - 1, w3 := 2 ^ 64 - 1
            w4 := 2 ^ 64 - 1 } s t
      else
        (recordAt s f = none → StartsWithFill c.val b (.queryGranules f n []) .visit f s t) ∧
        ∀ rec : Nat → TagRecord, (∀ i, i < n → recordAt s (f + i) = some (rec i)) →
          StopsAtOnce c.val b .done
            { finished := n, next := f + n, w0 := recordValue (rec 0)
              w1 := if 1 < n then recordValue (rec 1) else 2 ^ 64 - 1
              w2 := if 2 < n then recordValue (rec 2) else 2 ^ 64 - 1
              w3 := if 3 < n then recordValue (rec 3) else 2 ^ 64 - 1
              w4 := if 4 < n then recordValue (rec 4) else 2 ^ 64 - 1 } s t) ∧
  (∀ (c : Fin 4) (b : Line) (s : State) (i f n : Nat), StartsWork .regionSet c.val b s → wordA b = i →
    wordB b = f → wordC b = n →
    ∃ t, exec (.regionSet c) s = .next t ∧
      if 7 < i ∨ (wordD b ≠ 1 ∧ wordD b ≠ 2) ∨ RangeRefused s f n then
        WorkRefused c.val b .parameter { remaining := n, next := f } s t
      else if s.freeze = true then WorkRefused c.val b .frozen { remaining := n, next := f } s t
      else if (regionOf s i).state = .lockedDown then
        WorkRefused c.val b .locked { remaining := n, next := f } s t
      else if (regionOf s i).state ≠ .empty then
        WorkRefused c.val b .regionConflict { remaining := n, next := f } s t
      else if ∃ x ∈ s.tagBase.toList, f < x + tagRegionSize s ∧ x < f + n then
        WorkRefused c.val b .parameter { remaining := n, next := f } s t
      else if ∃ j ∈ List.range 8, j ≠ i ∧ (regionOf s j).state ≠ .empty ∧
          f < (regionOf s j).first + (regionOf s j).count ∧ (regionOf s j).first < f + n then
        WorkRefused c.val b .regionConflict { remaining := n, next := f } s t
      else
        (∀ j, j ≠ i → regionOf t j = regionOf s j) ∧
        match recordAt s f with
        | none =>
          StartsWithFill c.val b (.regionSet i f n (wordD b == 2) 0) .visit f s t ∧
            regionOf t i = { first := f, count := n, noAccess := wordD b == 2, state := .pending }
        | some rec =>
          if Claimed s f then
            EndsAtOnce c.val b .granuleBusy { remaining := n, next := f } s t ∧
              regionOf t i = { first := f, count := n, noAccess := wordD b == 2, state := .empty }
          else if rec.state ≠ .gOpen then
            EndsAtOnce c.val b .granuleState { remaining := n, next := f } s t ∧
              regionOf t i = { first := f, count := n, noAccess := wordD b == 2, state := .empty }
          else n = 1 →
            EndsAtOnce c.val b .done { finished := 1, next := f + 1, w0 := i, w1 := wordD b } s t ∧
              regionOf t i = { first := f, count := 1, noAccess := wordD b == 2, state := .set })

/-! ### RETIRE (5.5) -/

/-- RETIRE makes the domain's grants REVOKING, removes them after its drains, walks its granules and frees the
entry (R103, R104, R105, R106, R107, R108, R109, R128, R85). -/
def Obligations.RetireClearsItsGrantsAndFreesTheDomain : Prop :=
  (∀ (c : Fin 4) (b : Line) (s : State) (d f n : Nat), StartsWork .retire c.val b s → wordA b = d →
    wordB b = f → wordC b = n →
    ∃ t, exec (.retire c) s = .next t ∧
      if 511 < d ∨ RangeRefused s f n then
        WorkRefused c.val b .parameter
          { remaining := if d = 0 ∨ 511 < d then 0 else (dom s d).owned, next := f } s t
      else if d = 0 ∨ (dom s d).state = .free then
        WorkRefused c.val b .domainState { remaining := if d = 0 then 0 else (dom s d).owned, next := f } s t
      else if (dom s d).state = .retiring ∧ (dom s d).retireActive = true then
        WorkRefused c.val b .domainBusy { remaining := (dom s d).owned, next := f } s t
      else
        (clearanceDrains c.val d s ≠ [] →
          t.drains = s.drains ++ clearanceDrains c.val d s ∧
          DomainNow d { dom s d with state := .retiring, retireActive := true } s t ∧
          (∀ i, grantAt t i = (grantAt s i).map (fun g =>
            if g.owner = d ∨ g.grantee = d then { g with state := .revoking } else g)) ∧
          ∃ r, Starts c.val b (.retire r) .clearance .drain (chan s c.val).claim s t ∧ r.domain = d ∧
            r.removed = 0 ∧ r.released = 0 ∧ r.slotReleased = none ∧
            r.collected = (s.grants.filter (fun p => p.2.owner == d || p.2.grantee == d)).map
              (fun p => (p.1, p.2.serial))) ∧
        ((∀ p ∈ s.inFlight, p.2.domain ≠ d) → (∀ h, s.stage = some h → h.request.domain.val ≠ d) →
          (∀ p ∈ s.grants, p.2.owner ≠ d ∧ p.2.grantee ≠ d) → (dom s d).owned = 0 → (dom s d).slot = none →
          NoDrain (.clearance c.val) s → (∀ q ∈ s.requests, q.requester ≠ d) →
          DomainNow d Domain.reset s t ∧ resultOf t d = LastResult.reset ∧
            (∀ x, x ≠ d → resultOf t x = resultOf s x) ∧ t.requests = s.requests ∧ t.ways = s.ways ∧
            EndsAtOnce c.val b .done { next := f, w1 := 2 ^ 64 - 1 } s t)) ∧
  (∀ (c : Fin 4) (a : Active) (r : RetireWork) (i : Nat) (g : Grant) (rec : TagRecord) (s : State),
    Runs c.val a s → a.work = .retire r → a.phase = .clearance → a.wait = .drain →
    NoDrain (.clearance c.val) s → r.collected = [(i, g.serial)] → tblGet s.grants i = some g →
    recordAt s g.granule = some rec → r.domain ≠ 0 → g.owner ≠ g.grantee → (dom s r.domain).owned = 0 →
    (dom s r.domain).slot = none → (∀ q ∈ s.requests, q.requester ≠ r.domain) →
    ∃ t, exec (.retireClearanceDrainsDone c) s = .next t ∧ grantAt t i = none ∧
      (∀ j, j ≠ i → grantAt t j = grantAt s j) ∧ RecordNow g.granule { rec with count := rec.count - 1 } s t ∧
      dom t r.domain = Domain.reset ∧
      (g.owner ≠ r.domain → dom t g.owner = { dom s g.owner with given := (dom s g.owner).given - 1 }) ∧
      (g.grantee ≠ r.domain → dom t g.grantee = { dom s g.grantee with held := (dom s g.grantee).held - 1 }) ∧
      Ends c.val a .done
        { finished := r.released, next := r.walk.after, w0 := r.removed + 1
          w1 := r.slotReleased.getD (2 ^ 64 - 1) } s t) ∧
  (∀ (c : Fin 4) (a : Active) (r : RetireWork) (g : Nat) (rec : TagRecord) (s : State),
    Runs c.val a s → a.work = .retire r → a.phase = .visiting → a.wait = .claim g → r.walk.position = g →
    ¬Claimed s g → recordAt s g = some rec →
    ∃ t, exec (.retireClaimReleased c) s = .next t ∧
      (rec.owner = some r.domain → rec.state = .gPrivate → NoTraffic g s → NoDrain (.command c.val) s →
        RecordNow g { rec with state := .gClearingOut, pinned := false } s t ∧
        GoesOn c.val
          { a with
            work := .retire
              { r with walk := { r.walk with found := true, after := g + 1 }, poisonedAtVisit := false }
            phase := .unit, wait := .unit } (some g) s t ∧
        (∀ x, dom t x = dom s x) ∧ t.grants = s.grants) ∧
      (rec.owner ≠ some r.domain → (dom s r.domain).owned = 0 → (∀ q ∈ s.requests, q.requester ≠ r.domain) →
        t.ways = s.ways ∧ DomainNow r.domain Domain.reset s t ∧
        Ends c.val a .done
          { finished := r.released, next := g + 1, w0 := r.removed, w1 := r.slotReleased.getD (2 ^ 64 - 1)
            w2 := r.ownedAtWalk } s t))

/-! ### Revocation (chapter 7) -/

/-- A revocation waits for the grantee's transactions, then removes the entry and lowers the record's and the
domains' counts (R136, R147, R143, R85, R151, R174).  MODEL'S CHOICE, log entry 17: REVOKE_GRANT refused with
PARAMETER reports finished 0, remaining 1 and next granule 0 (no rule gives them). -/
def Obligations.RevocationRemovesItsEntryAtTheLine : Prop :=
  (∀ (c : Fin 4) (b : Line) (s : State), StartsWork .revokeGrant c.val b s →
    ∃ t, exec (.revokeGrant c) s = .next t ∧
      if 1024 ≤ wordA b then WorkRefused c.val b .parameter { remaining := 1 } s t
      else match grantAt s (wordA b) with
        | none => WorkRefused c.val b .noEntry { remaining := 1 } s t
        | some g =>
          NoDrain (.command c.val) s →
          (PairTraffic g.granule g.grantee s →
            t.drains = s.drains ++
              [counting (.command c.val) (fun x d => x == g.granule && d == g.grantee) s] ∧
            grantAt t (wordA b) = some { g with state := .revoking } ∧ t.ways = s.ways ∧
            (∀ i, i ≠ wordA b → grantAt t i = grantAt s i) ∧
            Starts c.val b
              (.revoke { index := wordA b, serial := g.serial, granule := g.granule, owner := g.owner
                         grantee := g.grantee, readWrite := g.readWrite })
              .drain .drain (chan s c.val).claim s t) ∧
          (¬PairTraffic g.granule g.grantee s → ∀ rec, recordAt s g.granule = some rec → g.owner ≠ g.grantee →
            t.drains = s.drains ∧ grantAt t (wordA b) = none ∧ (∀ i, i ≠ wordA b → grantAt t i = grantAt s i) ∧
            RecordNow g.granule { rec with count := rec.count - 1 } s t ∧
            dom t g.owner = { dom s g.owner with given := (dom s g.owner).given - 1 } ∧
            dom t g.grantee = { dom s g.grantee with held := (dom s g.grantee).held - 1 } ∧
            (∀ d, d ≠ g.owner → d ≠ g.grantee → dom t d = dom s d) ∧
            EndsAtOnce c.val b .done
              { finished := 1, next := g.granule + 1, w0 := g.granule
                w1 := grantWord g.owner g.grantee g.readWrite none, w2 := 1 } s t)) ∧
  (∀ (c : Fin 4) (a : Active) (r : RevokeWork) (g : Grant) (rec : TagRecord) (s : State),
    Runs c.val a s → a.work = .revoke r → a.phase = .drain → a.wait = .drain → NoDrain (.command c.val) s →
    tblGet s.grants r.index = some g → g.serial = r.serial → r.granule = g.granule →
    recordAt s g.granule = some rec → g.owner ≠ g.grantee →
    ∃ t, exec (.revocationRemoval (.channel c)) s = .next t ∧ grantAt t r.index = none ∧
      (∀ i, i ≠ r.index → grantAt t i = grantAt s i) ∧
      RecordNow g.granule { rec with count := rec.count - 1 } s t ∧
      dom t g.owner = { dom s g.owner with given := (dom s g.owner).given - 1 } ∧
      dom t g.grantee = { dom s g.grantee with held := (dom s g.grantee).held - 1 } ∧
      Ends c.val a .done
        { finished := 1, next := g.granule + 1, w0 := g.granule
          w1 := grantWord r.owner r.grantee r.readWrite none, w2 := 1 } s t) ∧
  (∀ (x : GuestRequest) (rest : List GuestRequest) (i : Nat) (g : Grant) (rec : TagRecord) (s : State),
    s.requests = x :: rest → s.running = some { wait := .drain, entry := some (i, g.serial) } →
    NoDrain .request s → Quiet s → tblGet s.grants i = some g → recordAt s g.granule = some rec →
    (∀ y, rest.head? = some y → 1 ≤ y.kind ∧ y.kind ≤ 5) →
    ∃ t, exec (.revocationRemoval .request) s = .next t ∧ grantAt t i = none ∧
      (∀ j, j ≠ i → grantAt t j = grantAt s j) ∧ RecordNow g.granule { rec with count := rec.count - 1 } s t ∧
      Finished x rest .done (some i) .absent s t ∧ ∀ c, chan t c = chan s c) ∧
  (∀ (w : WarmReset) (i : Nat) (g : Grant) (drains : Bool) (rec : TagRecord) (s : State),
    s.warm = some w → w.stage = .revocation [(i, g.serial)] drains .drain → NoDrain .warmReset s → Quiet s →
    tblGet s.grants i = some g → recordAt s g.granule = some rec → g.owner ≠ g.grantee →
    (∀ x, x < 4 → (chan s x).undo = none) → s.poisonings = [] → s.requests = [] →
    ∃ t, exec (.revocationRemoval .warmReset) s = .next t ∧ grantAt t i = none ∧
      (∀ j, j ≠ i → grantAt t j = grantAt s j) ∧ RecordNow g.granule { rec with count := rec.count - 1 } s t ∧
      dom t g.owner = { dom s g.owner with given := (dom s g.owner).given - 1 } ∧
      dom t g.grantee = { dom s g.grantee with held := (dom s g.grantee).held - 1 } ∧
      (∀ d, d ≠ g.owner → d ≠ g.grantee → dom t d = dom s d) ∧ t.warm = none ∧
      chan t w.channel = { chan s w.channel with
        reserved := (chan s w.channel).reserved - 1
        ready := (chan s w.channel).ready ++ [mkResponse w.block w.channel .done
          { w0 := w.stopped, w1 := w.discarded, w2 := w.lost, w3 := w.removed + 1, w4 := w.left }] } ∧
      OtherChannels w.channel s t ∧ (sourceOf t (7 + w.channel)).pending = true)

/-! ### Write tracking (chapter 8) -/

/-- TRACK_START arms a slot and clears DIRTY over its range, up to the first granule whose line it has to wait for;
TRACK_COLLECT clears and writes a first group of one granule (R153, R154, R158, R159, R160). -/
def Obligations.TrackStartArmsAndTrackCollectClears : Prop :=
  (∀ (c : Fin 4) (b : Line) (s : State) (k d f n : Nat), StartsWork .trackStart c.val b s → wordA b = k →
    wordB b = d → wordC b = f → wordD b = n →
    ∃ t, exec (.trackStart c) s = .next t ∧
      if 3 < k ∨ d = 0 ∨ 511 < d ∨ wordE b = 0 ∨ 512 < wordE b ∨ RangeRefused s f n then
        WorkRefused c.val b .parameter { remaining := n, next := f } s t
      else if ¬((slotOf s k).state = .idle ∨
            ((slotOf s k).state = .overflowed ∧ (slotOf s k).domain = some d)) ∨
          (slotOf s k).collecting ≠ none then
        WorkRefused c.val b .slotState { remaining := n, next := f } s t
      else if (dom s d).state ≠ .preparing ∧ (dom s d).state ≠ .running ∧ (dom s d).state ≠ .paused then
        WorkRefused c.val b .domainState { remaining := n, next := f } s t
      else if (dom s d).slot ≠ none ∧ (dom s d).slot ≠ some k then
        WorkRefused c.val b .domainBusy { remaining := n, next := f } s t
      else
        DomainNow d { dom s d with slot := some k } s t ∧ (∀ j, j ≠ k → slotOf t j = slotOf s j) ∧
        ∀ m cleared, m ≤ n → (∀ j, j < m → recordAt s (f + j) ≠ none) → (m < n → recordAt s (f + m) = none) →
          cleared = ((List.range m).filter (fun j =>
            (recordAt s (f + j)).any (fun r => decide (r.owner = some d) && r.dirty))).length →
          (∀ g, recordAt t g = (recordAt s g).map (fun r =>
            if f ≤ g ∧ g < f + m ∧ r.owner = some d then { r with dirty := false } else r)) ∧
          (cleared = 0 → t.ways = s.ways) ∧
          if m = n then
            slotOf t k = { slotOf s k with
              state := .active, domain := some d, fillMark := wordE b, queue := [], armedBy := none } ∧
            EndsAtOnce c.val b .done { finished := n, next := f + n, w0 := cleared, w1 := k } s t
          else
            slotOf t k = { slotOf s k with
              state := .arming, domain := some d, fillMark := wordE b, queue := [], armedBy := some c.val } ∧
            Starts c.val b (.trackStart k d f n m cleared) .clearing (.fill ((f + m) / 4)) (chan s c.val).claim s t ∧
            ((∃ x ∈ t.fills, x.line = (f + m) / 4) ∨ (f + m) / 4 ∈ t.fillWaits)) ∧
  (∀ (c : Fin 4) (b : Line) (s : State) (k p n : Nat), StartsWork .trackCollect c.val b s → wordA b = k →
    wordB b = p → wordC b = n →
    ∃ t, exec (.trackCollect c) s = .next t ∧
      if 3 < k ∨ n = 0 ∨ 512 < n ∨ granuleCount s ≤ p then
        WorkRefused c.val b .parameter { remaining := n, next := granuleCount s } s t
      else if ((slotOf s k).state ≠ .active ∧ (slotOf s k).state ≠ .overflowed) ∨
          (slotOf s k).collecting ≠ none then
        WorkRefused c.val b .slotState { remaining := n, next := granuleCount s } s t
      else match recordAt s p with
        | none =>
          StartsWithFill c.val b
            (.trackCollect { slot := k, buffer := p, capacity := n, count := 0, delivered := 0, lines := 0
                             group := [], visited := 0 }) .buffer p s t
        | some rec =>
          if rec.state ≠ .gOpen ∨ rec.owner ≠ some 0 ∨ InSomeRegion s p then
            StopsAtOnce c.val b .parameter { remaining := n, next := granuleCount s } s t
          else if Claimed s p then
            StopsAtOnce c.val b .granuleBusy { remaining := n, next := granuleCount s } s t
          else
            ((slotOf s k).queue = [] →
              EndsAtOnce c.val b .done
                { next := granuleCount s, w2 := boolBit (decide ((slotOf s k).state = .overflowed)) } s t ∧
              t.ways = s.ways ∧ ∀ j, slotOf t j = slotOf s j) ∧
            ∀ e d rec' x, (slotOf s k).queue = [e] → (slotOf s k).domain = some d →
              recordAt s e.granule = some rec' → rec'.owner = some d → rec'.dirty = true →
              NoTraffic e.granule s → NoDrain (.group c.val) s →
              (∀ j ∈ s.tagWaits, jobClass j ≠ .harvestWrite) → freeTag .harvestWrite s = some x →
              RecordNow e.granule { rec' with dirty := false } s t ∧
              slotOf t k = { slotOf s k with
                queue := [{ granule := e.granule, group := true, keep := false }], collecting := some c.val } ∧
              (∃ w, Starts c.val b (.trackCollect w) .harvest .writes (some p) s t ∧ w.count = 1 ∧
                w.delivered = 0 ∧ w.group = [e.granule] ∧ w.buffer = p) ∧
              ∃ o ∈ t.outstanding, o.tag = x ∧ o.job = .harvest c.val)

/-- A drained group is written to the buffer; its write delivers it, keeping the granules written meanwhile, or
fails (R160, R161, R183). -/
def Obligations.HarvestWritesAGroupAndDeliversIt : Prop :=
  (∀ (c : Fin 4) (a : Active) (k : CollectWork) (x : Nat) (s : State), (chan s c.val).active = some a →
    a.work = .trackCollect k → a.phase = .draining → a.wait = .drain → NoDrain (.group c.val) s →
    (∀ j ∈ s.tagWaits, jobClass j ≠ .harvestWrite) → freeTag .harvestWrite s = some x →
    ∃ t, exec (.harvestGroupDrained c) s = .next t ∧
      GoesOn c.val { a with phase := .harvest, wait := .writes } (chan s c.val).claim s t ∧
      t.outstanding = s.outstanding ++ [{ tag := x, job := .harvest c.val, changed := false, timer := 0 }] ∧
      t.offers = s.offers ++
        [{ tag := x, kind := .write, domain := 0, address := s.base + 4096 * k.buffer + 64 * k.lines, mask := 0
           data := .line (encodeHarvest k.group) }] ∧
      t.ways = s.ways ∧ t.slots = s.slots) ∧
  (∀ (tag : Fin 1024) (o : Outstanding) (c : Fin 4) (a : Active) (k : CollectWork) (s : State),
    outstandingAt s tag.val = some o → o.job = .harvest c.val → Runs c.val a s → a.work = .trackCollect k →
    a.phase = .harvest → a.wait = .writes → (slotOf s k.slot).collecting = some c.val →
    (k.delivered + k.group.length = k.count →
      ∃ t, exec (.harvestWriteCompletion tag .ok) s = .next t ∧
        (slotOf t k.slot).queue.map (·.granule) =
          ((slotOf s k.slot).queue.filter (fun e => !e.group)).map (·.granule) ++
            ((slotOf s k.slot).queue.filter (fun e => e.group && e.keep)).map (·.granule) ∧
        (∀ e ∈ (slotOf t k.slot).queue, e.group = false ∧ e.keep = false) ∧
        (slotOf t k.slot).collecting = none ∧ (slotOf t k.slot).state = (slotOf s k.slot).state ∧
        Ends c.val a .done
          { finished := k.count, next := granuleCount s, w0 := k.count, w1 := (slotOf t k.slot).queue.length
            w2 := boolBit (decide ((slotOf s k.slot).state = .overflowed)), w3 := k.lines + 1, w4 := k.count }
          s t ∧ t.ways = s.ways) ∧
    (∀ g rest, k.group = g :: rest → k.delivered < k.count →
      ∃ t, exec (.harvestWriteCompletion tag .error) s = .next t ∧
        (slotOf t k.slot).queue.map (·.granule) = (slotOf s k.slot).queue.map (·.granule) ∧
        (∀ e ∈ (slotOf t k.slot).queue, e.group = false ∧ e.keep = false) ∧
        (slotOf t k.slot).collecting = none ∧
        Ends c.val a .downstreamError
          { finished := k.delivered, remaining := k.count - k.delivered, next := g, w0 := k.delivered
            w1 := (slotOf s k.slot).queue.length
            w2 := boolBit (decide ((slotOf s k.slot).state = .overflowed)), w3 := k.lines, w4 := k.count } s t))
end

