-- ==== Sys2Proof/Laws/Flush.lean ====
section
/-!
SUPPORT. What a drain that begins counts (R85), what a write-back of the whole cache notes and when it has ended (R61,
R62, R202), and what a stop request does to its channel (R172): one lemma each.
-/

set_option Elab.async false

namespace Sys2Proof.Machine

/-! ### Drains that begin (R85) -/

/-- A drain that begins counts what its key picks; it joins the drains in progress if it counts anything, and nothing
else changes. -/
theorem beginDrain_eq (u : DrainUser) (k : DrainKey) (s : State) :
    beginDrain u k s =
      if (counting u (keyMatches k) s).members.isEmpty && !(counting u (keyMatches k) s).held then s
      else { s with drains := s.drains ++ [counting u (keyMatches k) s] } := by
  unfold beginDrain counting
  cases s.stage <;> rfl

theorem beginDrain_drains (u : DrainUser) (k : DrainKey) (s : State) :
    (beginDrain u k s).drains =
      s.drains ++ [counting u (keyMatches k) s].filter (fun x => !x.members.isEmpty || x.held) := by
  rw [beginDrain_eq]
  generalize counting u (keyMatches k) s = d
  cases h : d.members.isEmpty <;> cases h' : d.held <;> simp [h, h']

/-! ### A write-back of the whole cache (R61, R62, R202) -/

/-- The end of a line's write-back is noted as `afterEnd` says. -/
theorem noteEnd_eq_afterEnd (line : Nat) (ok : Bool) (x : CacheWrites) : noteEnd line ok x = afterEnd line ok x := by
  unfold noteEnd afterEnd
  by_cases h : line ∈ x.earlier
  · simp [h]
  · cases ok <;> simp [h, List.erase_of_not_mem h]

/-- No way has a write-back pending where none is outstanding and none waits for a tag. -/
theorem writeBackPending_of_count (s : State) (h : writeBackCount s = 0) (k : Nat) : writeBackPending s k = false := by
  simp only [writeBackCount, Nat.add_eq_zero_iff, List.length_eq_zero_iff, List.filter_eq_nil_iff] at h
  simp only [writeBackPending, Bool.or_eq_false_iff, List.any_eq_false]
  refine ⟨fun o ho => ?_, fun j hj => ?_⟩
  · have := h.1 o ho
    cases hj : o.job <;> simp_all [jobClass]
  · have := h.2 j hj
    cases j <;> simp_all [jobClass]

/-- The write-back of the whole cache has ended exactly where nothing is left to write back. -/
theorem writeBackEnded_iff (failed : List Nat) (s : State) : writeBackEnded failed s = true ↔ AllWritten failed s := by
  simp only [writeBackEnded, AllWritten, Bool.and_eq_true, beq_iff_eq]
  refine and_congr_right fun h => ?_
  simp [dirtyWays, writeBackPending_of_count s h, List.isEmpty_iff, List.filter_eq_nil_iff]

/-! ### Stop requests (R172) -/

/-- A channel without an active command, or whose stop has been requested already, is left as it is. -/
theorem requestStop_idle (c : Nat) (s : State) (h : (chan s c).active = none ∨ (chan s c).stop = true) :
    requestStop c s = s := by
  rcases h with h | h <;> simp [requestStop, h]

/-- Otherwise the command stops where it stands, with ABORTED for its result, whatever it had begun to stop with. -/
theorem requestStop_active (c : Nat) (s : State) (a : Active) (h : (chan s c).active = some a)
    (hs : (chan s c).stop = false) :
    requestStop c s = stopCommand c
      (setChan c { chan s c with stop := true, active := some { a with ending := some .aborted } } s) := by
  simp [requestStop, h, hs]

end Sys2Proof.Machine
end

