-- ==== Sys2Proof/Laws/Tables.lean ====
section
/-!
SUPPORT. The laws of an indexed table: what is read after a write, and that every operation keeps the indices
rising, the bound on the indices and the one form of a table with a reset value.
-/

namespace Sys2Proof.Machine

variable {α : Type}

/-! ### Reading after writing -/

@[simp] theorem tblGet_tblPut_same (t : Table α) (x : Nat) (v : α) : tblGet (tblPut t x v) x = some v := by
  induction t with
  | nil => simp [tblPut, tblGet]
  | cons p t ih =>
    obtain ⟨k, w⟩ := p
    unfold tblPut
    split
    · simp [tblGet]
    · split
      · simp [tblGet]
      · simp_all [tblGet]

theorem tblGet_tblPut_ne (t : Table α) {x y : Nat} (v : α) (h : y ≠ x) :
    tblGet (tblPut t x v) y = tblGet t y := by
  induction t with
  | nil => simp [tblPut, tblGet, Ne.symm h]
  | cons p t ih =>
    obtain ⟨k, w⟩ := p
    unfold tblPut
    split
    · subst_vars; simp [tblGet, Ne.symm h]
    · split
      · simp [tblGet, Ne.symm h]
      · simp [tblGet, ih]

@[simp] theorem tblGet_tblDel_same (t : Table α) (x : Nat) : tblGet (tblDel t x) x = none := by
  induction t with
  | nil => rfl
  | cons p t ih =>
    obtain ⟨k, w⟩ := p
    by_cases hk : k = x
    · subst hk; simpa [tblDel] using ih
    · simpa [tblDel, List.filter_cons, hk, tblGet] using ih

theorem tblGet_tblDel_ne (t : Table α) {x y : Nat} (h : y ≠ x) : tblGet (tblDel t x) y = tblGet t y := by
  induction t with
  | nil => rfl
  | cons p t ih =>
    obtain ⟨k, w⟩ := p
    by_cases hk : k = x
    · subst hk; simpa [tblDel, tblGet, Ne.symm h] using ih
    · simp only [tblDel, List.filter_cons, bne_iff_ne, ne_eq, hk, not_false_eq_true, ↓reduceIte, tblGet]
      split
      · rfl
      · simpa [tblDel] using ih

theorem tblGet_tblPut (t : Table α) (x y : Nat) (v : α) :
    tblGet (tblPut t x v) y = if y = x then some v else tblGet t y := by
  split
  · subst_vars; simp
  · exact tblGet_tblPut_ne t v ‹_›

theorem tblGet_tblDel (t : Table α) (x y : Nat) :
    tblGet (tblDel t x) y = if y = x then none else tblGet t y := by
  split
  · subst_vars; simp
  · exact tblGet_tblDel_ne t ‹_›

/-- A table with a reset value read after a write: the value written, at every index it was written to. -/
theorem tblGet_tblSet_getD [DecidableEq α] (d : Nat → α) (t : Table α) (x y : Nat) (v : α) :
    (tblGet (tblSet (d x) t x v) y).getD (d y) = if y = x then v else (tblGet t y).getD (d y) := by
  unfold tblSet
  split
  · rw [tblGet_tblDel]; split
    · subst_vars; simp
    · rfl
  · rw [tblGet_tblPut]; split
    · simp
    · rfl

theorem mem_of_tblGet {t : Table α} {x : Nat} {v : α} (h : tblGet t x = some v) : (x, v) ∈ t := by
  induction t with
  | nil => simp [tblGet] at h
  | cons p t ih =>
    obtain ⟨k, w⟩ := p
    simp only [tblGet] at h
    split at h
    · simp_all
    · exact List.mem_cons_of_mem _ (ih h)

theorem mem_tblPut {t : Table α} {x : Nat} {v : α} {p : Nat × α} (h : p ∈ tblPut t x v) :
    p = (x, v) ∨ p ∈ t := by
  induction t with
  | nil => simp_all [tblPut]
  | cons q t ih =>
    obtain ⟨k, w⟩ := q
    simp only [tblPut] at h
    split at h
    · simp_all; tauto
    · split at h
      · simp_all
      · simp only [List.mem_cons] at h ⊢
        rcases h with h | h
        · tauto
        · rcases ih h with h | h <;> tauto

theorem mem_tblDel {t : Table α} {x : Nat} {p : Nat × α} (h : p ∈ tblDel t x) : p ∈ t :=
  List.mem_of_mem_filter h

theorem mem_tblSet [DecidableEq α] {d : α} {t : Table α} {x : Nat} {v : α} {p : Nat × α}
    (h : p ∈ tblSet d t x v) : (p = (x, v) ∧ v ≠ d) ∨ p ∈ t := by
  unfold tblSet at h
  split at h
  · exact .inr (mem_tblDel h)
  · rcases mem_tblPut h with h | h
    · exact .inl ⟨h, ‹_›⟩
    · exact .inr h

theorem tblFree_lt {n : Nat} {t : Table α} {i : Nat} (h : tblFree n t = some i) : i < n := by
  have := List.mem_of_find?_eq_some h
  simpa using this

theorem tblFree_isNone {n : Nat} {t : Table α} {i : Nat} (h : tblFree n t = some i) : tblGet t i = none := by
  have := List.find?_some h
  simpa using this

/-! ### Rising indices -/

/-- The form of a table, as an order on the list of its pairs. -/
theorem tblWf_iff (t : Table α) : tblWf t = true ↔ t.Pairwise (fun p q => p.1 < q.1) := by
  induction t with
  | nil => simp [tblWf]
  | cons p t ih =>
    cases t with
    | nil => simp [tblWf]
    | cons q t =>
      obtain ⟨k, v⟩ := p; obtain ⟨k', w⟩ := q
      simp only [tblWf, Bool.and_eq_true, decide_eq_true_eq, ih]
      constructor
      · rintro ⟨h, hp⟩
        refine List.Pairwise.cons ?_ hp
        intro r hr
        rcases List.mem_cons.1 hr with rfl | hr
        · exact h
        · exact Nat.lt_trans h ((List.pairwise_cons.1 hp).1 r hr)
      · intro hp
        have := List.pairwise_cons.1 hp
        exact ⟨this.1 (k', w) (by simp), this.2⟩

theorem tblWf_filter {t : Table α} (h : tblWf t = true) (f : Nat × α → Bool) : tblWf (t.filter f) = true := by
  rw [tblWf_iff] at h ⊢; exact h.sublist List.filter_sublist

theorem tblWf_tblDel {t : Table α} (h : tblWf t = true) (x : Nat) : tblWf (tblDel t x) = true :=
  tblWf_filter h _

theorem tblWf_tblPut {t : Table α} (h : tblWf t = true) (x : Nat) (v : α) : tblWf (tblPut t x v) = true := by
  rw [tblWf_iff] at h ⊢
  induction t with
  | nil => simp [tblPut]
  | cons p t ih =>
    obtain ⟨k, w⟩ := p
    have ⟨h1, h2⟩ := List.pairwise_cons.1 h
    unfold tblPut
    split
    · subst_vars; exact List.Pairwise.cons h1 h2
    · split
      · refine List.Pairwise.cons ?_ h
        intro q hq
        rcases List.mem_cons.1 hq with rfl | hq
        · assumption
        · exact Nat.lt_trans ‹x < k› (h1 q hq)
      · refine List.Pairwise.cons ?_ (ih h2)
        intro q hq
        rcases mem_tblPut hq with rfl | hq
        · simp; omega
        · exact h1 q hq

theorem tblWf_tblSet [DecidableEq α] {t : Table α} (h : tblWf t = true) (d : α) (x : Nat) (v : α) :
    tblWf (tblSet d t x v) = true := by
  unfold tblSet; split
  · exact tblWf_tblDel h x
  · exact tblWf_tblPut h x v

/-- A change of entries that keeps the indices keeps them rising. -/
theorem tblWf_map {t : Table α} (h : tblWf t = true) (f : Nat × α → Nat × α) (hf : ∀ p, (f p).1 = p.1) :
    tblWf (t.map f) = true := by
  rw [tblWf_iff] at h ⊢
  rw [List.pairwise_map]
  exact h.imp (by intro a b; simp [hf])

/-! ### Bounds and the one form -/

theorem TableBelow.put {n : Nat} {t : Table α} (h : TableBelow n t) {x : Nat} (hx : x < n) (v : α) :
    TableBelow n (tblPut t x v) :=
  ⟨tblWf_tblPut h.1 x v, fun p hp => by
    rcases mem_tblPut hp with rfl | hp
    · exact hx
    · exact h.2 p hp⟩

theorem TableBelow.filter {n : Nat} {t : Table α} (h : TableBelow n t) (f : Nat × α → Bool) :
    TableBelow n (t.filter f) :=
  ⟨tblWf_filter h.1 f, fun p hp => h.2 p (List.mem_of_mem_filter hp)⟩

theorem TableBelow.del {n : Nat} {t : Table α} (h : TableBelow n t) (x : Nat) : TableBelow n (tblDel t x) :=
  h.filter _

theorem TableBelow.map {n : Nat} {t : Table α} (h : TableBelow n t) (f : Nat × α → Nat × α)
    (hf : ∀ p, (f p).1 = p.1) : TableBelow n (t.map f) :=
  ⟨tblWf_map h.1 f hf, fun p hp => by
    obtain ⟨q, hq, rfl⟩ := List.mem_map.1 hp
    rw [hf]; exact h.2 q hq⟩

theorem TableBelow.lt {n : Nat} {t : Table α} (h : TableBelow n t) {x : Nat} {v : α} (hx : tblGet t x = some v) :
    x < n := h.2 _ (mem_of_tblGet hx)

theorem TableForm.set [DecidableEq α] {d : Nat → α} {t : Table α} (h : TableForm d t) (x : Nat) (v : α) :
    TableForm d (tblSet (d x) t x v) :=
  ⟨tblWf_tblSet h.1 _ x v, fun p hp => by
    rcases mem_tblSet hp with ⟨rfl, hv⟩ | hp
    · exact hv
    · exact h.2 p hp⟩

/-- In a table of the one form, two tables that read alike at every index are equal. -/
theorem TableForm.ext [DecidableEq α] {d : Nat → α} {t u : Table α} (ht : TableForm d t) (hu : TableForm d u)
    (h : ∀ x, (tblGet t x).getD (d x) = (tblGet u x).getD (d x)) : t = u := by
  have key : ∀ {t : Table α}, tblWf t = true → ∀ p ∈ t, tblGet t p.1 = some p.2 := by
    intro t ht
    rw [tblWf_iff] at ht
    induction t with
    | nil => simp
    | cons q t ih =>
      obtain ⟨k, w⟩ := q
      intro p hp
      have ⟨h1, h2⟩ := List.pairwise_cons.1 ht
      rcases List.mem_cons.1 hp with rfl | hp
      · simp [tblGet]
      · have := h1 p hp
        simp only [tblGet]
        rw [if_neg (by simp at this; omega)]
        exact ih h2 p hp
  have sub : ∀ {t u : Table α}, TableForm d t → TableForm d u →
      (∀ x, (tblGet t x).getD (d x) = (tblGet u x).getD (d x)) → ∀ p ∈ t, p ∈ u := by
    intro t u ht hu h p hp
    have h1 := key ht.1 p hp
    have h2 := h p.1
    rw [h1] at h2
    simp only [Option.getD_some] at h2
    cases hc : tblGet u p.1 with
    | none => rw [hc] at h2; exact absurd h2 (ht.2 p hp)
    | some w =>
      rw [hc] at h2
      simp only [Option.getD_some] at h2
      have := mem_of_tblGet hc
      rw [← h2] at this
      exact this
  have nd : ∀ {t : Table α}, tblWf t = true → t.Nodup := by
    intro t ht
    rw [tblWf_iff] at ht
    exact ht.imp (by intro a b hab e; subst e; omega)
  have perm : t.Perm u := (List.perm_ext_iff_of_nodup (nd ht.1) (nd hu.1)).2
    (fun p => ⟨sub ht hu h p, sub hu ht (fun x => (h x).symm) p⟩)
  refine perm.eq_of_pairwise ?_ ((tblWf_iff t).1 ht.1) ((tblWf_iff u).1 hu.1)
  intro a b _ _ h1 h2
  omega

end Sys2Proof.Machine
end

