-- ==== Sys2Proof/Laws/State.lean ====
section
/-!
SUPPORT. The small laws of the state: one lemma per field per update of a table, and what each reader reads after
each writer.
-/

namespace Sys2Proof.Machine

variable (s : State)

/-! ### `setDom` -/

@[simp] theorem setDom_base (d : Nat) (e : Domain) : (setDom d e s).base = s.base := rfl
@[simp] theorem setDom_requested (d : Nat) (e : Domain) : (setDom d e s).requested = s.requested := rfl
@[simp] theorem setDom_size (d : Nat) (e : Domain) : (setDom d e s).size = s.size := rfl
@[simp] theorem setDom_mode (d : Nat) (e : Domain) : (setDom d e s).mode = s.mode := rfl
@[simp] theorem setDom_cause (d : Nat) (e : Domain) : (setDom d e s).cause = s.cause := rfl
@[simp] theorem setDom_integrityMark (d : Nat) (e : Domain) : (setDom d e s).integrityMark = s.integrityMark := rfl
@[simp] theorem setDom_policy (d : Nat) (e : Domain) : (setDom d e s).policy = s.policy := rfl
@[simp] theorem setDom_faultLine (d : Nat) (e : Domain) : (setDom d e s).faultLine = s.faultLine := rfl
@[simp] theorem setDom_warnLine (d : Nat) (e : Domain) : (setDom d e s).warnLine = s.warnLine := rfl
@[simp] theorem setDom_flush (d : Nat) (e : Domain) : (setDom d e s).flush = s.flush := rfl
@[simp] theorem setDom_tagBase (d : Nat) (e : Domain) : (setDom d e s).tagBase = s.tagBase := rfl
@[simp] theorem setDom_progress (d : Nat) (e : Domain) : (setDom d e s).progress = s.progress := rfl
@[simp] theorem setDom_upLink (d : Nat) (e : Domain) : (setDom d e s).upLink = s.upLink := rfl
@[simp] theorem setDom_tagsInUse (d : Nat) (e : Domain) : (setDom d e s).tagsInUse = s.tagsInUse := rfl
@[simp] theorem setDom_completions (d : Nat) (e : Domain) : (setDom d e s).completions = s.completions := rfl
@[simp] theorem setDom_noticeSlot (d : Nat) (e : Domain) : (setDom d e s).noticeSlot = s.noticeSlot := rfl
@[simp] theorem setDom_txOffered (d : Nat) (e : Domain) : (setDom d e s).txOffered = s.txOffered := rfl
@[simp] theorem setDom_txLast (d : Nat) (e : Domain) : (setDom d e s).txLast = s.txLast := rfl
@[simp] theorem setDom_downLink (d : Nat) (e : Domain) : (setDom d e s).downLink = s.downLink := rfl
@[simp] theorem setDom_outstanding (d : Nat) (e : Domain) : (setDom d e s).outstanding = s.outstanding := rfl
@[simp] theorem setDom_heldTags (d : Nat) (e : Domain) : (setDom d e s).heldTags = s.heldTags := rfl
@[simp] theorem setDom_tagWaits (d : Nat) (e : Domain) : (setDom d e s).tagWaits = s.tagWaits := rfl
@[simp] theorem setDom_produced (d : Nat) (e : Domain) : (setDom d e s).produced = s.produced := rfl
@[simp] theorem setDom_offers (d : Nat) (e : Domain) : (setDom d e s).offers = s.offers := rfl
@[simp] theorem setDom_downOffered (d : Nat) (e : Domain) : (setDom d e s).downOffered = s.downOffered := rfl
@[simp] theorem setDom_lastClass (d : Nat) (e : Domain) : (setDom d e s).lastClass = s.lastClass := rfl
@[simp] theorem setDom_stage (d : Nat) (e : Domain) : (setDom d e s).stage = s.stage := rfl
@[simp] theorem setDom_inFlight (d : Nat) (e : Domain) : (setDom d e s).inFlight = s.inFlight := rfl
@[simp] theorem setDom_drains (d : Nat) (e : Domain) : (setDom d e s).drains = s.drains := rfl
@[simp] theorem setDom_ways (d : Nat) (e : Domain) : (setDom d e s).ways = s.ways := rfl
@[simp] theorem setDom_lru (d : Nat) (e : Domain) : (setDom d e s).lru = s.lru := rfl
@[simp] theorem setDom_fills (d : Nat) (e : Domain) : (setDom d e s).fills = s.fills := rfl
@[simp] theorem setDom_fillWaits (d : Nat) (e : Domain) : (setDom d e s).fillWaits = s.fillWaits := rfl
@[simp] theorem setDom_fillSerial (d : Nat) (e : Domain) : (setDom d e s).fillSerial = s.fillSerial := rfl
@[simp] theorem setDom_missQueue (d : Nat) (e : Domain) : (setDom d e s).missQueue = s.missQueue := rfl
@[simp] theorem setDom_poisonings (d : Nat) (e : Domain) : (setDom d e s).poisonings = s.poisonings := rfl
@[simp] theorem setDom_corrected (d : Nat) (e : Domain) : (setDom d e s).corrected = s.corrected := rfl
@[simp] theorem setDom_correctedLimit (d : Nat) (e : Domain) : (setDom d e s).correctedLimit = s.correctedLimit := rfl
@[simp] theorem setDom_firstCorrected (d : Nat) (e : Domain) : (setDom d e s).firstCorrected = s.firstCorrected := rfl
@[simp] theorem setDom_hold (d : Nat) (e : Domain) : (setDom d e s).hold = s.hold := rfl
@[simp] theorem setDom_poisonList (d : Nat) (e : Domain) : (setDom d e s).poisonList = s.poisonList := rfl
@[simp] theorem setDom_grants (d : Nat) (e : Domain) : (setDom d e s).grants = s.grants := rfl
@[simp] theorem setDom_grantSerial (d : Nat) (e : Domain) : (setDom d e s).grantSerial = s.grantSerial := rfl
@[simp] theorem setDom_requests (d : Nat) (e : Domain) : (setDom d e s).requests = s.requests := rfl
@[simp] theorem setDom_running (d : Nat) (e : Domain) : (setDom d e s).running = s.running := rfl
@[simp] theorem setDom_results (d : Nat) (e : Domain) : (setDom d e s).results = s.results := rfl
@[simp] theorem setDom_channels (d : Nat) (e : Domain) : (setDom d e s).channels = s.channels := rfl
@[simp] theorem setDom_warm (d : Nat) (e : Domain) : (setDom d e s).warm = s.warm := rfl
@[simp] theorem setDom_units (d : Nat) (e : Domain) : (setDom d e s).units = s.units := rfl
@[simp] theorem setDom_lastServed (d : Nat) (e : Domain) : (setDom d e s).lastServed = s.lastServed := rfl
@[simp] theorem setDom_slots (d : Nat) (e : Domain) : (setDom d e s).slots = s.slots := rfl
@[simp] theorem setDom_regions (d : Nat) (e : Domain) : (setDom d e s).regions = s.regions := rfl
@[simp] theorem setDom_freeze (d : Nat) (e : Domain) : (setDom d e s).freeze = s.freeze := rfl
@[simp] theorem setDom_log (d : Nat) (e : Domain) : (setDom d e s).log = s.log := rfl
@[simp] theorem setDom_notices (d : Nat) (e : Domain) : (setDom d e s).notices = s.notices := rfl
@[simp] theorem setDom_pending (d : Nat) (e : Domain) : (setDom d e s).pending = s.pending := rfl

/-! ### `setChan` -/

@[simp] theorem setChan_base (c : Nat) (e : Channel) : (setChan c e s).base = s.base := rfl
@[simp] theorem setChan_requested (c : Nat) (e : Channel) : (setChan c e s).requested = s.requested := rfl
@[simp] theorem setChan_size (c : Nat) (e : Channel) : (setChan c e s).size = s.size := rfl
@[simp] theorem setChan_mode (c : Nat) (e : Channel) : (setChan c e s).mode = s.mode := rfl
@[simp] theorem setChan_cause (c : Nat) (e : Channel) : (setChan c e s).cause = s.cause := rfl
@[simp] theorem setChan_integrityMark (c : Nat) (e : Channel) : (setChan c e s).integrityMark = s.integrityMark := rfl
@[simp] theorem setChan_policy (c : Nat) (e : Channel) : (setChan c e s).policy = s.policy := rfl
@[simp] theorem setChan_faultLine (c : Nat) (e : Channel) : (setChan c e s).faultLine = s.faultLine := rfl
@[simp] theorem setChan_warnLine (c : Nat) (e : Channel) : (setChan c e s).warnLine = s.warnLine := rfl
@[simp] theorem setChan_flush (c : Nat) (e : Channel) : (setChan c e s).flush = s.flush := rfl
@[simp] theorem setChan_tagBase (c : Nat) (e : Channel) : (setChan c e s).tagBase = s.tagBase := rfl
@[simp] theorem setChan_progress (c : Nat) (e : Channel) : (setChan c e s).progress = s.progress := rfl
@[simp] theorem setChan_upLink (c : Nat) (e : Channel) : (setChan c e s).upLink = s.upLink := rfl
@[simp] theorem setChan_tagsInUse (c : Nat) (e : Channel) : (setChan c e s).tagsInUse = s.tagsInUse := rfl
@[simp] theorem setChan_completions (c : Nat) (e : Channel) : (setChan c e s).completions = s.completions := rfl
@[simp] theorem setChan_noticeSlot (c : Nat) (e : Channel) : (setChan c e s).noticeSlot = s.noticeSlot := rfl
@[simp] theorem setChan_txOffered (c : Nat) (e : Channel) : (setChan c e s).txOffered = s.txOffered := rfl
@[simp] theorem setChan_txLast (c : Nat) (e : Channel) : (setChan c e s).txLast = s.txLast := rfl
@[simp] theorem setChan_downLink (c : Nat) (e : Channel) : (setChan c e s).downLink = s.downLink := rfl
@[simp] theorem setChan_outstanding (c : Nat) (e : Channel) : (setChan c e s).outstanding = s.outstanding := rfl
@[simp] theorem setChan_heldTags (c : Nat) (e : Channel) : (setChan c e s).heldTags = s.heldTags := rfl
@[simp] theorem setChan_tagWaits (c : Nat) (e : Channel) : (setChan c e s).tagWaits = s.tagWaits := rfl
@[simp] theorem setChan_produced (c : Nat) (e : Channel) : (setChan c e s).produced = s.produced := rfl
@[simp] theorem setChan_offers (c : Nat) (e : Channel) : (setChan c e s).offers = s.offers := rfl
@[simp] theorem setChan_downOffered (c : Nat) (e : Channel) : (setChan c e s).downOffered = s.downOffered := rfl
@[simp] theorem setChan_lastClass (c : Nat) (e : Channel) : (setChan c e s).lastClass = s.lastClass := rfl
@[simp] theorem setChan_stage (c : Nat) (e : Channel) : (setChan c e s).stage = s.stage := rfl
@[simp] theorem setChan_inFlight (c : Nat) (e : Channel) : (setChan c e s).inFlight = s.inFlight := rfl
@[simp] theorem setChan_drains (c : Nat) (e : Channel) : (setChan c e s).drains = s.drains := rfl
@[simp] theorem setChan_ways (c : Nat) (e : Channel) : (setChan c e s).ways = s.ways := rfl
@[simp] theorem setChan_lru (c : Nat) (e : Channel) : (setChan c e s).lru = s.lru := rfl
@[simp] theorem setChan_fills (c : Nat) (e : Channel) : (setChan c e s).fills = s.fills := rfl
@[simp] theorem setChan_fillWaits (c : Nat) (e : Channel) : (setChan c e s).fillWaits = s.fillWaits := rfl
@[simp] theorem setChan_fillSerial (c : Nat) (e : Channel) : (setChan c e s).fillSerial = s.fillSerial := rfl
@[simp] theorem setChan_missQueue (c : Nat) (e : Channel) : (setChan c e s).missQueue = s.missQueue := rfl
@[simp] theorem setChan_poisonings (c : Nat) (e : Channel) : (setChan c e s).poisonings = s.poisonings := rfl
@[simp] theorem setChan_corrected (c : Nat) (e : Channel) : (setChan c e s).corrected = s.corrected := rfl
@[simp] theorem setChan_correctedLimit (c : Nat) (e : Channel) : (setChan c e s).correctedLimit = s.correctedLimit := rfl
@[simp] theorem setChan_firstCorrected (c : Nat) (e : Channel) : (setChan c e s).firstCorrected = s.firstCorrected := rfl
@[simp] theorem setChan_hold (c : Nat) (e : Channel) : (setChan c e s).hold = s.hold := rfl
@[simp] theorem setChan_poisonList (c : Nat) (e : Channel) : (setChan c e s).poisonList = s.poisonList := rfl
@[simp] theorem setChan_domains (c : Nat) (e : Channel) : (setChan c e s).domains = s.domains := rfl
@[simp] theorem setChan_grants (c : Nat) (e : Channel) : (setChan c e s).grants = s.grants := rfl
@[simp] theorem setChan_grantSerial (c : Nat) (e : Channel) : (setChan c e s).grantSerial = s.grantSerial := rfl
@[simp] theorem setChan_requests (c : Nat) (e : Channel) : (setChan c e s).requests = s.requests := rfl
@[simp] theorem setChan_running (c : Nat) (e : Channel) : (setChan c e s).running = s.running := rfl
@[simp] theorem setChan_results (c : Nat) (e : Channel) : (setChan c e s).results = s.results := rfl
@[simp] theorem setChan_warm (c : Nat) (e : Channel) : (setChan c e s).warm = s.warm := rfl
@[simp] theorem setChan_units (c : Nat) (e : Channel) : (setChan c e s).units = s.units := rfl
@[simp] theorem setChan_lastServed (c : Nat) (e : Channel) : (setChan c e s).lastServed = s.lastServed := rfl
@[simp] theorem setChan_slots (c : Nat) (e : Channel) : (setChan c e s).slots = s.slots := rfl
@[simp] theorem setChan_regions (c : Nat) (e : Channel) : (setChan c e s).regions = s.regions := rfl
@[simp] theorem setChan_freeze (c : Nat) (e : Channel) : (setChan c e s).freeze = s.freeze := rfl
@[simp] theorem setChan_log (c : Nat) (e : Channel) : (setChan c e s).log = s.log := rfl
@[simp] theorem setChan_notices (c : Nat) (e : Channel) : (setChan c e s).notices = s.notices := rfl
@[simp] theorem setChan_pending (c : Nat) (e : Channel) : (setChan c e s).pending = s.pending := rfl

/-! ### `setSlot` -/

@[simp] theorem setSlot_base (k : Nat) (e : Slot) : (setSlot k e s).base = s.base := rfl
@[simp] theorem setSlot_requested (k : Nat) (e : Slot) : (setSlot k e s).requested = s.requested := rfl
@[simp] theorem setSlot_size (k : Nat) (e : Slot) : (setSlot k e s).size = s.size := rfl
@[simp] theorem setSlot_mode (k : Nat) (e : Slot) : (setSlot k e s).mode = s.mode := rfl
@[simp] theorem setSlot_cause (k : Nat) (e : Slot) : (setSlot k e s).cause = s.cause := rfl
@[simp] theorem setSlot_integrityMark (k : Nat) (e : Slot) : (setSlot k e s).integrityMark = s.integrityMark := rfl
@[simp] theorem setSlot_policy (k : Nat) (e : Slot) : (setSlot k e s).policy = s.policy := rfl
@[simp] theorem setSlot_faultLine (k : Nat) (e : Slot) : (setSlot k e s).faultLine = s.faultLine := rfl
@[simp] theorem setSlot_warnLine (k : Nat) (e : Slot) : (setSlot k e s).warnLine = s.warnLine := rfl
@[simp] theorem setSlot_flush (k : Nat) (e : Slot) : (setSlot k e s).flush = s.flush := rfl
@[simp] theorem setSlot_tagBase (k : Nat) (e : Slot) : (setSlot k e s).tagBase = s.tagBase := rfl
@[simp] theorem setSlot_progress (k : Nat) (e : Slot) : (setSlot k e s).progress = s.progress := rfl
@[simp] theorem setSlot_upLink (k : Nat) (e : Slot) : (setSlot k e s).upLink = s.upLink := rfl
@[simp] theorem setSlot_tagsInUse (k : Nat) (e : Slot) : (setSlot k e s).tagsInUse = s.tagsInUse := rfl
@[simp] theorem setSlot_completions (k : Nat) (e : Slot) : (setSlot k e s).completions = s.completions := rfl
@[simp] theorem setSlot_noticeSlot (k : Nat) (e : Slot) : (setSlot k e s).noticeSlot = s.noticeSlot := rfl
@[simp] theorem setSlot_txOffered (k : Nat) (e : Slot) : (setSlot k e s).txOffered = s.txOffered := rfl
@[simp] theorem setSlot_txLast (k : Nat) (e : Slot) : (setSlot k e s).txLast = s.txLast := rfl
@[simp] theorem setSlot_downLink (k : Nat) (e : Slot) : (setSlot k e s).downLink = s.downLink := rfl
@[simp] theorem setSlot_outstanding (k : Nat) (e : Slot) : (setSlot k e s).outstanding = s.outstanding := rfl
@[simp] theorem setSlot_heldTags (k : Nat) (e : Slot) : (setSlot k e s).heldTags = s.heldTags := rfl
@[simp] theorem setSlot_tagWaits (k : Nat) (e : Slot) : (setSlot k e s).tagWaits = s.tagWaits := rfl
@[simp] theorem setSlot_produced (k : Nat) (e : Slot) : (setSlot k e s).produced = s.produced := rfl
@[simp] theorem setSlot_offers (k : Nat) (e : Slot) : (setSlot k e s).offers = s.offers := rfl
@[simp] theorem setSlot_downOffered (k : Nat) (e : Slot) : (setSlot k e s).downOffered = s.downOffered := rfl
@[simp] theorem setSlot_lastClass (k : Nat) (e : Slot) : (setSlot k e s).lastClass = s.lastClass := rfl
@[simp] theorem setSlot_stage (k : Nat) (e : Slot) : (setSlot k e s).stage = s.stage := rfl
@[simp] theorem setSlot_inFlight (k : Nat) (e : Slot) : (setSlot k e s).inFlight = s.inFlight := rfl
@[simp] theorem setSlot_drains (k : Nat) (e : Slot) : (setSlot k e s).drains = s.drains := rfl
@[simp] theorem setSlot_ways (k : Nat) (e : Slot) : (setSlot k e s).ways = s.ways := rfl
@[simp] theorem setSlot_lru (k : Nat) (e : Slot) : (setSlot k e s).lru = s.lru := rfl
@[simp] theorem setSlot_fills (k : Nat) (e : Slot) : (setSlot k e s).fills = s.fills := rfl
@[simp] theorem setSlot_fillWaits (k : Nat) (e : Slot) : (setSlot k e s).fillWaits = s.fillWaits := rfl
@[simp] theorem setSlot_fillSerial (k : Nat) (e : Slot) : (setSlot k e s).fillSerial = s.fillSerial := rfl
@[simp] theorem setSlot_missQueue (k : Nat) (e : Slot) : (setSlot k e s).missQueue = s.missQueue := rfl
@[simp] theorem setSlot_poisonings (k : Nat) (e : Slot) : (setSlot k e s).poisonings = s.poisonings := rfl
@[simp] theorem setSlot_corrected (k : Nat) (e : Slot) : (setSlot k e s).corrected = s.corrected := rfl
@[simp] theorem setSlot_correctedLimit (k : Nat) (e : Slot) : (setSlot k e s).correctedLimit = s.correctedLimit := rfl
@[simp] theorem setSlot_firstCorrected (k : Nat) (e : Slot) : (setSlot k e s).firstCorrected = s.firstCorrected := rfl
@[simp] theorem setSlot_hold (k : Nat) (e : Slot) : (setSlot k e s).hold = s.hold := rfl
@[simp] theorem setSlot_poisonList (k : Nat) (e : Slot) : (setSlot k e s).poisonList = s.poisonList := rfl
@[simp] theorem setSlot_domains (k : Nat) (e : Slot) : (setSlot k e s).domains = s.domains := rfl
@[simp] theorem setSlot_grants (k : Nat) (e : Slot) : (setSlot k e s).grants = s.grants := rfl
@[simp] theorem setSlot_grantSerial (k : Nat) (e : Slot) : (setSlot k e s).grantSerial = s.grantSerial := rfl
@[simp] theorem setSlot_requests (k : Nat) (e : Slot) : (setSlot k e s).requests = s.requests := rfl
@[simp] theorem setSlot_running (k : Nat) (e : Slot) : (setSlot k e s).running = s.running := rfl
@[simp] theorem setSlot_results (k : Nat) (e : Slot) : (setSlot k e s).results = s.results := rfl
@[simp] theorem setSlot_channels (k : Nat) (e : Slot) : (setSlot k e s).channels = s.channels := rfl
@[simp] theorem setSlot_warm (k : Nat) (e : Slot) : (setSlot k e s).warm = s.warm := rfl
@[simp] theorem setSlot_units (k : Nat) (e : Slot) : (setSlot k e s).units = s.units := rfl
@[simp] theorem setSlot_lastServed (k : Nat) (e : Slot) : (setSlot k e s).lastServed = s.lastServed := rfl
@[simp] theorem setSlot_regions (k : Nat) (e : Slot) : (setSlot k e s).regions = s.regions := rfl
@[simp] theorem setSlot_freeze (k : Nat) (e : Slot) : (setSlot k e s).freeze = s.freeze := rfl
@[simp] theorem setSlot_log (k : Nat) (e : Slot) : (setSlot k e s).log = s.log := rfl
@[simp] theorem setSlot_notices (k : Nat) (e : Slot) : (setSlot k e s).notices = s.notices := rfl
@[simp] theorem setSlot_pending (k : Nat) (e : Slot) : (setSlot k e s).pending = s.pending := rfl

/-! ### `setRegion` -/

@[simp] theorem setRegion_base (i : Nat) (e : Region) : (setRegion i e s).base = s.base := rfl
@[simp] theorem setRegion_requested (i : Nat) (e : Region) : (setRegion i e s).requested = s.requested := rfl
@[simp] theorem setRegion_size (i : Nat) (e : Region) : (setRegion i e s).size = s.size := rfl
@[simp] theorem setRegion_mode (i : Nat) (e : Region) : (setRegion i e s).mode = s.mode := rfl
@[simp] theorem setRegion_cause (i : Nat) (e : Region) : (setRegion i e s).cause = s.cause := rfl
@[simp] theorem setRegion_integrityMark (i : Nat) (e : Region) : (setRegion i e s).integrityMark = s.integrityMark := rfl
@[simp] theorem setRegion_policy (i : Nat) (e : Region) : (setRegion i e s).policy = s.policy := rfl
@[simp] theorem setRegion_faultLine (i : Nat) (e : Region) : (setRegion i e s).faultLine = s.faultLine := rfl
@[simp] theorem setRegion_warnLine (i : Nat) (e : Region) : (setRegion i e s).warnLine = s.warnLine := rfl
@[simp] theorem setRegion_flush (i : Nat) (e : Region) : (setRegion i e s).flush = s.flush := rfl
@[simp] theorem setRegion_tagBase (i : Nat) (e : Region) : (setRegion i e s).tagBase = s.tagBase := rfl
@[simp] theorem setRegion_progress (i : Nat) (e : Region) : (setRegion i e s).progress = s.progress := rfl
@[simp] theorem setRegion_upLink (i : Nat) (e : Region) : (setRegion i e s).upLink = s.upLink := rfl
@[simp] theorem setRegion_tagsInUse (i : Nat) (e : Region) : (setRegion i e s).tagsInUse = s.tagsInUse := rfl
@[simp] theorem setRegion_completions (i : Nat) (e : Region) : (setRegion i e s).completions = s.completions := rfl
@[simp] theorem setRegion_noticeSlot (i : Nat) (e : Region) : (setRegion i e s).noticeSlot = s.noticeSlot := rfl
@[simp] theorem setRegion_txOffered (i : Nat) (e : Region) : (setRegion i e s).txOffered = s.txOffered := rfl
@[simp] theorem setRegion_txLast (i : Nat) (e : Region) : (setRegion i e s).txLast = s.txLast := rfl
@[simp] theorem setRegion_downLink (i : Nat) (e : Region) : (setRegion i e s).downLink = s.downLink := rfl
@[simp] theorem setRegion_outstanding (i : Nat) (e : Region) : (setRegion i e s).outstanding = s.outstanding := rfl
@[simp] theorem setRegion_heldTags (i : Nat) (e : Region) : (setRegion i e s).heldTags = s.heldTags := rfl
@[simp] theorem setRegion_tagWaits (i : Nat) (e : Region) : (setRegion i e s).tagWaits = s.tagWaits := rfl
@[simp] theorem setRegion_produced (i : Nat) (e : Region) : (setRegion i e s).produced = s.produced := rfl
@[simp] theorem setRegion_offers (i : Nat) (e : Region) : (setRegion i e s).offers = s.offers := rfl
@[simp] theorem setRegion_downOffered (i : Nat) (e : Region) : (setRegion i e s).downOffered = s.downOffered := rfl
@[simp] theorem setRegion_lastClass (i : Nat) (e : Region) : (setRegion i e s).lastClass = s.lastClass := rfl
@[simp] theorem setRegion_stage (i : Nat) (e : Region) : (setRegion i e s).stage = s.stage := rfl
@[simp] theorem setRegion_inFlight (i : Nat) (e : Region) : (setRegion i e s).inFlight = s.inFlight := rfl
@[simp] theorem setRegion_drains (i : Nat) (e : Region) : (setRegion i e s).drains = s.drains := rfl
@[simp] theorem setRegion_ways (i : Nat) (e : Region) : (setRegion i e s).ways = s.ways := rfl
@[simp] theorem setRegion_lru (i : Nat) (e : Region) : (setRegion i e s).lru = s.lru := rfl
@[simp] theorem setRegion_fills (i : Nat) (e : Region) : (setRegion i e s).fills = s.fills := rfl
@[simp] theorem setRegion_fillWaits (i : Nat) (e : Region) : (setRegion i e s).fillWaits = s.fillWaits := rfl
@[simp] theorem setRegion_fillSerial (i : Nat) (e : Region) : (setRegion i e s).fillSerial = s.fillSerial := rfl
@[simp] theorem setRegion_missQueue (i : Nat) (e : Region) : (setRegion i e s).missQueue = s.missQueue := rfl
@[simp] theorem setRegion_poisonings (i : Nat) (e : Region) : (setRegion i e s).poisonings = s.poisonings := rfl
@[simp] theorem setRegion_corrected (i : Nat) (e : Region) : (setRegion i e s).corrected = s.corrected := rfl
@[simp] theorem setRegion_correctedLimit (i : Nat) (e : Region) : (setRegion i e s).correctedLimit = s.correctedLimit := rfl
@[simp] theorem setRegion_firstCorrected (i : Nat) (e : Region) : (setRegion i e s).firstCorrected = s.firstCorrected := rfl
@[simp] theorem setRegion_hold (i : Nat) (e : Region) : (setRegion i e s).hold = s.hold := rfl
@[simp] theorem setRegion_poisonList (i : Nat) (e : Region) : (setRegion i e s).poisonList = s.poisonList := rfl
@[simp] theorem setRegion_domains (i : Nat) (e : Region) : (setRegion i e s).domains = s.domains := rfl
@[simp] theorem setRegion_grants (i : Nat) (e : Region) : (setRegion i e s).grants = s.grants := rfl
@[simp] theorem setRegion_grantSerial (i : Nat) (e : Region) : (setRegion i e s).grantSerial = s.grantSerial := rfl
@[simp] theorem setRegion_requests (i : Nat) (e : Region) : (setRegion i e s).requests = s.requests := rfl
@[simp] theorem setRegion_running (i : Nat) (e : Region) : (setRegion i e s).running = s.running := rfl
@[simp] theorem setRegion_results (i : Nat) (e : Region) : (setRegion i e s).results = s.results := rfl
@[simp] theorem setRegion_channels (i : Nat) (e : Region) : (setRegion i e s).channels = s.channels := rfl
@[simp] theorem setRegion_warm (i : Nat) (e : Region) : (setRegion i e s).warm = s.warm := rfl
@[simp] theorem setRegion_units (i : Nat) (e : Region) : (setRegion i e s).units = s.units := rfl
@[simp] theorem setRegion_lastServed (i : Nat) (e : Region) : (setRegion i e s).lastServed = s.lastServed := rfl
@[simp] theorem setRegion_slots (i : Nat) (e : Region) : (setRegion i e s).slots = s.slots := rfl
@[simp] theorem setRegion_freeze (i : Nat) (e : Region) : (setRegion i e s).freeze = s.freeze := rfl
@[simp] theorem setRegion_log (i : Nat) (e : Region) : (setRegion i e s).log = s.log := rfl
@[simp] theorem setRegion_notices (i : Nat) (e : Region) : (setRegion i e s).notices = s.notices := rfl
@[simp] theorem setRegion_pending (i : Nat) (e : Region) : (setRegion i e s).pending = s.pending := rfl

/-! ### `setSource` -/

@[simp] theorem setSource_base (n : Nat) (e : Source) : (setSource n e s).base = s.base := rfl
@[simp] theorem setSource_requested (n : Nat) (e : Source) : (setSource n e s).requested = s.requested := rfl
@[simp] theorem setSource_size (n : Nat) (e : Source) : (setSource n e s).size = s.size := rfl
@[simp] theorem setSource_mode (n : Nat) (e : Source) : (setSource n e s).mode = s.mode := rfl
@[simp] theorem setSource_cause (n : Nat) (e : Source) : (setSource n e s).cause = s.cause := rfl
@[simp] theorem setSource_integrityMark (n : Nat) (e : Source) : (setSource n e s).integrityMark = s.integrityMark := rfl
@[simp] theorem setSource_policy (n : Nat) (e : Source) : (setSource n e s).policy = s.policy := rfl
@[simp] theorem setSource_faultLine (n : Nat) (e : Source) : (setSource n e s).faultLine = s.faultLine := rfl
@[simp] theorem setSource_warnLine (n : Nat) (e : Source) : (setSource n e s).warnLine = s.warnLine := rfl
@[simp] theorem setSource_flush (n : Nat) (e : Source) : (setSource n e s).flush = s.flush := rfl
@[simp] theorem setSource_tagBase (n : Nat) (e : Source) : (setSource n e s).tagBase = s.tagBase := rfl
@[simp] theorem setSource_progress (n : Nat) (e : Source) : (setSource n e s).progress = s.progress := rfl
@[simp] theorem setSource_upLink (n : Nat) (e : Source) : (setSource n e s).upLink = s.upLink := rfl
@[simp] theorem setSource_tagsInUse (n : Nat) (e : Source) : (setSource n e s).tagsInUse = s.tagsInUse := rfl
@[simp] theorem setSource_completions (n : Nat) (e : Source) : (setSource n e s).completions = s.completions := rfl
@[simp] theorem setSource_noticeSlot (n : Nat) (e : Source) : (setSource n e s).noticeSlot = s.noticeSlot := rfl
@[simp] theorem setSource_txOffered (n : Nat) (e : Source) : (setSource n e s).txOffered = s.txOffered := rfl
@[simp] theorem setSource_txLast (n : Nat) (e : Source) : (setSource n e s).txLast = s.txLast := rfl
@[simp] theorem setSource_downLink (n : Nat) (e : Source) : (setSource n e s).downLink = s.downLink := rfl
@[simp] theorem setSource_outstanding (n : Nat) (e : Source) : (setSource n e s).outstanding = s.outstanding := rfl
@[simp] theorem setSource_heldTags (n : Nat) (e : Source) : (setSource n e s).heldTags = s.heldTags := rfl
@[simp] theorem setSource_tagWaits (n : Nat) (e : Source) : (setSource n e s).tagWaits = s.tagWaits := rfl
@[simp] theorem setSource_produced (n : Nat) (e : Source) : (setSource n e s).produced = s.produced := rfl
@[simp] theorem setSource_offers (n : Nat) (e : Source) : (setSource n e s).offers = s.offers := rfl
@[simp] theorem setSource_downOffered (n : Nat) (e : Source) : (setSource n e s).downOffered = s.downOffered := rfl
@[simp] theorem setSource_lastClass (n : Nat) (e : Source) : (setSource n e s).lastClass = s.lastClass := rfl
@[simp] theorem setSource_stage (n : Nat) (e : Source) : (setSource n e s).stage = s.stage := rfl
@[simp] theorem setSource_inFlight (n : Nat) (e : Source) : (setSource n e s).inFlight = s.inFlight := rfl
@[simp] theorem setSource_drains (n : Nat) (e : Source) : (setSource n e s).drains = s.drains := rfl
@[simp] theorem setSource_ways (n : Nat) (e : Source) : (setSource n e s).ways = s.ways := rfl
@[simp] theorem setSource_lru (n : Nat) (e : Source) : (setSource n e s).lru = s.lru := rfl
@[simp] theorem setSource_fills (n : Nat) (e : Source) : (setSource n e s).fills = s.fills := rfl
@[simp] theorem setSource_fillWaits (n : Nat) (e : Source) : (setSource n e s).fillWaits = s.fillWaits := rfl
@[simp] theorem setSource_fillSerial (n : Nat) (e : Source) : (setSource n e s).fillSerial = s.fillSerial := rfl
@[simp] theorem setSource_missQueue (n : Nat) (e : Source) : (setSource n e s).missQueue = s.missQueue := rfl
@[simp] theorem setSource_poisonings (n : Nat) (e : Source) : (setSource n e s).poisonings = s.poisonings := rfl
@[simp] theorem setSource_corrected (n : Nat) (e : Source) : (setSource n e s).corrected = s.corrected := rfl
@[simp] theorem setSource_correctedLimit (n : Nat) (e : Source) : (setSource n e s).correctedLimit = s.correctedLimit := rfl
@[simp] theorem setSource_firstCorrected (n : Nat) (e : Source) : (setSource n e s).firstCorrected = s.firstCorrected := rfl
@[simp] theorem setSource_hold (n : Nat) (e : Source) : (setSource n e s).hold = s.hold := rfl
@[simp] theorem setSource_poisonList (n : Nat) (e : Source) : (setSource n e s).poisonList = s.poisonList := rfl
@[simp] theorem setSource_domains (n : Nat) (e : Source) : (setSource n e s).domains = s.domains := rfl
@[simp] theorem setSource_grants (n : Nat) (e : Source) : (setSource n e s).grants = s.grants := rfl
@[simp] theorem setSource_grantSerial (n : Nat) (e : Source) : (setSource n e s).grantSerial = s.grantSerial := rfl
@[simp] theorem setSource_requests (n : Nat) (e : Source) : (setSource n e s).requests = s.requests := rfl
@[simp] theorem setSource_running (n : Nat) (e : Source) : (setSource n e s).running = s.running := rfl
@[simp] theorem setSource_results (n : Nat) (e : Source) : (setSource n e s).results = s.results := rfl
@[simp] theorem setSource_channels (n : Nat) (e : Source) : (setSource n e s).channels = s.channels := rfl
@[simp] theorem setSource_warm (n : Nat) (e : Source) : (setSource n e s).warm = s.warm := rfl
@[simp] theorem setSource_units (n : Nat) (e : Source) : (setSource n e s).units = s.units := rfl
@[simp] theorem setSource_lastServed (n : Nat) (e : Source) : (setSource n e s).lastServed = s.lastServed := rfl
@[simp] theorem setSource_slots (n : Nat) (e : Source) : (setSource n e s).slots = s.slots := rfl
@[simp] theorem setSource_regions (n : Nat) (e : Source) : (setSource n e s).regions = s.regions := rfl
@[simp] theorem setSource_freeze (n : Nat) (e : Source) : (setSource n e s).freeze = s.freeze := rfl
@[simp] theorem setSource_log (n : Nat) (e : Source) : (setSource n e s).log = s.log := rfl
@[simp] theorem setSource_pending (n : Nat) (e : Source) : (setSource n e s).pending = s.pending := rfl

/-! ### `setResult` -/

@[simp] theorem setResult_base (d : Nat) (e : LastResult) : (setResult d e s).base = s.base := rfl
@[simp] theorem setResult_requested (d : Nat) (e : LastResult) : (setResult d e s).requested = s.requested := rfl
@[simp] theorem setResult_size (d : Nat) (e : LastResult) : (setResult d e s).size = s.size := rfl
@[simp] theorem setResult_mode (d : Nat) (e : LastResult) : (setResult d e s).mode = s.mode := rfl
@[simp] theorem setResult_cause (d : Nat) (e : LastResult) : (setResult d e s).cause = s.cause := rfl
@[simp] theorem setResult_integrityMark (d : Nat) (e : LastResult) : (setResult d e s).integrityMark =
    s.integrityMark := rfl
@[simp] theorem setResult_policy (d : Nat) (e : LastResult) : (setResult d e s).policy = s.policy := rfl
@[simp] theorem setResult_faultLine (d : Nat) (e : LastResult) : (setResult d e s).faultLine = s.faultLine := rfl
@[simp] theorem setResult_warnLine (d : Nat) (e : LastResult) : (setResult d e s).warnLine = s.warnLine := rfl
@[simp] theorem setResult_flush (d : Nat) (e : LastResult) : (setResult d e s).flush = s.flush := rfl
@[simp] theorem setResult_tagBase (d : Nat) (e : LastResult) : (setResult d e s).tagBase = s.tagBase := rfl
@[simp] theorem setResult_progress (d : Nat) (e : LastResult) : (setResult d e s).progress = s.progress := rfl
@[simp] theorem setResult_upLink (d : Nat) (e : LastResult) : (setResult d e s).upLink = s.upLink := rfl
@[simp] theorem setResult_tagsInUse (d : Nat) (e : LastResult) : (setResult d e s).tagsInUse = s.tagsInUse := rfl
@[simp] theorem setResult_completions (d : Nat) (e : LastResult) : (setResult d e s).completions = s.completions := rfl
@[simp] theorem setResult_noticeSlot (d : Nat) (e : LastResult) : (setResult d e s).noticeSlot = s.noticeSlot := rfl
@[simp] theorem setResult_txOffered (d : Nat) (e : LastResult) : (setResult d e s).txOffered = s.txOffered := rfl
@[simp] theorem setResult_txLast (d : Nat) (e : LastResult) : (setResult d e s).txLast = s.txLast := rfl
@[simp] theorem setResult_downLink (d : Nat) (e : LastResult) : (setResult d e s).downLink = s.downLink := rfl
@[simp] theorem setResult_outstanding (d : Nat) (e : LastResult) : (setResult d e s).outstanding = s.outstanding := rfl
@[simp] theorem setResult_heldTags (d : Nat) (e : LastResult) : (setResult d e s).heldTags = s.heldTags := rfl
@[simp] theorem setResult_tagWaits (d : Nat) (e : LastResult) : (setResult d e s).tagWaits = s.tagWaits := rfl
@[simp] theorem setResult_produced (d : Nat) (e : LastResult) : (setResult d e s).produced = s.produced := rfl
@[simp] theorem setResult_offers (d : Nat) (e : LastResult) : (setResult d e s).offers = s.offers := rfl
@[simp] theorem setResult_downOffered (d : Nat) (e : LastResult) : (setResult d e s).downOffered = s.downOffered := rfl
@[simp] theorem setResult_lastClass (d : Nat) (e : LastResult) : (setResult d e s).lastClass = s.lastClass := rfl
@[simp] theorem setResult_stage (d : Nat) (e : LastResult) : (setResult d e s).stage = s.stage := rfl
@[simp] theorem setResult_inFlight (d : Nat) (e : LastResult) : (setResult d e s).inFlight = s.inFlight := rfl
@[simp] theorem setResult_drains (d : Nat) (e : LastResult) : (setResult d e s).drains = s.drains := rfl
@[simp] theorem setResult_ways (d : Nat) (e : LastResult) : (setResult d e s).ways = s.ways := rfl
@[simp] theorem setResult_lru (d : Nat) (e : LastResult) : (setResult d e s).lru = s.lru := rfl
@[simp] theorem setResult_fills (d : Nat) (e : LastResult) : (setResult d e s).fills = s.fills := rfl
@[simp] theorem setResult_fillWaits (d : Nat) (e : LastResult) : (setResult d e s).fillWaits = s.fillWaits := rfl
@[simp] theorem setResult_fillSerial (d : Nat) (e : LastResult) : (setResult d e s).fillSerial = s.fillSerial := rfl
@[simp] theorem setResult_missQueue (d : Nat) (e : LastResult) : (setResult d e s).missQueue = s.missQueue := rfl
@[simp] theorem setResult_poisonings (d : Nat) (e : LastResult) : (setResult d e s).poisonings = s.poisonings := rfl
@[simp] theorem setResult_corrected (d : Nat) (e : LastResult) : (setResult d e s).corrected = s.corrected := rfl
@[simp] theorem setResult_correctedLimit (d : Nat) (e : LastResult) : (setResult d e s).correctedLimit =
    s.correctedLimit := rfl
@[simp] theorem setResult_firstCorrected (d : Nat) (e : LastResult) : (setResult d e s).firstCorrected =
    s.firstCorrected := rfl
@[simp] theorem setResult_hold (d : Nat) (e : LastResult) : (setResult d e s).hold = s.hold := rfl
@[simp] theorem setResult_poisonList (d : Nat) (e : LastResult) : (setResult d e s).poisonList = s.poisonList := rfl
@[simp] theorem setResult_domains (d : Nat) (e : LastResult) : (setResult d e s).domains = s.domains := rfl
@[simp] theorem setResult_grants (d : Nat) (e : LastResult) : (setResult d e s).grants = s.grants := rfl
@[simp] theorem setResult_grantSerial (d : Nat) (e : LastResult) : (setResult d e s).grantSerial = s.grantSerial := rfl
@[simp] theorem setResult_requests (d : Nat) (e : LastResult) : (setResult d e s).requests = s.requests := rfl
@[simp] theorem setResult_running (d : Nat) (e : LastResult) : (setResult d e s).running = s.running := rfl
@[simp] theorem setResult_channels (d : Nat) (e : LastResult) : (setResult d e s).channels = s.channels := rfl
@[simp] theorem setResult_warm (d : Nat) (e : LastResult) : (setResult d e s).warm = s.warm := rfl
@[simp] theorem setResult_units (d : Nat) (e : LastResult) : (setResult d e s).units = s.units := rfl
@[simp] theorem setResult_lastServed (d : Nat) (e : LastResult) : (setResult d e s).lastServed = s.lastServed := rfl
@[simp] theorem setResult_slots (d : Nat) (e : LastResult) : (setResult d e s).slots = s.slots := rfl
@[simp] theorem setResult_regions (d : Nat) (e : LastResult) : (setResult d e s).regions = s.regions := rfl
@[simp] theorem setResult_freeze (d : Nat) (e : LastResult) : (setResult d e s).freeze = s.freeze := rfl
@[simp] theorem setResult_log (d : Nat) (e : LastResult) : (setResult d e s).log = s.log := rfl
@[simp] theorem setResult_notices (d : Nat) (e : LastResult) : (setResult d e s).notices = s.notices := rfl
@[simp] theorem setResult_pending (d : Nat) (e : LastResult) : (setResult d e s).pending = s.pending := rfl

/-! ### `setGrant` -/

@[simp] theorem setGrant_base (i : Nat) (g : Grant) : (setGrant i g s).base = s.base := rfl
@[simp] theorem setGrant_requested (i : Nat) (g : Grant) : (setGrant i g s).requested = s.requested := rfl
@[simp] theorem setGrant_size (i : Nat) (g : Grant) : (setGrant i g s).size = s.size := rfl
@[simp] theorem setGrant_mode (i : Nat) (g : Grant) : (setGrant i g s).mode = s.mode := rfl
@[simp] theorem setGrant_cause (i : Nat) (g : Grant) : (setGrant i g s).cause = s.cause := rfl
@[simp] theorem setGrant_integrityMark (i : Nat) (g : Grant) : (setGrant i g s).integrityMark = s.integrityMark := rfl
@[simp] theorem setGrant_policy (i : Nat) (g : Grant) : (setGrant i g s).policy = s.policy := rfl
@[simp] theorem setGrant_faultLine (i : Nat) (g : Grant) : (setGrant i g s).faultLine = s.faultLine := rfl
@[simp] theorem setGrant_warnLine (i : Nat) (g : Grant) : (setGrant i g s).warnLine = s.warnLine := rfl
@[simp] theorem setGrant_flush (i : Nat) (g : Grant) : (setGrant i g s).flush = s.flush := rfl
@[simp] theorem setGrant_tagBase (i : Nat) (g : Grant) : (setGrant i g s).tagBase = s.tagBase := rfl
@[simp] theorem setGrant_progress (i : Nat) (g : Grant) : (setGrant i g s).progress = s.progress := rfl
@[simp] theorem setGrant_upLink (i : Nat) (g : Grant) : (setGrant i g s).upLink = s.upLink := rfl
@[simp] theorem setGrant_tagsInUse (i : Nat) (g : Grant) : (setGrant i g s).tagsInUse = s.tagsInUse := rfl
@[simp] theorem setGrant_completions (i : Nat) (g : Grant) : (setGrant i g s).completions = s.completions := rfl
@[simp] theorem setGrant_noticeSlot (i : Nat) (g : Grant) : (setGrant i g s).noticeSlot = s.noticeSlot := rfl
@[simp] theorem setGrant_txOffered (i : Nat) (g : Grant) : (setGrant i g s).txOffered = s.txOffered := rfl
@[simp] theorem setGrant_txLast (i : Nat) (g : Grant) : (setGrant i g s).txLast = s.txLast := rfl
@[simp] theorem setGrant_downLink (i : Nat) (g : Grant) : (setGrant i g s).downLink = s.downLink := rfl
@[simp] theorem setGrant_outstanding (i : Nat) (g : Grant) : (setGrant i g s).outstanding = s.outstanding := rfl
@[simp] theorem setGrant_heldTags (i : Nat) (g : Grant) : (setGrant i g s).heldTags = s.heldTags := rfl
@[simp] theorem setGrant_tagWaits (i : Nat) (g : Grant) : (setGrant i g s).tagWaits = s.tagWaits := rfl
@[simp] theorem setGrant_produced (i : Nat) (g : Grant) : (setGrant i g s).produced = s.produced := rfl
@[simp] theorem setGrant_offers (i : Nat) (g : Grant) : (setGrant i g s).offers = s.offers := rfl
@[simp] theorem setGrant_downOffered (i : Nat) (g : Grant) : (setGrant i g s).downOffered = s.downOffered := rfl
@[simp] theorem setGrant_lastClass (i : Nat) (g : Grant) : (setGrant i g s).lastClass = s.lastClass := rfl
@[simp] theorem setGrant_stage (i : Nat) (g : Grant) : (setGrant i g s).stage = s.stage := rfl
@[simp] theorem setGrant_inFlight (i : Nat) (g : Grant) : (setGrant i g s).inFlight = s.inFlight := rfl
@[simp] theorem setGrant_drains (i : Nat) (g : Grant) : (setGrant i g s).drains = s.drains := rfl
@[simp] theorem setGrant_ways (i : Nat) (g : Grant) : (setGrant i g s).ways = s.ways := rfl
@[simp] theorem setGrant_lru (i : Nat) (g : Grant) : (setGrant i g s).lru = s.lru := rfl
@[simp] theorem setGrant_fills (i : Nat) (g : Grant) : (setGrant i g s).fills = s.fills := rfl
@[simp] theorem setGrant_fillWaits (i : Nat) (g : Grant) : (setGrant i g s).fillWaits = s.fillWaits := rfl
@[simp] theorem setGrant_fillSerial (i : Nat) (g : Grant) : (setGrant i g s).fillSerial = s.fillSerial := rfl
@[simp] theorem setGrant_missQueue (i : Nat) (g : Grant) : (setGrant i g s).missQueue = s.missQueue := rfl
@[simp] theorem setGrant_poisonings (i : Nat) (g : Grant) : (setGrant i g s).poisonings = s.poisonings := rfl
@[simp] theorem setGrant_corrected (i : Nat) (g : Grant) : (setGrant i g s).corrected = s.corrected := rfl
@[simp] theorem setGrant_correctedLimit (i : Nat) (g : Grant) : (setGrant i g s).correctedLimit = s.correctedLimit := rfl
@[simp] theorem setGrant_firstCorrected (i : Nat) (g : Grant) : (setGrant i g s).firstCorrected = s.firstCorrected := rfl
@[simp] theorem setGrant_hold (i : Nat) (g : Grant) : (setGrant i g s).hold = s.hold := rfl
@[simp] theorem setGrant_poisonList (i : Nat) (g : Grant) : (setGrant i g s).poisonList = s.poisonList := rfl
@[simp] theorem setGrant_domains (i : Nat) (g : Grant) : (setGrant i g s).domains = s.domains := rfl
@[simp] theorem setGrant_grantSerial (i : Nat) (g : Grant) : (setGrant i g s).grantSerial = s.grantSerial := rfl
@[simp] theorem setGrant_requests (i : Nat) (g : Grant) : (setGrant i g s).requests = s.requests := rfl
@[simp] theorem setGrant_running (i : Nat) (g : Grant) : (setGrant i g s).running = s.running := rfl
@[simp] theorem setGrant_results (i : Nat) (g : Grant) : (setGrant i g s).results = s.results := rfl
@[simp] theorem setGrant_channels (i : Nat) (g : Grant) : (setGrant i g s).channels = s.channels := rfl
@[simp] theorem setGrant_warm (i : Nat) (g : Grant) : (setGrant i g s).warm = s.warm := rfl
@[simp] theorem setGrant_units (i : Nat) (g : Grant) : (setGrant i g s).units = s.units := rfl
@[simp] theorem setGrant_lastServed (i : Nat) (g : Grant) : (setGrant i g s).lastServed = s.lastServed := rfl
@[simp] theorem setGrant_slots (i : Nat) (g : Grant) : (setGrant i g s).slots = s.slots := rfl
@[simp] theorem setGrant_regions (i : Nat) (g : Grant) : (setGrant i g s).regions = s.regions := rfl
@[simp] theorem setGrant_freeze (i : Nat) (g : Grant) : (setGrant i g s).freeze = s.freeze := rfl
@[simp] theorem setGrant_log (i : Nat) (g : Grant) : (setGrant i g s).log = s.log := rfl
@[simp] theorem setGrant_notices (i : Nat) (g : Grant) : (setGrant i g s).notices = s.notices := rfl
@[simp] theorem setGrant_pending (i : Nat) (g : Grant) : (setGrant i g s).pending = s.pending := rfl

/-! ### `setUnit` -/

@[simp] theorem setUnit_base (u : Nat) (z : Zeroing) : (setUnit u z s).base = s.base := rfl
@[simp] theorem setUnit_requested (u : Nat) (z : Zeroing) : (setUnit u z s).requested = s.requested := rfl
@[simp] theorem setUnit_size (u : Nat) (z : Zeroing) : (setUnit u z s).size = s.size := rfl
@[simp] theorem setUnit_mode (u : Nat) (z : Zeroing) : (setUnit u z s).mode = s.mode := rfl
@[simp] theorem setUnit_cause (u : Nat) (z : Zeroing) : (setUnit u z s).cause = s.cause := rfl
@[simp] theorem setUnit_integrityMark (u : Nat) (z : Zeroing) : (setUnit u z s).integrityMark = s.integrityMark := rfl
@[simp] theorem setUnit_policy (u : Nat) (z : Zeroing) : (setUnit u z s).policy = s.policy := rfl
@[simp] theorem setUnit_faultLine (u : Nat) (z : Zeroing) : (setUnit u z s).faultLine = s.faultLine := rfl
@[simp] theorem setUnit_warnLine (u : Nat) (z : Zeroing) : (setUnit u z s).warnLine = s.warnLine := rfl
@[simp] theorem setUnit_flush (u : Nat) (z : Zeroing) : (setUnit u z s).flush = s.flush := rfl
@[simp] theorem setUnit_tagBase (u : Nat) (z : Zeroing) : (setUnit u z s).tagBase = s.tagBase := rfl
@[simp] theorem setUnit_progress (u : Nat) (z : Zeroing) : (setUnit u z s).progress = s.progress := rfl
@[simp] theorem setUnit_upLink (u : Nat) (z : Zeroing) : (setUnit u z s).upLink = s.upLink := rfl
@[simp] theorem setUnit_tagsInUse (u : Nat) (z : Zeroing) : (setUnit u z s).tagsInUse = s.tagsInUse := rfl
@[simp] theorem setUnit_completions (u : Nat) (z : Zeroing) : (setUnit u z s).completions = s.completions := rfl
@[simp] theorem setUnit_noticeSlot (u : Nat) (z : Zeroing) : (setUnit u z s).noticeSlot = s.noticeSlot := rfl
@[simp] theorem setUnit_txOffered (u : Nat) (z : Zeroing) : (setUnit u z s).txOffered = s.txOffered := rfl
@[simp] theorem setUnit_txLast (u : Nat) (z : Zeroing) : (setUnit u z s).txLast = s.txLast := rfl
@[simp] theorem setUnit_downLink (u : Nat) (z : Zeroing) : (setUnit u z s).downLink = s.downLink := rfl
@[simp] theorem setUnit_outstanding (u : Nat) (z : Zeroing) : (setUnit u z s).outstanding = s.outstanding := rfl
@[simp] theorem setUnit_heldTags (u : Nat) (z : Zeroing) : (setUnit u z s).heldTags = s.heldTags := rfl
@[simp] theorem setUnit_tagWaits (u : Nat) (z : Zeroing) : (setUnit u z s).tagWaits = s.tagWaits := rfl
@[simp] theorem setUnit_produced (u : Nat) (z : Zeroing) : (setUnit u z s).produced = s.produced := rfl
@[simp] theorem setUnit_offers (u : Nat) (z : Zeroing) : (setUnit u z s).offers = s.offers := rfl
@[simp] theorem setUnit_downOffered (u : Nat) (z : Zeroing) : (setUnit u z s).downOffered = s.downOffered := rfl
@[simp] theorem setUnit_lastClass (u : Nat) (z : Zeroing) : (setUnit u z s).lastClass = s.lastClass := rfl
@[simp] theorem setUnit_stage (u : Nat) (z : Zeroing) : (setUnit u z s).stage = s.stage := rfl
@[simp] theorem setUnit_inFlight (u : Nat) (z : Zeroing) : (setUnit u z s).inFlight = s.inFlight := rfl
@[simp] theorem setUnit_drains (u : Nat) (z : Zeroing) : (setUnit u z s).drains = s.drains := rfl
@[simp] theorem setUnit_ways (u : Nat) (z : Zeroing) : (setUnit u z s).ways = s.ways := rfl
@[simp] theorem setUnit_lru (u : Nat) (z : Zeroing) : (setUnit u z s).lru = s.lru := rfl
@[simp] theorem setUnit_fills (u : Nat) (z : Zeroing) : (setUnit u z s).fills = s.fills := rfl
@[simp] theorem setUnit_fillWaits (u : Nat) (z : Zeroing) : (setUnit u z s).fillWaits = s.fillWaits := rfl
@[simp] theorem setUnit_fillSerial (u : Nat) (z : Zeroing) : (setUnit u z s).fillSerial = s.fillSerial := rfl
@[simp] theorem setUnit_missQueue (u : Nat) (z : Zeroing) : (setUnit u z s).missQueue = s.missQueue := rfl
@[simp] theorem setUnit_poisonings (u : Nat) (z : Zeroing) : (setUnit u z s).poisonings = s.poisonings := rfl
@[simp] theorem setUnit_corrected (u : Nat) (z : Zeroing) : (setUnit u z s).corrected = s.corrected := rfl
@[simp] theorem setUnit_correctedLimit (u : Nat) (z : Zeroing) : (setUnit u z s).correctedLimit = s.correctedLimit := rfl
@[simp] theorem setUnit_firstCorrected (u : Nat) (z : Zeroing) : (setUnit u z s).firstCorrected = s.firstCorrected := rfl
@[simp] theorem setUnit_hold (u : Nat) (z : Zeroing) : (setUnit u z s).hold = s.hold := rfl
@[simp] theorem setUnit_poisonList (u : Nat) (z : Zeroing) : (setUnit u z s).poisonList = s.poisonList := rfl
@[simp] theorem setUnit_domains (u : Nat) (z : Zeroing) : (setUnit u z s).domains = s.domains := rfl
@[simp] theorem setUnit_grants (u : Nat) (z : Zeroing) : (setUnit u z s).grants = s.grants := rfl
@[simp] theorem setUnit_grantSerial (u : Nat) (z : Zeroing) : (setUnit u z s).grantSerial = s.grantSerial := rfl
@[simp] theorem setUnit_requests (u : Nat) (z : Zeroing) : (setUnit u z s).requests = s.requests := rfl
@[simp] theorem setUnit_running (u : Nat) (z : Zeroing) : (setUnit u z s).running = s.running := rfl
@[simp] theorem setUnit_results (u : Nat) (z : Zeroing) : (setUnit u z s).results = s.results := rfl
@[simp] theorem setUnit_channels (u : Nat) (z : Zeroing) : (setUnit u z s).channels = s.channels := rfl
@[simp] theorem setUnit_warm (u : Nat) (z : Zeroing) : (setUnit u z s).warm = s.warm := rfl
@[simp] theorem setUnit_lastServed (u : Nat) (z : Zeroing) : (setUnit u z s).lastServed = s.lastServed := rfl
@[simp] theorem setUnit_slots (u : Nat) (z : Zeroing) : (setUnit u z s).slots = s.slots := rfl
@[simp] theorem setUnit_regions (u : Nat) (z : Zeroing) : (setUnit u z s).regions = s.regions := rfl
@[simp] theorem setUnit_freeze (u : Nat) (z : Zeroing) : (setUnit u z s).freeze = s.freeze := rfl
@[simp] theorem setUnit_log (u : Nat) (z : Zeroing) : (setUnit u z s).log = s.log := rfl
@[simp] theorem setUnit_notices (u : Nat) (z : Zeroing) : (setUnit u z s).notices = s.notices := rfl
@[simp] theorem setUnit_pending (u : Nat) (z : Zeroing) : (setUnit u z s).pending = s.pending := rfl

/-! ### `idleUnit` -/

@[simp] theorem idleUnit_base (u : Nat) : (idleUnit u s).base = s.base := rfl
@[simp] theorem idleUnit_requested (u : Nat) : (idleUnit u s).requested = s.requested := rfl
@[simp] theorem idleUnit_size (u : Nat) : (idleUnit u s).size = s.size := rfl
@[simp] theorem idleUnit_mode (u : Nat) : (idleUnit u s).mode = s.mode := rfl
@[simp] theorem idleUnit_cause (u : Nat) : (idleUnit u s).cause = s.cause := rfl
@[simp] theorem idleUnit_integrityMark (u : Nat) : (idleUnit u s).integrityMark = s.integrityMark := rfl
@[simp] theorem idleUnit_policy (u : Nat) : (idleUnit u s).policy = s.policy := rfl
@[simp] theorem idleUnit_faultLine (u : Nat) : (idleUnit u s).faultLine = s.faultLine := rfl
@[simp] theorem idleUnit_warnLine (u : Nat) : (idleUnit u s).warnLine = s.warnLine := rfl
@[simp] theorem idleUnit_flush (u : Nat) : (idleUnit u s).flush = s.flush := rfl
@[simp] theorem idleUnit_tagBase (u : Nat) : (idleUnit u s).tagBase = s.tagBase := rfl
@[simp] theorem idleUnit_progress (u : Nat) : (idleUnit u s).progress = s.progress := rfl
@[simp] theorem idleUnit_upLink (u : Nat) : (idleUnit u s).upLink = s.upLink := rfl
@[simp] theorem idleUnit_tagsInUse (u : Nat) : (idleUnit u s).tagsInUse = s.tagsInUse := rfl
@[simp] theorem idleUnit_completions (u : Nat) : (idleUnit u s).completions = s.completions := rfl
@[simp] theorem idleUnit_noticeSlot (u : Nat) : (idleUnit u s).noticeSlot = s.noticeSlot := rfl
@[simp] theorem idleUnit_txOffered (u : Nat) : (idleUnit u s).txOffered = s.txOffered := rfl
@[simp] theorem idleUnit_txLast (u : Nat) : (idleUnit u s).txLast = s.txLast := rfl
@[simp] theorem idleUnit_downLink (u : Nat) : (idleUnit u s).downLink = s.downLink := rfl
@[simp] theorem idleUnit_outstanding (u : Nat) : (idleUnit u s).outstanding = s.outstanding := rfl
@[simp] theorem idleUnit_heldTags (u : Nat) : (idleUnit u s).heldTags = s.heldTags := rfl
@[simp] theorem idleUnit_tagWaits (u : Nat) : (idleUnit u s).tagWaits = s.tagWaits := rfl
@[simp] theorem idleUnit_produced (u : Nat) : (idleUnit u s).produced = s.produced := rfl
@[simp] theorem idleUnit_offers (u : Nat) : (idleUnit u s).offers = s.offers := rfl
@[simp] theorem idleUnit_downOffered (u : Nat) : (idleUnit u s).downOffered = s.downOffered := rfl
@[simp] theorem idleUnit_lastClass (u : Nat) : (idleUnit u s).lastClass = s.lastClass := rfl
@[simp] theorem idleUnit_stage (u : Nat) : (idleUnit u s).stage = s.stage := rfl
@[simp] theorem idleUnit_inFlight (u : Nat) : (idleUnit u s).inFlight = s.inFlight := rfl
@[simp] theorem idleUnit_drains (u : Nat) : (idleUnit u s).drains = s.drains := rfl
@[simp] theorem idleUnit_ways (u : Nat) : (idleUnit u s).ways = s.ways := rfl
@[simp] theorem idleUnit_lru (u : Nat) : (idleUnit u s).lru = s.lru := rfl
@[simp] theorem idleUnit_fills (u : Nat) : (idleUnit u s).fills = s.fills := rfl
@[simp] theorem idleUnit_fillWaits (u : Nat) : (idleUnit u s).fillWaits = s.fillWaits := rfl
@[simp] theorem idleUnit_fillSerial (u : Nat) : (idleUnit u s).fillSerial = s.fillSerial := rfl
@[simp] theorem idleUnit_missQueue (u : Nat) : (idleUnit u s).missQueue = s.missQueue := rfl
@[simp] theorem idleUnit_poisonings (u : Nat) : (idleUnit u s).poisonings = s.poisonings := rfl
@[simp] theorem idleUnit_corrected (u : Nat) : (idleUnit u s).corrected = s.corrected := rfl
@[simp] theorem idleUnit_correctedLimit (u : Nat) : (idleUnit u s).correctedLimit = s.correctedLimit := rfl
@[simp] theorem idleUnit_firstCorrected (u : Nat) : (idleUnit u s).firstCorrected = s.firstCorrected := rfl
@[simp] theorem idleUnit_hold (u : Nat) : (idleUnit u s).hold = s.hold := rfl
@[simp] theorem idleUnit_poisonList (u : Nat) : (idleUnit u s).poisonList = s.poisonList := rfl
@[simp] theorem idleUnit_domains (u : Nat) : (idleUnit u s).domains = s.domains := rfl
@[simp] theorem idleUnit_grants (u : Nat) : (idleUnit u s).grants = s.grants := rfl
@[simp] theorem idleUnit_grantSerial (u : Nat) : (idleUnit u s).grantSerial = s.grantSerial := rfl
@[simp] theorem idleUnit_requests (u : Nat) : (idleUnit u s).requests = s.requests := rfl
@[simp] theorem idleUnit_running (u : Nat) : (idleUnit u s).running = s.running := rfl
@[simp] theorem idleUnit_results (u : Nat) : (idleUnit u s).results = s.results := rfl
@[simp] theorem idleUnit_channels (u : Nat) : (idleUnit u s).channels = s.channels := rfl
@[simp] theorem idleUnit_warm (u : Nat) : (idleUnit u s).warm = s.warm := rfl
@[simp] theorem idleUnit_lastServed (u : Nat) : (idleUnit u s).lastServed = s.lastServed := rfl
@[simp] theorem idleUnit_slots (u : Nat) : (idleUnit u s).slots = s.slots := rfl
@[simp] theorem idleUnit_regions (u : Nat) : (idleUnit u s).regions = s.regions := rfl
@[simp] theorem idleUnit_freeze (u : Nat) : (idleUnit u s).freeze = s.freeze := rfl
@[simp] theorem idleUnit_log (u : Nat) : (idleUnit u s).log = s.log := rfl
@[simp] theorem idleUnit_notices (u : Nat) : (idleUnit u s).notices = s.notices := rfl
@[simp] theorem idleUnit_pending (u : Nat) : (idleUnit u s).pending = s.pending := rfl

/-! ### `mapActive` -/

@[simp] theorem mapActive_base (c : Nat) (f : Active → Active) : (mapActive c f s).base = s.base := rfl
@[simp] theorem mapActive_requested (c : Nat) (f : Active → Active) : (mapActive c f s).requested = s.requested := rfl
@[simp] theorem mapActive_size (c : Nat) (f : Active → Active) : (mapActive c f s).size = s.size := rfl
@[simp] theorem mapActive_mode (c : Nat) (f : Active → Active) : (mapActive c f s).mode = s.mode := rfl
@[simp] theorem mapActive_cause (c : Nat) (f : Active → Active) : (mapActive c f s).cause = s.cause := rfl
@[simp] theorem mapActive_integrityMark (c : Nat) (f : Active → Active) : (mapActive c f s).integrityMark =
    s.integrityMark := rfl
@[simp] theorem mapActive_policy (c : Nat) (f : Active → Active) : (mapActive c f s).policy = s.policy := rfl
@[simp] theorem mapActive_faultLine (c : Nat) (f : Active → Active) : (mapActive c f s).faultLine = s.faultLine := rfl
@[simp] theorem mapActive_warnLine (c : Nat) (f : Active → Active) : (mapActive c f s).warnLine = s.warnLine := rfl
@[simp] theorem mapActive_flush (c : Nat) (f : Active → Active) : (mapActive c f s).flush = s.flush := rfl
@[simp] theorem mapActive_tagBase (c : Nat) (f : Active → Active) : (mapActive c f s).tagBase = s.tagBase := rfl
@[simp] theorem mapActive_progress (c : Nat) (f : Active → Active) : (mapActive c f s).progress = s.progress := rfl
@[simp] theorem mapActive_upLink (c : Nat) (f : Active → Active) : (mapActive c f s).upLink = s.upLink := rfl
@[simp] theorem mapActive_tagsInUse (c : Nat) (f : Active → Active) : (mapActive c f s).tagsInUse = s.tagsInUse := rfl
@[simp] theorem mapActive_completions (c : Nat) (f : Active → Active) : (mapActive c f s).completions = s.completions := rfl
@[simp] theorem mapActive_noticeSlot (c : Nat) (f : Active → Active) : (mapActive c f s).noticeSlot = s.noticeSlot := rfl
@[simp] theorem mapActive_txOffered (c : Nat) (f : Active → Active) : (mapActive c f s).txOffered = s.txOffered := rfl
@[simp] theorem mapActive_txLast (c : Nat) (f : Active → Active) : (mapActive c f s).txLast = s.txLast := rfl
@[simp] theorem mapActive_downLink (c : Nat) (f : Active → Active) : (mapActive c f s).downLink = s.downLink := rfl
@[simp] theorem mapActive_outstanding (c : Nat) (f : Active → Active) : (mapActive c f s).outstanding = s.outstanding := rfl
@[simp] theorem mapActive_heldTags (c : Nat) (f : Active → Active) : (mapActive c f s).heldTags = s.heldTags := rfl
@[simp] theorem mapActive_tagWaits (c : Nat) (f : Active → Active) : (mapActive c f s).tagWaits = s.tagWaits := rfl
@[simp] theorem mapActive_produced (c : Nat) (f : Active → Active) : (mapActive c f s).produced = s.produced := rfl
@[simp] theorem mapActive_offers (c : Nat) (f : Active → Active) : (mapActive c f s).offers = s.offers := rfl
@[simp] theorem mapActive_downOffered (c : Nat) (f : Active → Active) : (mapActive c f s).downOffered = s.downOffered := rfl
@[simp] theorem mapActive_lastClass (c : Nat) (f : Active → Active) : (mapActive c f s).lastClass = s.lastClass := rfl
@[simp] theorem mapActive_stage (c : Nat) (f : Active → Active) : (mapActive c f s).stage = s.stage := rfl
@[simp] theorem mapActive_inFlight (c : Nat) (f : Active → Active) : (mapActive c f s).inFlight = s.inFlight := rfl
@[simp] theorem mapActive_drains (c : Nat) (f : Active → Active) : (mapActive c f s).drains = s.drains := rfl
@[simp] theorem mapActive_ways (c : Nat) (f : Active → Active) : (mapActive c f s).ways = s.ways := rfl
@[simp] theorem mapActive_lru (c : Nat) (f : Active → Active) : (mapActive c f s).lru = s.lru := rfl
@[simp] theorem mapActive_fills (c : Nat) (f : Active → Active) : (mapActive c f s).fills = s.fills := rfl
@[simp] theorem mapActive_fillWaits (c : Nat) (f : Active → Active) : (mapActive c f s).fillWaits = s.fillWaits := rfl
@[simp] theorem mapActive_fillSerial (c : Nat) (f : Active → Active) : (mapActive c f s).fillSerial = s.fillSerial := rfl
@[simp] theorem mapActive_missQueue (c : Nat) (f : Active → Active) : (mapActive c f s).missQueue = s.missQueue := rfl
@[simp] theorem mapActive_poisonings (c : Nat) (f : Active → Active) : (mapActive c f s).poisonings = s.poisonings := rfl
@[simp] theorem mapActive_corrected (c : Nat) (f : Active → Active) : (mapActive c f s).corrected = s.corrected := rfl
@[simp] theorem mapActive_correctedLimit (c : Nat) (f : Active → Active) : (mapActive c f s).correctedLimit =
    s.correctedLimit := rfl
@[simp] theorem mapActive_firstCorrected (c : Nat) (f : Active → Active) : (mapActive c f s).firstCorrected =
    s.firstCorrected := rfl
@[simp] theorem mapActive_hold (c : Nat) (f : Active → Active) : (mapActive c f s).hold = s.hold := rfl
@[simp] theorem mapActive_poisonList (c : Nat) (f : Active → Active) : (mapActive c f s).poisonList = s.poisonList := rfl
@[simp] theorem mapActive_domains (c : Nat) (f : Active → Active) : (mapActive c f s).domains = s.domains := rfl
@[simp] theorem mapActive_grants (c : Nat) (f : Active → Active) : (mapActive c f s).grants = s.grants := rfl
@[simp] theorem mapActive_grantSerial (c : Nat) (f : Active → Active) : (mapActive c f s).grantSerial = s.grantSerial := rfl
@[simp] theorem mapActive_requests (c : Nat) (f : Active → Active) : (mapActive c f s).requests = s.requests := rfl
@[simp] theorem mapActive_running (c : Nat) (f : Active → Active) : (mapActive c f s).running = s.running := rfl
@[simp] theorem mapActive_results (c : Nat) (f : Active → Active) : (mapActive c f s).results = s.results := rfl
@[simp] theorem mapActive_warm (c : Nat) (f : Active → Active) : (mapActive c f s).warm = s.warm := rfl
@[simp] theorem mapActive_units (c : Nat) (f : Active → Active) : (mapActive c f s).units = s.units := rfl
@[simp] theorem mapActive_lastServed (c : Nat) (f : Active → Active) : (mapActive c f s).lastServed = s.lastServed := rfl
@[simp] theorem mapActive_slots (c : Nat) (f : Active → Active) : (mapActive c f s).slots = s.slots := rfl
@[simp] theorem mapActive_regions (c : Nat) (f : Active → Active) : (mapActive c f s).regions = s.regions := rfl
@[simp] theorem mapActive_freeze (c : Nat) (f : Active → Active) : (mapActive c f s).freeze = s.freeze := rfl
@[simp] theorem mapActive_log (c : Nat) (f : Active → Active) : (mapActive c f s).log = s.log := rfl
@[simp] theorem mapActive_notices (c : Nat) (f : Active → Active) : (mapActive c f s).notices = s.notices := rfl
@[simp] theorem mapActive_pending (c : Nat) (f : Active → Active) : (mapActive c f s).pending = s.pending := rfl

/-! ### `goPhase` -/

@[simp] theorem goPhase_base (c : Nat) (p : Phase) (w : Wait) : (goPhase c p w s).base = s.base := rfl
@[simp] theorem goPhase_requested (c : Nat) (p : Phase) (w : Wait) : (goPhase c p w s).requested = s.requested := rfl
@[simp] theorem goPhase_size (c : Nat) (p : Phase) (w : Wait) : (goPhase c p w s).size = s.size := rfl
@[simp] theorem goPhase_mode (c : Nat) (p : Phase) (w : Wait) : (goPhase c p w s).mode = s.mode := rfl
@[simp] theorem goPhase_cause (c : Nat) (p : Phase) (w : Wait) : (goPhase c p w s).cause = s.cause := rfl
@[simp] theorem goPhase_integrityMark (c : Nat) (p : Phase) (w : Wait) : (goPhase c p w s).integrityMark =
    s.integrityMark := rfl
@[simp] theorem goPhase_policy (c : Nat) (p : Phase) (w : Wait) : (goPhase c p w s).policy = s.policy := rfl
@[simp] theorem goPhase_faultLine (c : Nat) (p : Phase) (w : Wait) : (goPhase c p w s).faultLine = s.faultLine := rfl
@[simp] theorem goPhase_warnLine (c : Nat) (p : Phase) (w : Wait) : (goPhase c p w s).warnLine = s.warnLine := rfl
@[simp] theorem goPhase_flush (c : Nat) (p : Phase) (w : Wait) : (goPhase c p w s).flush = s.flush := rfl
@[simp] theorem goPhase_tagBase (c : Nat) (p : Phase) (w : Wait) : (goPhase c p w s).tagBase = s.tagBase := rfl
@[simp] theorem goPhase_progress (c : Nat) (p : Phase) (w : Wait) : (goPhase c p w s).progress = s.progress := rfl
@[simp] theorem goPhase_upLink (c : Nat) (p : Phase) (w : Wait) : (goPhase c p w s).upLink = s.upLink := rfl
@[simp] theorem goPhase_tagsInUse (c : Nat) (p : Phase) (w : Wait) : (goPhase c p w s).tagsInUse = s.tagsInUse := rfl
@[simp] theorem goPhase_completions (c : Nat) (p : Phase) (w : Wait) : (goPhase c p w s).completions = s.completions := rfl
@[simp] theorem goPhase_noticeSlot (c : Nat) (p : Phase) (w : Wait) : (goPhase c p w s).noticeSlot = s.noticeSlot := rfl
@[simp] theorem goPhase_txOffered (c : Nat) (p : Phase) (w : Wait) : (goPhase c p w s).txOffered = s.txOffered := rfl
@[simp] theorem goPhase_txLast (c : Nat) (p : Phase) (w : Wait) : (goPhase c p w s).txLast = s.txLast := rfl
@[simp] theorem goPhase_downLink (c : Nat) (p : Phase) (w : Wait) : (goPhase c p w s).downLink = s.downLink := rfl
@[simp] theorem goPhase_outstanding (c : Nat) (p : Phase) (w : Wait) : (goPhase c p w s).outstanding = s.outstanding := rfl
@[simp] theorem goPhase_heldTags (c : Nat) (p : Phase) (w : Wait) : (goPhase c p w s).heldTags = s.heldTags := rfl
@[simp] theorem goPhase_tagWaits (c : Nat) (p : Phase) (w : Wait) : (goPhase c p w s).tagWaits = s.tagWaits := rfl
@[simp] theorem goPhase_produced (c : Nat) (p : Phase) (w : Wait) : (goPhase c p w s).produced = s.produced := rfl
@[simp] theorem goPhase_offers (c : Nat) (p : Phase) (w : Wait) : (goPhase c p w s).offers = s.offers := rfl
@[simp] theorem goPhase_downOffered (c : Nat) (p : Phase) (w : Wait) : (goPhase c p w s).downOffered = s.downOffered := rfl
@[simp] theorem goPhase_lastClass (c : Nat) (p : Phase) (w : Wait) : (goPhase c p w s).lastClass = s.lastClass := rfl
@[simp] theorem goPhase_stage (c : Nat) (p : Phase) (w : Wait) : (goPhase c p w s).stage = s.stage := rfl
@[simp] theorem goPhase_inFlight (c : Nat) (p : Phase) (w : Wait) : (goPhase c p w s).inFlight = s.inFlight := rfl
@[simp] theorem goPhase_drains (c : Nat) (p : Phase) (w : Wait) : (goPhase c p w s).drains = s.drains := rfl
@[simp] theorem goPhase_ways (c : Nat) (p : Phase) (w : Wait) : (goPhase c p w s).ways = s.ways := rfl
@[simp] theorem goPhase_lru (c : Nat) (p : Phase) (w : Wait) : (goPhase c p w s).lru = s.lru := rfl
@[simp] theorem goPhase_fills (c : Nat) (p : Phase) (w : Wait) : (goPhase c p w s).fills = s.fills := rfl
@[simp] theorem goPhase_fillWaits (c : Nat) (p : Phase) (w : Wait) : (goPhase c p w s).fillWaits = s.fillWaits := rfl
@[simp] theorem goPhase_fillSerial (c : Nat) (p : Phase) (w : Wait) : (goPhase c p w s).fillSerial = s.fillSerial := rfl
@[simp] theorem goPhase_missQueue (c : Nat) (p : Phase) (w : Wait) : (goPhase c p w s).missQueue = s.missQueue := rfl
@[simp] theorem goPhase_poisonings (c : Nat) (p : Phase) (w : Wait) : (goPhase c p w s).poisonings = s.poisonings := rfl
@[simp] theorem goPhase_corrected (c : Nat) (p : Phase) (w : Wait) : (goPhase c p w s).corrected = s.corrected := rfl
@[simp] theorem goPhase_correctedLimit (c : Nat) (p : Phase) (w : Wait) : (goPhase c p w s).correctedLimit =
    s.correctedLimit := rfl
@[simp] theorem goPhase_firstCorrected (c : Nat) (p : Phase) (w : Wait) : (goPhase c p w s).firstCorrected =
    s.firstCorrected := rfl
@[simp] theorem goPhase_hold (c : Nat) (p : Phase) (w : Wait) : (goPhase c p w s).hold = s.hold := rfl
@[simp] theorem goPhase_poisonList (c : Nat) (p : Phase) (w : Wait) : (goPhase c p w s).poisonList = s.poisonList := rfl
@[simp] theorem goPhase_domains (c : Nat) (p : Phase) (w : Wait) : (goPhase c p w s).domains = s.domains := rfl
@[simp] theorem goPhase_grants (c : Nat) (p : Phase) (w : Wait) : (goPhase c p w s).grants = s.grants := rfl
@[simp] theorem goPhase_grantSerial (c : Nat) (p : Phase) (w : Wait) : (goPhase c p w s).grantSerial = s.grantSerial := rfl
@[simp] theorem goPhase_requests (c : Nat) (p : Phase) (w : Wait) : (goPhase c p w s).requests = s.requests := rfl
@[simp] theorem goPhase_running (c : Nat) (p : Phase) (w : Wait) : (goPhase c p w s).running = s.running := rfl
@[simp] theorem goPhase_results (c : Nat) (p : Phase) (w : Wait) : (goPhase c p w s).results = s.results := rfl
@[simp] theorem goPhase_warm (c : Nat) (p : Phase) (w : Wait) : (goPhase c p w s).warm = s.warm := rfl
@[simp] theorem goPhase_units (c : Nat) (p : Phase) (w : Wait) : (goPhase c p w s).units = s.units := rfl
@[simp] theorem goPhase_lastServed (c : Nat) (p : Phase) (w : Wait) : (goPhase c p w s).lastServed = s.lastServed := rfl
@[simp] theorem goPhase_slots (c : Nat) (p : Phase) (w : Wait) : (goPhase c p w s).slots = s.slots := rfl
@[simp] theorem goPhase_regions (c : Nat) (p : Phase) (w : Wait) : (goPhase c p w s).regions = s.regions := rfl
@[simp] theorem goPhase_freeze (c : Nat) (p : Phase) (w : Wait) : (goPhase c p w s).freeze = s.freeze := rfl
@[simp] theorem goPhase_log (c : Nat) (p : Phase) (w : Wait) : (goPhase c p w s).log = s.log := rfl
@[simp] theorem goPhase_notices (c : Nat) (p : Phase) (w : Wait) : (goPhase c p w s).notices = s.notices := rfl
@[simp] theorem goPhase_pending (c : Nat) (p : Phase) (w : Wait) : (goPhase c p w s).pending = s.pending := rfl

/-! ### `goWait` -/

@[simp] theorem goWait_base (c : Nat) (w : Wait) : (goWait c w s).base = s.base := rfl
@[simp] theorem goWait_requested (c : Nat) (w : Wait) : (goWait c w s).requested = s.requested := rfl
@[simp] theorem goWait_size (c : Nat) (w : Wait) : (goWait c w s).size = s.size := rfl
@[simp] theorem goWait_mode (c : Nat) (w : Wait) : (goWait c w s).mode = s.mode := rfl
@[simp] theorem goWait_cause (c : Nat) (w : Wait) : (goWait c w s).cause = s.cause := rfl
@[simp] theorem goWait_integrityMark (c : Nat) (w : Wait) : (goWait c w s).integrityMark = s.integrityMark := rfl
@[simp] theorem goWait_policy (c : Nat) (w : Wait) : (goWait c w s).policy = s.policy := rfl
@[simp] theorem goWait_faultLine (c : Nat) (w : Wait) : (goWait c w s).faultLine = s.faultLine := rfl
@[simp] theorem goWait_warnLine (c : Nat) (w : Wait) : (goWait c w s).warnLine = s.warnLine := rfl
@[simp] theorem goWait_flush (c : Nat) (w : Wait) : (goWait c w s).flush = s.flush := rfl
@[simp] theorem goWait_tagBase (c : Nat) (w : Wait) : (goWait c w s).tagBase = s.tagBase := rfl
@[simp] theorem goWait_progress (c : Nat) (w : Wait) : (goWait c w s).progress = s.progress := rfl
@[simp] theorem goWait_upLink (c : Nat) (w : Wait) : (goWait c w s).upLink = s.upLink := rfl
@[simp] theorem goWait_tagsInUse (c : Nat) (w : Wait) : (goWait c w s).tagsInUse = s.tagsInUse := rfl
@[simp] theorem goWait_completions (c : Nat) (w : Wait) : (goWait c w s).completions = s.completions := rfl
@[simp] theorem goWait_noticeSlot (c : Nat) (w : Wait) : (goWait c w s).noticeSlot = s.noticeSlot := rfl
@[simp] theorem goWait_txOffered (c : Nat) (w : Wait) : (goWait c w s).txOffered = s.txOffered := rfl
@[simp] theorem goWait_txLast (c : Nat) (w : Wait) : (goWait c w s).txLast = s.txLast := rfl
@[simp] theorem goWait_downLink (c : Nat) (w : Wait) : (goWait c w s).downLink = s.downLink := rfl
@[simp] theorem goWait_outstanding (c : Nat) (w : Wait) : (goWait c w s).outstanding = s.outstanding := rfl
@[simp] theorem goWait_heldTags (c : Nat) (w : Wait) : (goWait c w s).heldTags = s.heldTags := rfl
@[simp] theorem goWait_tagWaits (c : Nat) (w : Wait) : (goWait c w s).tagWaits = s.tagWaits := rfl
@[simp] theorem goWait_produced (c : Nat) (w : Wait) : (goWait c w s).produced = s.produced := rfl
@[simp] theorem goWait_offers (c : Nat) (w : Wait) : (goWait c w s).offers = s.offers := rfl
@[simp] theorem goWait_downOffered (c : Nat) (w : Wait) : (goWait c w s).downOffered = s.downOffered := rfl
@[simp] theorem goWait_lastClass (c : Nat) (w : Wait) : (goWait c w s).lastClass = s.lastClass := rfl
@[simp] theorem goWait_stage (c : Nat) (w : Wait) : (goWait c w s).stage = s.stage := rfl
@[simp] theorem goWait_inFlight (c : Nat) (w : Wait) : (goWait c w s).inFlight = s.inFlight := rfl
@[simp] theorem goWait_drains (c : Nat) (w : Wait) : (goWait c w s).drains = s.drains := rfl
@[simp] theorem goWait_ways (c : Nat) (w : Wait) : (goWait c w s).ways = s.ways := rfl
@[simp] theorem goWait_lru (c : Nat) (w : Wait) : (goWait c w s).lru = s.lru := rfl
@[simp] theorem goWait_fills (c : Nat) (w : Wait) : (goWait c w s).fills = s.fills := rfl
@[simp] theorem goWait_fillWaits (c : Nat) (w : Wait) : (goWait c w s).fillWaits = s.fillWaits := rfl
@[simp] theorem goWait_fillSerial (c : Nat) (w : Wait) : (goWait c w s).fillSerial = s.fillSerial := rfl
@[simp] theorem goWait_missQueue (c : Nat) (w : Wait) : (goWait c w s).missQueue = s.missQueue := rfl
@[simp] theorem goWait_poisonings (c : Nat) (w : Wait) : (goWait c w s).poisonings = s.poisonings := rfl
@[simp] theorem goWait_corrected (c : Nat) (w : Wait) : (goWait c w s).corrected = s.corrected := rfl
@[simp] theorem goWait_correctedLimit (c : Nat) (w : Wait) : (goWait c w s).correctedLimit = s.correctedLimit := rfl
@[simp] theorem goWait_firstCorrected (c : Nat) (w : Wait) : (goWait c w s).firstCorrected = s.firstCorrected := rfl
@[simp] theorem goWait_hold (c : Nat) (w : Wait) : (goWait c w s).hold = s.hold := rfl
@[simp] theorem goWait_poisonList (c : Nat) (w : Wait) : (goWait c w s).poisonList = s.poisonList := rfl
@[simp] theorem goWait_domains (c : Nat) (w : Wait) : (goWait c w s).domains = s.domains := rfl
@[simp] theorem goWait_grants (c : Nat) (w : Wait) : (goWait c w s).grants = s.grants := rfl
@[simp] theorem goWait_grantSerial (c : Nat) (w : Wait) : (goWait c w s).grantSerial = s.grantSerial := rfl
@[simp] theorem goWait_requests (c : Nat) (w : Wait) : (goWait c w s).requests = s.requests := rfl
@[simp] theorem goWait_running (c : Nat) (w : Wait) : (goWait c w s).running = s.running := rfl
@[simp] theorem goWait_results (c : Nat) (w : Wait) : (goWait c w s).results = s.results := rfl
@[simp] theorem goWait_warm (c : Nat) (w : Wait) : (goWait c w s).warm = s.warm := rfl
@[simp] theorem goWait_units (c : Nat) (w : Wait) : (goWait c w s).units = s.units := rfl
@[simp] theorem goWait_lastServed (c : Nat) (w : Wait) : (goWait c w s).lastServed = s.lastServed := rfl
@[simp] theorem goWait_slots (c : Nat) (w : Wait) : (goWait c w s).slots = s.slots := rfl
@[simp] theorem goWait_regions (c : Nat) (w : Wait) : (goWait c w s).regions = s.regions := rfl
@[simp] theorem goWait_freeze (c : Nat) (w : Wait) : (goWait c w s).freeze = s.freeze := rfl
@[simp] theorem goWait_log (c : Nat) (w : Wait) : (goWait c w s).log = s.log := rfl
@[simp] theorem goWait_notices (c : Nat) (w : Wait) : (goWait c w s).notices = s.notices := rfl
@[simp] theorem goWait_pending (c : Nat) (w : Wait) : (goWait c w s).pending = s.pending := rfl

/-! ### `goWork` -/

@[simp] theorem goWork_base (c : Nat) (w : Work) : (goWork c w s).base = s.base := rfl
@[simp] theorem goWork_requested (c : Nat) (w : Work) : (goWork c w s).requested = s.requested := rfl
@[simp] theorem goWork_size (c : Nat) (w : Work) : (goWork c w s).size = s.size := rfl
@[simp] theorem goWork_mode (c : Nat) (w : Work) : (goWork c w s).mode = s.mode := rfl
@[simp] theorem goWork_cause (c : Nat) (w : Work) : (goWork c w s).cause = s.cause := rfl
@[simp] theorem goWork_integrityMark (c : Nat) (w : Work) : (goWork c w s).integrityMark = s.integrityMark := rfl
@[simp] theorem goWork_policy (c : Nat) (w : Work) : (goWork c w s).policy = s.policy := rfl
@[simp] theorem goWork_faultLine (c : Nat) (w : Work) : (goWork c w s).faultLine = s.faultLine := rfl
@[simp] theorem goWork_warnLine (c : Nat) (w : Work) : (goWork c w s).warnLine = s.warnLine := rfl
@[simp] theorem goWork_flush (c : Nat) (w : Work) : (goWork c w s).flush = s.flush := rfl
@[simp] theorem goWork_tagBase (c : Nat) (w : Work) : (goWork c w s).tagBase = s.tagBase := rfl
@[simp] theorem goWork_progress (c : Nat) (w : Work) : (goWork c w s).progress = s.progress := rfl
@[simp] theorem goWork_upLink (c : Nat) (w : Work) : (goWork c w s).upLink = s.upLink := rfl
@[simp] theorem goWork_tagsInUse (c : Nat) (w : Work) : (goWork c w s).tagsInUse = s.tagsInUse := rfl
@[simp] theorem goWork_completions (c : Nat) (w : Work) : (goWork c w s).completions = s.completions := rfl
@[simp] theorem goWork_noticeSlot (c : Nat) (w : Work) : (goWork c w s).noticeSlot = s.noticeSlot := rfl
@[simp] theorem goWork_txOffered (c : Nat) (w : Work) : (goWork c w s).txOffered = s.txOffered := rfl
@[simp] theorem goWork_txLast (c : Nat) (w : Work) : (goWork c w s).txLast = s.txLast := rfl
@[simp] theorem goWork_downLink (c : Nat) (w : Work) : (goWork c w s).downLink = s.downLink := rfl
@[simp] theorem goWork_outstanding (c : Nat) (w : Work) : (goWork c w s).outstanding = s.outstanding := rfl
@[simp] theorem goWork_heldTags (c : Nat) (w : Work) : (goWork c w s).heldTags = s.heldTags := rfl
@[simp] theorem goWork_tagWaits (c : Nat) (w : Work) : (goWork c w s).tagWaits = s.tagWaits := rfl
@[simp] theorem goWork_produced (c : Nat) (w : Work) : (goWork c w s).produced = s.produced := rfl
@[simp] theorem goWork_offers (c : Nat) (w : Work) : (goWork c w s).offers = s.offers := rfl
@[simp] theorem goWork_downOffered (c : Nat) (w : Work) : (goWork c w s).downOffered = s.downOffered := rfl
@[simp] theorem goWork_lastClass (c : Nat) (w : Work) : (goWork c w s).lastClass = s.lastClass := rfl
@[simp] theorem goWork_stage (c : Nat) (w : Work) : (goWork c w s).stage = s.stage := rfl
@[simp] theorem goWork_inFlight (c : Nat) (w : Work) : (goWork c w s).inFlight = s.inFlight := rfl
@[simp] theorem goWork_drains (c : Nat) (w : Work) : (goWork c w s).drains = s.drains := rfl
@[simp] theorem goWork_ways (c : Nat) (w : Work) : (goWork c w s).ways = s.ways := rfl
@[simp] theorem goWork_lru (c : Nat) (w : Work) : (goWork c w s).lru = s.lru := rfl
@[simp] theorem goWork_fills (c : Nat) (w : Work) : (goWork c w s).fills = s.fills := rfl
@[simp] theorem goWork_fillWaits (c : Nat) (w : Work) : (goWork c w s).fillWaits = s.fillWaits := rfl
@[simp] theorem goWork_fillSerial (c : Nat) (w : Work) : (goWork c w s).fillSerial = s.fillSerial := rfl
@[simp] theorem goWork_missQueue (c : Nat) (w : Work) : (goWork c w s).missQueue = s.missQueue := rfl
@[simp] theorem goWork_poisonings (c : Nat) (w : Work) : (goWork c w s).poisonings = s.poisonings := rfl
@[simp] theorem goWork_corrected (c : Nat) (w : Work) : (goWork c w s).corrected = s.corrected := rfl
@[simp] theorem goWork_correctedLimit (c : Nat) (w : Work) : (goWork c w s).correctedLimit = s.correctedLimit := rfl
@[simp] theorem goWork_firstCorrected (c : Nat) (w : Work) : (goWork c w s).firstCorrected = s.firstCorrected := rfl
@[simp] theorem goWork_hold (c : Nat) (w : Work) : (goWork c w s).hold = s.hold := rfl
@[simp] theorem goWork_poisonList (c : Nat) (w : Work) : (goWork c w s).poisonList = s.poisonList := rfl
@[simp] theorem goWork_domains (c : Nat) (w : Work) : (goWork c w s).domains = s.domains := rfl
@[simp] theorem goWork_grants (c : Nat) (w : Work) : (goWork c w s).grants = s.grants := rfl
@[simp] theorem goWork_grantSerial (c : Nat) (w : Work) : (goWork c w s).grantSerial = s.grantSerial := rfl
@[simp] theorem goWork_requests (c : Nat) (w : Work) : (goWork c w s).requests = s.requests := rfl
@[simp] theorem goWork_running (c : Nat) (w : Work) : (goWork c w s).running = s.running := rfl
@[simp] theorem goWork_results (c : Nat) (w : Work) : (goWork c w s).results = s.results := rfl
@[simp] theorem goWork_warm (c : Nat) (w : Work) : (goWork c w s).warm = s.warm := rfl
@[simp] theorem goWork_units (c : Nat) (w : Work) : (goWork c w s).units = s.units := rfl
@[simp] theorem goWork_lastServed (c : Nat) (w : Work) : (goWork c w s).lastServed = s.lastServed := rfl
@[simp] theorem goWork_slots (c : Nat) (w : Work) : (goWork c w s).slots = s.slots := rfl
@[simp] theorem goWork_regions (c : Nat) (w : Work) : (goWork c w s).regions = s.regions := rfl
@[simp] theorem goWork_freeze (c : Nat) (w : Work) : (goWork c w s).freeze = s.freeze := rfl
@[simp] theorem goWork_log (c : Nat) (w : Work) : (goWork c w s).log = s.log := rfl
@[simp] theorem goWork_notices (c : Nat) (w : Work) : (goWork c w s).notices = s.notices := rfl
@[simp] theorem goWork_pending (c : Nat) (w : Work) : (goWork c w s).pending = s.pending := rfl

/-! ### `goEnding` -/

@[simp] theorem goEnding_base (c : Nat) (r : Result) : (goEnding c r s).base = s.base := rfl
@[simp] theorem goEnding_requested (c : Nat) (r : Result) : (goEnding c r s).requested = s.requested := rfl
@[simp] theorem goEnding_size (c : Nat) (r : Result) : (goEnding c r s).size = s.size := rfl
@[simp] theorem goEnding_mode (c : Nat) (r : Result) : (goEnding c r s).mode = s.mode := rfl
@[simp] theorem goEnding_cause (c : Nat) (r : Result) : (goEnding c r s).cause = s.cause := rfl
@[simp] theorem goEnding_integrityMark (c : Nat) (r : Result) : (goEnding c r s).integrityMark = s.integrityMark := rfl
@[simp] theorem goEnding_policy (c : Nat) (r : Result) : (goEnding c r s).policy = s.policy := rfl
@[simp] theorem goEnding_faultLine (c : Nat) (r : Result) : (goEnding c r s).faultLine = s.faultLine := rfl
@[simp] theorem goEnding_warnLine (c : Nat) (r : Result) : (goEnding c r s).warnLine = s.warnLine := rfl
@[simp] theorem goEnding_flush (c : Nat) (r : Result) : (goEnding c r s).flush = s.flush := rfl
@[simp] theorem goEnding_tagBase (c : Nat) (r : Result) : (goEnding c r s).tagBase = s.tagBase := rfl
@[simp] theorem goEnding_progress (c : Nat) (r : Result) : (goEnding c r s).progress = s.progress := rfl
@[simp] theorem goEnding_upLink (c : Nat) (r : Result) : (goEnding c r s).upLink = s.upLink := rfl
@[simp] theorem goEnding_tagsInUse (c : Nat) (r : Result) : (goEnding c r s).tagsInUse = s.tagsInUse := rfl
@[simp] theorem goEnding_completions (c : Nat) (r : Result) : (goEnding c r s).completions = s.completions := rfl
@[simp] theorem goEnding_noticeSlot (c : Nat) (r : Result) : (goEnding c r s).noticeSlot = s.noticeSlot := rfl
@[simp] theorem goEnding_txOffered (c : Nat) (r : Result) : (goEnding c r s).txOffered = s.txOffered := rfl
@[simp] theorem goEnding_txLast (c : Nat) (r : Result) : (goEnding c r s).txLast = s.txLast := rfl
@[simp] theorem goEnding_downLink (c : Nat) (r : Result) : (goEnding c r s).downLink = s.downLink := rfl
@[simp] theorem goEnding_outstanding (c : Nat) (r : Result) : (goEnding c r s).outstanding = s.outstanding := rfl
@[simp] theorem goEnding_heldTags (c : Nat) (r : Result) : (goEnding c r s).heldTags = s.heldTags := rfl
@[simp] theorem goEnding_tagWaits (c : Nat) (r : Result) : (goEnding c r s).tagWaits = s.tagWaits := rfl
@[simp] theorem goEnding_produced (c : Nat) (r : Result) : (goEnding c r s).produced = s.produced := rfl
@[simp] theorem goEnding_offers (c : Nat) (r : Result) : (goEnding c r s).offers = s.offers := rfl
@[simp] theorem goEnding_downOffered (c : Nat) (r : Result) : (goEnding c r s).downOffered = s.downOffered := rfl
@[simp] theorem goEnding_lastClass (c : Nat) (r : Result) : (goEnding c r s).lastClass = s.lastClass := rfl
@[simp] theorem goEnding_stage (c : Nat) (r : Result) : (goEnding c r s).stage = s.stage := rfl
@[simp] theorem goEnding_inFlight (c : Nat) (r : Result) : (goEnding c r s).inFlight = s.inFlight := rfl
@[simp] theorem goEnding_drains (c : Nat) (r : Result) : (goEnding c r s).drains = s.drains := rfl
@[simp] theorem goEnding_ways (c : Nat) (r : Result) : (goEnding c r s).ways = s.ways := rfl
@[simp] theorem goEnding_lru (c : Nat) (r : Result) : (goEnding c r s).lru = s.lru := rfl
@[simp] theorem goEnding_fills (c : Nat) (r : Result) : (goEnding c r s).fills = s.fills := rfl
@[simp] theorem goEnding_fillWaits (c : Nat) (r : Result) : (goEnding c r s).fillWaits = s.fillWaits := rfl
@[simp] theorem goEnding_fillSerial (c : Nat) (r : Result) : (goEnding c r s).fillSerial = s.fillSerial := rfl
@[simp] theorem goEnding_missQueue (c : Nat) (r : Result) : (goEnding c r s).missQueue = s.missQueue := rfl
@[simp] theorem goEnding_poisonings (c : Nat) (r : Result) : (goEnding c r s).poisonings = s.poisonings := rfl
@[simp] theorem goEnding_corrected (c : Nat) (r : Result) : (goEnding c r s).corrected = s.corrected := rfl
@[simp] theorem goEnding_correctedLimit (c : Nat) (r : Result) : (goEnding c r s).correctedLimit = s.correctedLimit := rfl
@[simp] theorem goEnding_firstCorrected (c : Nat) (r : Result) : (goEnding c r s).firstCorrected = s.firstCorrected := rfl
@[simp] theorem goEnding_hold (c : Nat) (r : Result) : (goEnding c r s).hold = s.hold := rfl
@[simp] theorem goEnding_poisonList (c : Nat) (r : Result) : (goEnding c r s).poisonList = s.poisonList := rfl
@[simp] theorem goEnding_domains (c : Nat) (r : Result) : (goEnding c r s).domains = s.domains := rfl
@[simp] theorem goEnding_grants (c : Nat) (r : Result) : (goEnding c r s).grants = s.grants := rfl
@[simp] theorem goEnding_grantSerial (c : Nat) (r : Result) : (goEnding c r s).grantSerial = s.grantSerial := rfl
@[simp] theorem goEnding_requests (c : Nat) (r : Result) : (goEnding c r s).requests = s.requests := rfl
@[simp] theorem goEnding_running (c : Nat) (r : Result) : (goEnding c r s).running = s.running := rfl
@[simp] theorem goEnding_results (c : Nat) (r : Result) : (goEnding c r s).results = s.results := rfl
@[simp] theorem goEnding_warm (c : Nat) (r : Result) : (goEnding c r s).warm = s.warm := rfl
@[simp] theorem goEnding_units (c : Nat) (r : Result) : (goEnding c r s).units = s.units := rfl
@[simp] theorem goEnding_lastServed (c : Nat) (r : Result) : (goEnding c r s).lastServed = s.lastServed := rfl
@[simp] theorem goEnding_slots (c : Nat) (r : Result) : (goEnding c r s).slots = s.slots := rfl
@[simp] theorem goEnding_regions (c : Nat) (r : Result) : (goEnding c r s).regions = s.regions := rfl
@[simp] theorem goEnding_freeze (c : Nat) (r : Result) : (goEnding c r s).freeze = s.freeze := rfl
@[simp] theorem goEnding_log (c : Nat) (r : Result) : (goEnding c r s).log = s.log := rfl
@[simp] theorem goEnding_notices (c : Nat) (r : Result) : (goEnding c r s).notices = s.notices := rfl
@[simp] theorem goEnding_pending (c : Nat) (r : Result) : (goEnding c r s).pending = s.pending := rfl

/-! ### `setClaim` -/

@[simp] theorem setClaim_base (c : Nat) (g : Option Nat) : (setClaim c g s).base = s.base := rfl
@[simp] theorem setClaim_requested (c : Nat) (g : Option Nat) : (setClaim c g s).requested = s.requested := rfl
@[simp] theorem setClaim_size (c : Nat) (g : Option Nat) : (setClaim c g s).size = s.size := rfl
@[simp] theorem setClaim_mode (c : Nat) (g : Option Nat) : (setClaim c g s).mode = s.mode := rfl
@[simp] theorem setClaim_cause (c : Nat) (g : Option Nat) : (setClaim c g s).cause = s.cause := rfl
@[simp] theorem setClaim_integrityMark (c : Nat) (g : Option Nat) : (setClaim c g s).integrityMark = s.integrityMark := rfl
@[simp] theorem setClaim_policy (c : Nat) (g : Option Nat) : (setClaim c g s).policy = s.policy := rfl
@[simp] theorem setClaim_faultLine (c : Nat) (g : Option Nat) : (setClaim c g s).faultLine = s.faultLine := rfl
@[simp] theorem setClaim_warnLine (c : Nat) (g : Option Nat) : (setClaim c g s).warnLine = s.warnLine := rfl
@[simp] theorem setClaim_flush (c : Nat) (g : Option Nat) : (setClaim c g s).flush = s.flush := rfl
@[simp] theorem setClaim_tagBase (c : Nat) (g : Option Nat) : (setClaim c g s).tagBase = s.tagBase := rfl
@[simp] theorem setClaim_progress (c : Nat) (g : Option Nat) : (setClaim c g s).progress = s.progress := rfl
@[simp] theorem setClaim_upLink (c : Nat) (g : Option Nat) : (setClaim c g s).upLink = s.upLink := rfl
@[simp] theorem setClaim_tagsInUse (c : Nat) (g : Option Nat) : (setClaim c g s).tagsInUse = s.tagsInUse := rfl
@[simp] theorem setClaim_completions (c : Nat) (g : Option Nat) : (setClaim c g s).completions = s.completions := rfl
@[simp] theorem setClaim_noticeSlot (c : Nat) (g : Option Nat) : (setClaim c g s).noticeSlot = s.noticeSlot := rfl
@[simp] theorem setClaim_txOffered (c : Nat) (g : Option Nat) : (setClaim c g s).txOffered = s.txOffered := rfl
@[simp] theorem setClaim_txLast (c : Nat) (g : Option Nat) : (setClaim c g s).txLast = s.txLast := rfl
@[simp] theorem setClaim_downLink (c : Nat) (g : Option Nat) : (setClaim c g s).downLink = s.downLink := rfl
@[simp] theorem setClaim_outstanding (c : Nat) (g : Option Nat) : (setClaim c g s).outstanding = s.outstanding := rfl
@[simp] theorem setClaim_heldTags (c : Nat) (g : Option Nat) : (setClaim c g s).heldTags = s.heldTags := rfl
@[simp] theorem setClaim_tagWaits (c : Nat) (g : Option Nat) : (setClaim c g s).tagWaits = s.tagWaits := rfl
@[simp] theorem setClaim_produced (c : Nat) (g : Option Nat) : (setClaim c g s).produced = s.produced := rfl
@[simp] theorem setClaim_offers (c : Nat) (g : Option Nat) : (setClaim c g s).offers = s.offers := rfl
@[simp] theorem setClaim_downOffered (c : Nat) (g : Option Nat) : (setClaim c g s).downOffered = s.downOffered := rfl
@[simp] theorem setClaim_lastClass (c : Nat) (g : Option Nat) : (setClaim c g s).lastClass = s.lastClass := rfl
@[simp] theorem setClaim_stage (c : Nat) (g : Option Nat) : (setClaim c g s).stage = s.stage := rfl
@[simp] theorem setClaim_inFlight (c : Nat) (g : Option Nat) : (setClaim c g s).inFlight = s.inFlight := rfl
@[simp] theorem setClaim_drains (c : Nat) (g : Option Nat) : (setClaim c g s).drains = s.drains := rfl
@[simp] theorem setClaim_ways (c : Nat) (g : Option Nat) : (setClaim c g s).ways = s.ways := rfl
@[simp] theorem setClaim_lru (c : Nat) (g : Option Nat) : (setClaim c g s).lru = s.lru := rfl
@[simp] theorem setClaim_fills (c : Nat) (g : Option Nat) : (setClaim c g s).fills = s.fills := rfl
@[simp] theorem setClaim_fillWaits (c : Nat) (g : Option Nat) : (setClaim c g s).fillWaits = s.fillWaits := rfl
@[simp] theorem setClaim_fillSerial (c : Nat) (g : Option Nat) : (setClaim c g s).fillSerial = s.fillSerial := rfl
@[simp] theorem setClaim_missQueue (c : Nat) (g : Option Nat) : (setClaim c g s).missQueue = s.missQueue := rfl
@[simp] theorem setClaim_poisonings (c : Nat) (g : Option Nat) : (setClaim c g s).poisonings = s.poisonings := rfl
@[simp] theorem setClaim_corrected (c : Nat) (g : Option Nat) : (setClaim c g s).corrected = s.corrected := rfl
@[simp] theorem setClaim_correctedLimit (c : Nat) (g : Option Nat) : (setClaim c g s).correctedLimit =
    s.correctedLimit := rfl
@[simp] theorem setClaim_firstCorrected (c : Nat) (g : Option Nat) : (setClaim c g s).firstCorrected =
    s.firstCorrected := rfl
@[simp] theorem setClaim_hold (c : Nat) (g : Option Nat) : (setClaim c g s).hold = s.hold := rfl
@[simp] theorem setClaim_poisonList (c : Nat) (g : Option Nat) : (setClaim c g s).poisonList = s.poisonList := rfl
@[simp] theorem setClaim_domains (c : Nat) (g : Option Nat) : (setClaim c g s).domains = s.domains := rfl
@[simp] theorem setClaim_grants (c : Nat) (g : Option Nat) : (setClaim c g s).grants = s.grants := rfl
@[simp] theorem setClaim_grantSerial (c : Nat) (g : Option Nat) : (setClaim c g s).grantSerial = s.grantSerial := rfl
@[simp] theorem setClaim_requests (c : Nat) (g : Option Nat) : (setClaim c g s).requests = s.requests := rfl
@[simp] theorem setClaim_running (c : Nat) (g : Option Nat) : (setClaim c g s).running = s.running := rfl
@[simp] theorem setClaim_results (c : Nat) (g : Option Nat) : (setClaim c g s).results = s.results := rfl
@[simp] theorem setClaim_warm (c : Nat) (g : Option Nat) : (setClaim c g s).warm = s.warm := rfl
@[simp] theorem setClaim_units (c : Nat) (g : Option Nat) : (setClaim c g s).units = s.units := rfl
@[simp] theorem setClaim_lastServed (c : Nat) (g : Option Nat) : (setClaim c g s).lastServed = s.lastServed := rfl
@[simp] theorem setClaim_slots (c : Nat) (g : Option Nat) : (setClaim c g s).slots = s.slots := rfl
@[simp] theorem setClaim_regions (c : Nat) (g : Option Nat) : (setClaim c g s).regions = s.regions := rfl
@[simp] theorem setClaim_freeze (c : Nat) (g : Option Nat) : (setClaim c g s).freeze = s.freeze := rfl
@[simp] theorem setClaim_log (c : Nat) (g : Option Nat) : (setClaim c g s).log = s.log := rfl
@[simp] theorem setClaim_notices (c : Nat) (g : Option Nat) : (setClaim c g s).notices = s.notices := rfl
@[simp] theorem setClaim_pending (c : Nat) (g : Option Nat) : (setClaim c g s).pending = s.pending := rfl

/-! ### Readers after writers of other tables -/

@[simp] theorem chan_setDom (d : Nat) (e : Domain) (x : Nat) : chan (setDom d e s) x = chan s x := rfl
@[simp] theorem slotOf_setDom (d : Nat) (e : Domain) (x : Nat) : slotOf (setDom d e s) x = slotOf s x := rfl
@[simp] theorem regionOf_setDom (d : Nat) (e : Domain) (x : Nat) : regionOf (setDom d e s) x = regionOf s x := rfl
@[simp] theorem sourceOf_setDom (d : Nat) (e : Domain) (x : Nat) : sourceOf (setDom d e s) x = sourceOf s x := rfl
@[simp] theorem resultOf_setDom (d : Nat) (e : Domain) (x : Nat) : resultOf (setDom d e s) x = resultOf s x := rfl
@[simp] theorem grantAt_setDom (d : Nat) (e : Domain) (x : Nat) : grantAt (setDom d e s) x = grantAt s x := rfl
@[simp] theorem unitOf_setDom (d : Nat) (e : Domain) (x : Nat) : unitOf (setDom d e s) x = unitOf s x := rfl
@[simp] theorem lruOf_setDom (d : Nat) (e : Domain) (x : Nat) : lruOf (setDom d e s) x = lruOf s x := rfl
@[simp] theorem recordAt_setDom (d : Nat) (e : Domain) (x : Nat) : recordAt (setDom d e s) x = recordAt s x := rfl
@[simp] theorem findKey_setDom (d : Nat) (e : Domain) (x : Nat) : findKey (setDom d e s) x = findKey s x := rfl
@[simp] theorem dom_setChan (c : Nat) (e : Channel) (x : Nat) : dom (setChan c e s) x = dom s x := rfl
@[simp] theorem slotOf_setChan (c : Nat) (e : Channel) (x : Nat) : slotOf (setChan c e s) x = slotOf s x := rfl
@[simp] theorem regionOf_setChan (c : Nat) (e : Channel) (x : Nat) : regionOf (setChan c e s) x = regionOf s x := rfl
@[simp] theorem sourceOf_setChan (c : Nat) (e : Channel) (x : Nat) : sourceOf (setChan c e s) x = sourceOf s x := rfl
@[simp] theorem resultOf_setChan (c : Nat) (e : Channel) (x : Nat) : resultOf (setChan c e s) x = resultOf s x := rfl
@[simp] theorem grantAt_setChan (c : Nat) (e : Channel) (x : Nat) : grantAt (setChan c e s) x = grantAt s x := rfl
@[simp] theorem unitOf_setChan (c : Nat) (e : Channel) (x : Nat) : unitOf (setChan c e s) x = unitOf s x := rfl
@[simp] theorem lruOf_setChan (c : Nat) (e : Channel) (x : Nat) : lruOf (setChan c e s) x = lruOf s x := rfl
@[simp] theorem recordAt_setChan (c : Nat) (e : Channel) (x : Nat) : recordAt (setChan c e s) x = recordAt s x := rfl
@[simp] theorem findKey_setChan (c : Nat) (e : Channel) (x : Nat) : findKey (setChan c e s) x = findKey s x := rfl
@[simp] theorem dom_setSlot (k : Nat) (e : Slot) (x : Nat) : dom (setSlot k e s) x = dom s x := rfl
@[simp] theorem chan_setSlot (k : Nat) (e : Slot) (x : Nat) : chan (setSlot k e s) x = chan s x := rfl
@[simp] theorem regionOf_setSlot (k : Nat) (e : Slot) (x : Nat) : regionOf (setSlot k e s) x = regionOf s x := rfl
@[simp] theorem sourceOf_setSlot (k : Nat) (e : Slot) (x : Nat) : sourceOf (setSlot k e s) x = sourceOf s x := rfl
@[simp] theorem resultOf_setSlot (k : Nat) (e : Slot) (x : Nat) : resultOf (setSlot k e s) x = resultOf s x := rfl
@[simp] theorem grantAt_setSlot (k : Nat) (e : Slot) (x : Nat) : grantAt (setSlot k e s) x = grantAt s x := rfl
@[simp] theorem unitOf_setSlot (k : Nat) (e : Slot) (x : Nat) : unitOf (setSlot k e s) x = unitOf s x := rfl
@[simp] theorem lruOf_setSlot (k : Nat) (e : Slot) (x : Nat) : lruOf (setSlot k e s) x = lruOf s x := rfl
@[simp] theorem recordAt_setSlot (k : Nat) (e : Slot) (x : Nat) : recordAt (setSlot k e s) x = recordAt s x := rfl
@[simp] theorem findKey_setSlot (k : Nat) (e : Slot) (x : Nat) : findKey (setSlot k e s) x = findKey s x := rfl
@[simp] theorem dom_setRegion (i : Nat) (e : Region) (x : Nat) : dom (setRegion i e s) x = dom s x := rfl
@[simp] theorem chan_setRegion (i : Nat) (e : Region) (x : Nat) : chan (setRegion i e s) x = chan s x := rfl
@[simp] theorem slotOf_setRegion (i : Nat) (e : Region) (x : Nat) : slotOf (setRegion i e s) x = slotOf s x := rfl
@[simp] theorem sourceOf_setRegion (i : Nat) (e : Region) (x : Nat) : sourceOf (setRegion i e s) x = sourceOf s x := rfl
@[simp] theorem resultOf_setRegion (i : Nat) (e : Region) (x : Nat) : resultOf (setRegion i e s) x = resultOf s x := rfl
@[simp] theorem grantAt_setRegion (i : Nat) (e : Region) (x : Nat) : grantAt (setRegion i e s) x = grantAt s x := rfl
@[simp] theorem unitOf_setRegion (i : Nat) (e : Region) (x : Nat) : unitOf (setRegion i e s) x = unitOf s x := rfl
@[simp] theorem lruOf_setRegion (i : Nat) (e : Region) (x : Nat) : lruOf (setRegion i e s) x = lruOf s x := rfl
@[simp] theorem recordAt_setRegion (i : Nat) (e : Region) (x : Nat) : recordAt (setRegion i e s) x = recordAt s x := rfl
@[simp] theorem findKey_setRegion (i : Nat) (e : Region) (x : Nat) : findKey (setRegion i e s) x = findKey s x := rfl
@[simp] theorem dom_setSource (n : Nat) (e : Source) (x : Nat) : dom (setSource n e s) x = dom s x := rfl
@[simp] theorem chan_setSource (n : Nat) (e : Source) (x : Nat) : chan (setSource n e s) x = chan s x := rfl
@[simp] theorem slotOf_setSource (n : Nat) (e : Source) (x : Nat) : slotOf (setSource n e s) x = slotOf s x := rfl
@[simp] theorem regionOf_setSource (n : Nat) (e : Source) (x : Nat) : regionOf (setSource n e s) x = regionOf s x := rfl
@[simp] theorem resultOf_setSource (n : Nat) (e : Source) (x : Nat) : resultOf (setSource n e s) x = resultOf s x := rfl
@[simp] theorem grantAt_setSource (n : Nat) (e : Source) (x : Nat) : grantAt (setSource n e s) x = grantAt s x := rfl
@[simp] theorem unitOf_setSource (n : Nat) (e : Source) (x : Nat) : unitOf (setSource n e s) x = unitOf s x := rfl
@[simp] theorem lruOf_setSource (n : Nat) (e : Source) (x : Nat) : lruOf (setSource n e s) x = lruOf s x := rfl
@[simp] theorem recordAt_setSource (n : Nat) (e : Source) (x : Nat) : recordAt (setSource n e s) x = recordAt s x := rfl
@[simp] theorem findKey_setSource (n : Nat) (e : Source) (x : Nat) : findKey (setSource n e s) x = findKey s x := rfl
@[simp] theorem dom_setResult (d : Nat) (e : LastResult) (x : Nat) : dom (setResult d e s) x = dom s x := rfl
@[simp] theorem chan_setResult (d : Nat) (e : LastResult) (x : Nat) : chan (setResult d e s) x = chan s x := rfl
@[simp] theorem slotOf_setResult (d : Nat) (e : LastResult) (x : Nat) : slotOf (setResult d e s) x = slotOf s x := rfl
@[simp] theorem regionOf_setResult (d : Nat) (e : LastResult) (x : Nat) : regionOf (setResult d e s) x = regionOf s x := rfl
@[simp] theorem sourceOf_setResult (d : Nat) (e : LastResult) (x : Nat) : sourceOf (setResult d e s) x = sourceOf s x := rfl
@[simp] theorem grantAt_setResult (d : Nat) (e : LastResult) (x : Nat) : grantAt (setResult d e s) x = grantAt s x := rfl
@[simp] theorem unitOf_setResult (d : Nat) (e : LastResult) (x : Nat) : unitOf (setResult d e s) x = unitOf s x := rfl
@[simp] theorem lruOf_setResult (d : Nat) (e : LastResult) (x : Nat) : lruOf (setResult d e s) x = lruOf s x := rfl
@[simp] theorem recordAt_setResult (d : Nat) (e : LastResult) (x : Nat) : recordAt (setResult d e s) x = recordAt s x := rfl
@[simp] theorem findKey_setResult (d : Nat) (e : LastResult) (x : Nat) : findKey (setResult d e s) x = findKey s x := rfl
@[simp] theorem dom_setGrant (i : Nat) (g : Grant) (x : Nat) : dom (setGrant i g s) x = dom s x := rfl
@[simp] theorem chan_setGrant (i : Nat) (g : Grant) (x : Nat) : chan (setGrant i g s) x = chan s x := rfl
@[simp] theorem slotOf_setGrant (i : Nat) (g : Grant) (x : Nat) : slotOf (setGrant i g s) x = slotOf s x := rfl
@[simp] theorem regionOf_setGrant (i : Nat) (g : Grant) (x : Nat) : regionOf (setGrant i g s) x = regionOf s x := rfl
@[simp] theorem sourceOf_setGrant (i : Nat) (g : Grant) (x : Nat) : sourceOf (setGrant i g s) x = sourceOf s x := rfl
@[simp] theorem resultOf_setGrant (i : Nat) (g : Grant) (x : Nat) : resultOf (setGrant i g s) x = resultOf s x := rfl
@[simp] theorem unitOf_setGrant (i : Nat) (g : Grant) (x : Nat) : unitOf (setGrant i g s) x = unitOf s x := rfl
@[simp] theorem lruOf_setGrant (i : Nat) (g : Grant) (x : Nat) : lruOf (setGrant i g s) x = lruOf s x := rfl
@[simp] theorem recordAt_setGrant (i : Nat) (g : Grant) (x : Nat) : recordAt (setGrant i g s) x = recordAt s x := rfl
@[simp] theorem findKey_setGrant (i : Nat) (g : Grant) (x : Nat) : findKey (setGrant i g s) x = findKey s x := rfl
@[simp] theorem dom_setUnit (u : Nat) (z : Zeroing) (x : Nat) : dom (setUnit u z s) x = dom s x := rfl
@[simp] theorem chan_setUnit (u : Nat) (z : Zeroing) (x : Nat) : chan (setUnit u z s) x = chan s x := rfl
@[simp] theorem slotOf_setUnit (u : Nat) (z : Zeroing) (x : Nat) : slotOf (setUnit u z s) x = slotOf s x := rfl
@[simp] theorem regionOf_setUnit (u : Nat) (z : Zeroing) (x : Nat) : regionOf (setUnit u z s) x = regionOf s x := rfl
@[simp] theorem sourceOf_setUnit (u : Nat) (z : Zeroing) (x : Nat) : sourceOf (setUnit u z s) x = sourceOf s x := rfl
@[simp] theorem resultOf_setUnit (u : Nat) (z : Zeroing) (x : Nat) : resultOf (setUnit u z s) x = resultOf s x := rfl
@[simp] theorem grantAt_setUnit (u : Nat) (z : Zeroing) (x : Nat) : grantAt (setUnit u z s) x = grantAt s x := rfl
@[simp] theorem lruOf_setUnit (u : Nat) (z : Zeroing) (x : Nat) : lruOf (setUnit u z s) x = lruOf s x := rfl
@[simp] theorem recordAt_setUnit (u : Nat) (z : Zeroing) (x : Nat) : recordAt (setUnit u z s) x = recordAt s x := rfl
@[simp] theorem findKey_setUnit (u : Nat) (z : Zeroing) (x : Nat) : findKey (setUnit u z s) x = findKey s x := rfl
@[simp] theorem dom_idleUnit (u : Nat) (x : Nat) : dom (idleUnit u s) x = dom s x := rfl
@[simp] theorem chan_idleUnit (u : Nat) (x : Nat) : chan (idleUnit u s) x = chan s x := rfl
@[simp] theorem slotOf_idleUnit (u : Nat) (x : Nat) : slotOf (idleUnit u s) x = slotOf s x := rfl
@[simp] theorem regionOf_idleUnit (u : Nat) (x : Nat) : regionOf (idleUnit u s) x = regionOf s x := rfl
@[simp] theorem sourceOf_idleUnit (u : Nat) (x : Nat) : sourceOf (idleUnit u s) x = sourceOf s x := rfl
@[simp] theorem resultOf_idleUnit (u : Nat) (x : Nat) : resultOf (idleUnit u s) x = resultOf s x := rfl
@[simp] theorem grantAt_idleUnit (u : Nat) (x : Nat) : grantAt (idleUnit u s) x = grantAt s x := rfl
@[simp] theorem lruOf_idleUnit (u : Nat) (x : Nat) : lruOf (idleUnit u s) x = lruOf s x := rfl
@[simp] theorem recordAt_idleUnit (u : Nat) (x : Nat) : recordAt (idleUnit u s) x = recordAt s x := rfl
@[simp] theorem findKey_idleUnit (u : Nat) (x : Nat) : findKey (idleUnit u s) x = findKey s x := rfl
@[simp] theorem dom_mapActive (c : Nat) (f : Active → Active) (x : Nat) : dom (mapActive c f s) x = dom s x := rfl
@[simp] theorem slotOf_mapActive (c : Nat) (f : Active → Active) (x : Nat) : slotOf (mapActive c f s) x = slotOf s x := rfl
@[simp] theorem regionOf_mapActive (c : Nat) (f : Active → Active) (x : Nat) : regionOf (mapActive c f s) x =
    regionOf s x := rfl
@[simp] theorem sourceOf_mapActive (c : Nat) (f : Active → Active) (x : Nat) : sourceOf (mapActive c f s) x =
    sourceOf s x := rfl
@[simp] theorem resultOf_mapActive (c : Nat) (f : Active → Active) (x : Nat) : resultOf (mapActive c f s) x =
    resultOf s x := rfl
@[simp] theorem grantAt_mapActive (c : Nat) (f : Active → Active) (x : Nat) : grantAt (mapActive c f s) x =
    grantAt s x := rfl
@[simp] theorem unitOf_mapActive (c : Nat) (f : Active → Active) (x : Nat) : unitOf (mapActive c f s) x = unitOf s x := rfl
@[simp] theorem lruOf_mapActive (c : Nat) (f : Active → Active) (x : Nat) : lruOf (mapActive c f s) x = lruOf s x := rfl
@[simp] theorem recordAt_mapActive (c : Nat) (f : Active → Active) (x : Nat) : recordAt (mapActive c f s) x =
    recordAt s x := rfl
@[simp] theorem findKey_mapActive (c : Nat) (f : Active → Active) (x : Nat) : findKey (mapActive c f s) x =
    findKey s x := rfl
@[simp] theorem dom_goPhase (c : Nat) (p : Phase) (w : Wait) (x : Nat) : dom (goPhase c p w s) x = dom s x := rfl
@[simp] theorem slotOf_goPhase (c : Nat) (p : Phase) (w : Wait) (x : Nat) : slotOf (goPhase c p w s) x = slotOf s x := rfl
@[simp] theorem regionOf_goPhase (c : Nat) (p : Phase) (w : Wait) (x : Nat) : regionOf (goPhase c p w s) x =
    regionOf s x := rfl
@[simp] theorem sourceOf_goPhase (c : Nat) (p : Phase) (w : Wait) (x : Nat) : sourceOf (goPhase c p w s) x =
    sourceOf s x := rfl
@[simp] theorem resultOf_goPhase (c : Nat) (p : Phase) (w : Wait) (x : Nat) : resultOf (goPhase c p w s) x =
    resultOf s x := rfl
@[simp] theorem grantAt_goPhase (c : Nat) (p : Phase) (w : Wait) (x : Nat) : grantAt (goPhase c p w s) x =
    grantAt s x := rfl
@[simp] theorem unitOf_goPhase (c : Nat) (p : Phase) (w : Wait) (x : Nat) : unitOf (goPhase c p w s) x = unitOf s x := rfl
@[simp] theorem lruOf_goPhase (c : Nat) (p : Phase) (w : Wait) (x : Nat) : lruOf (goPhase c p w s) x = lruOf s x := rfl
@[simp] theorem recordAt_goPhase (c : Nat) (p : Phase) (w : Wait) (x : Nat) : recordAt (goPhase c p w s) x =
    recordAt s x := rfl
@[simp] theorem findKey_goPhase (c : Nat) (p : Phase) (w : Wait) (x : Nat) : findKey (goPhase c p w s) x =
    findKey s x := rfl
@[simp] theorem dom_goWait (c : Nat) (w : Wait) (x : Nat) : dom (goWait c w s) x = dom s x := rfl
@[simp] theorem slotOf_goWait (c : Nat) (w : Wait) (x : Nat) : slotOf (goWait c w s) x = slotOf s x := rfl
@[simp] theorem regionOf_goWait (c : Nat) (w : Wait) (x : Nat) : regionOf (goWait c w s) x = regionOf s x := rfl
@[simp] theorem sourceOf_goWait (c : Nat) (w : Wait) (x : Nat) : sourceOf (goWait c w s) x = sourceOf s x := rfl
@[simp] theorem resultOf_goWait (c : Nat) (w : Wait) (x : Nat) : resultOf (goWait c w s) x = resultOf s x := rfl
@[simp] theorem grantAt_goWait (c : Nat) (w : Wait) (x : Nat) : grantAt (goWait c w s) x = grantAt s x := rfl
@[simp] theorem unitOf_goWait (c : Nat) (w : Wait) (x : Nat) : unitOf (goWait c w s) x = unitOf s x := rfl
@[simp] theorem lruOf_goWait (c : Nat) (w : Wait) (x : Nat) : lruOf (goWait c w s) x = lruOf s x := rfl
@[simp] theorem recordAt_goWait (c : Nat) (w : Wait) (x : Nat) : recordAt (goWait c w s) x = recordAt s x := rfl
@[simp] theorem findKey_goWait (c : Nat) (w : Wait) (x : Nat) : findKey (goWait c w s) x = findKey s x := rfl
@[simp] theorem dom_goWork (c : Nat) (w : Work) (x : Nat) : dom (goWork c w s) x = dom s x := rfl
@[simp] theorem slotOf_goWork (c : Nat) (w : Work) (x : Nat) : slotOf (goWork c w s) x = slotOf s x := rfl
@[simp] theorem regionOf_goWork (c : Nat) (w : Work) (x : Nat) : regionOf (goWork c w s) x = regionOf s x := rfl
@[simp] theorem sourceOf_goWork (c : Nat) (w : Work) (x : Nat) : sourceOf (goWork c w s) x = sourceOf s x := rfl
@[simp] theorem resultOf_goWork (c : Nat) (w : Work) (x : Nat) : resultOf (goWork c w s) x = resultOf s x := rfl
@[simp] theorem grantAt_goWork (c : Nat) (w : Work) (x : Nat) : grantAt (goWork c w s) x = grantAt s x := rfl
@[simp] theorem unitOf_goWork (c : Nat) (w : Work) (x : Nat) : unitOf (goWork c w s) x = unitOf s x := rfl
@[simp] theorem lruOf_goWork (c : Nat) (w : Work) (x : Nat) : lruOf (goWork c w s) x = lruOf s x := rfl
@[simp] theorem recordAt_goWork (c : Nat) (w : Work) (x : Nat) : recordAt (goWork c w s) x = recordAt s x := rfl
@[simp] theorem findKey_goWork (c : Nat) (w : Work) (x : Nat) : findKey (goWork c w s) x = findKey s x := rfl
@[simp] theorem dom_goEnding (c : Nat) (r : Result) (x : Nat) : dom (goEnding c r s) x = dom s x := rfl
@[simp] theorem slotOf_goEnding (c : Nat) (r : Result) (x : Nat) : slotOf (goEnding c r s) x = slotOf s x := rfl
@[simp] theorem regionOf_goEnding (c : Nat) (r : Result) (x : Nat) : regionOf (goEnding c r s) x = regionOf s x := rfl
@[simp] theorem sourceOf_goEnding (c : Nat) (r : Result) (x : Nat) : sourceOf (goEnding c r s) x = sourceOf s x := rfl
@[simp] theorem resultOf_goEnding (c : Nat) (r : Result) (x : Nat) : resultOf (goEnding c r s) x = resultOf s x := rfl
@[simp] theorem grantAt_goEnding (c : Nat) (r : Result) (x : Nat) : grantAt (goEnding c r s) x = grantAt s x := rfl
@[simp] theorem unitOf_goEnding (c : Nat) (r : Result) (x : Nat) : unitOf (goEnding c r s) x = unitOf s x := rfl
@[simp] theorem lruOf_goEnding (c : Nat) (r : Result) (x : Nat) : lruOf (goEnding c r s) x = lruOf s x := rfl
@[simp] theorem recordAt_goEnding (c : Nat) (r : Result) (x : Nat) : recordAt (goEnding c r s) x = recordAt s x := rfl
@[simp] theorem findKey_goEnding (c : Nat) (r : Result) (x : Nat) : findKey (goEnding c r s) x = findKey s x := rfl
@[simp] theorem dom_setClaim (c : Nat) (g : Option Nat) (x : Nat) : dom (setClaim c g s) x = dom s x := rfl
@[simp] theorem slotOf_setClaim (c : Nat) (g : Option Nat) (x : Nat) : slotOf (setClaim c g s) x = slotOf s x := rfl
@[simp] theorem regionOf_setClaim (c : Nat) (g : Option Nat) (x : Nat) : regionOf (setClaim c g s) x = regionOf s x := rfl
@[simp] theorem sourceOf_setClaim (c : Nat) (g : Option Nat) (x : Nat) : sourceOf (setClaim c g s) x = sourceOf s x := rfl
@[simp] theorem resultOf_setClaim (c : Nat) (g : Option Nat) (x : Nat) : resultOf (setClaim c g s) x = resultOf s x := rfl
@[simp] theorem grantAt_setClaim (c : Nat) (g : Option Nat) (x : Nat) : grantAt (setClaim c g s) x = grantAt s x := rfl
@[simp] theorem unitOf_setClaim (c : Nat) (g : Option Nat) (x : Nat) : unitOf (setClaim c g s) x = unitOf s x := rfl
@[simp] theorem lruOf_setClaim (c : Nat) (g : Option Nat) (x : Nat) : lruOf (setClaim c g s) x = lruOf s x := rfl
@[simp] theorem recordAt_setClaim (c : Nat) (g : Option Nat) (x : Nat) : recordAt (setClaim c g s) x = recordAt s x := rfl
@[simp] theorem findKey_setClaim (c : Nat) (g : Option Nat) (x : Nat) : findKey (setClaim c g s) x = findKey s x := rfl

/-! ### A reader after the writer of its own table -/

theorem dom_setDom (d x : Nat) (e : Domain) : dom (setDom d e s) x = if x = d then e else dom s x :=
  tblGet_tblSet_getD Domain.resetOf s.domains d x e

theorem chan_setChan (c x : Nat) (e : Channel) : chan (setChan c e s) x = if x = c then e else chan s x :=
  tblGet_tblSet_getD (fun _ => Channel.reset) s.channels c x e

theorem slotOf_setSlot (k x : Nat) (e : Slot) : slotOf (setSlot k e s) x = if x = k then e else slotOf s x :=
  tblGet_tblSet_getD (fun _ => Slot.reset) s.slots k x e

theorem regionOf_setRegion (i x : Nat) (e : Region) :
    regionOf (setRegion i e s) x = if x = i then e else regionOf s x :=
  tblGet_tblSet_getD (fun _ => Region.reset) s.regions i x e

theorem sourceOf_setSource (n x : Nat) (e : Source) :
    sourceOf (setSource n e s) x = if x = n then e else sourceOf s x :=
  tblGet_tblSet_getD Source.resetOf s.notices n x e

theorem resultOf_setResult (d x : Nat) (e : LastResult) :
    resultOf (setResult d e s) x = if x = d then e else resultOf s x :=
  tblGet_tblSet_getD (fun _ => LastResult.reset) s.results d x e

theorem grantAt_setGrant (i x : Nat) (g : Grant) :
    grantAt (setGrant i g s) x = if x = i then some g else grantAt s x := tblGet_tblPut s.grants i x g

theorem unitOf_setUnit (u x : Nat) (z : Zeroing) :
    unitOf (setUnit u z s) x = if x = u then some z else unitOf s x := tblGet_tblPut s.units u x z

theorem unitOf_idleUnit (u x : Nat) : unitOf (idleUnit u s) x = if x = u then none else unitOf s x :=
  tblGet_tblDel s.units u x

@[simp] theorem dom_setDom_same (d : Nat) (e : Domain) : dom (setDom d e s) d = e := by simp [dom_setDom]
@[simp] theorem chan_setChan_same (c : Nat) (e : Channel) : chan (setChan c e s) c = e := by simp [chan_setChan]
@[simp] theorem slotOf_setSlot_same (k : Nat) (e : Slot) : slotOf (setSlot k e s) k = e := by
  simp [slotOf_setSlot]
@[simp] theorem regionOf_setRegion_same (i : Nat) (e : Region) : regionOf (setRegion i e s) i = e := by
  simp [regionOf_setRegion]
@[simp] theorem sourceOf_setSource_same (n : Nat) (e : Source) : sourceOf (setSource n e s) n = e := by
  simp [sourceOf_setSource]
@[simp] theorem resultOf_setResult_same (d : Nat) (e : LastResult) : resultOf (setResult d e s) d = e := by
  simp [resultOf_setResult]
@[simp] theorem grantAt_setGrant_same (i : Nat) (g : Grant) : grantAt (setGrant i g s) i = some g := by
  simp [grantAt_setGrant]
@[simp] theorem unitOf_setUnit_same (u : Nat) (z : Zeroing) : unitOf (setUnit u z s) u = some z := by
  simp [unitOf_setUnit]
@[simp] theorem unitOf_idleUnit_same (u : Nat) : unitOf (idleUnit u s) u = none := by simp [unitOf_idleUnit]

theorem chan_mapActive (c x : Nat) (f : Active → Active) :
    chan (mapActive c f s) x = if x = c then { chan s c with active := (chan s c).active.map f } else chan s x :=
  chan_setChan s c x _

theorem chan_goPhase (c x : Nat) (p : Phase) (w : Wait) :
    chan (goPhase c p w s) x =
      if x = c then { chan s c with active := (chan s c).active.map (fun a => { a with phase := p, wait := w }) }
      else chan s x := chan_mapActive s c x _

theorem chan_goWait (c x : Nat) (w : Wait) :
    chan (goWait c w s) x =
      if x = c then { chan s c with active := (chan s c).active.map (fun a => { a with wait := w }) }
      else chan s x := chan_mapActive s c x _

theorem chan_goWork (c x : Nat) (w : Work) :
    chan (goWork c w s) x =
      if x = c then { chan s c with active := (chan s c).active.map (fun a => { a with work := w }) }
      else chan s x := chan_mapActive s c x _

theorem chan_goEnding (c x : Nat) (r : Result) :
    chan (goEnding c r s) x =
      if x = c then
        { chan s c with active := (chan s c).active.map (fun a => { a with ending := some (a.ending.getD r) }) }
      else chan s x := chan_mapActive s c x _

theorem chan_setClaim (c x : Nat) (g : Option Nat) :
    chan (setClaim c g s) x = if x = c then { chan s c with claim := g } else chan s x := chan_setChan s c x _

end Sys2Proof.Machine
end

