-- ==== Sys2Proof/Laws/Steps.lean ====
section
/-!
SUPPORT. What the operations that every step shares can change: notices (R189, R190), entry causes (R198),
responses (R170), the taking of a command (R168) and the end of a step.
-/

namespace Sys2Proof.Machine

variable (s : State)

/-! ### `raise` -/

theorem raise_shape (n : NoticeName) :
    raise n s = { s with notices := (raise n s).notices } := by
  unfold raise; dsimp only; split <;> rfl

@[simp] theorem raise_base (n : NoticeName) : (raise n s).base = s.base := by rw [raise_shape]
@[simp] theorem raise_requested (n : NoticeName) : (raise n s).requested = s.requested := by rw [raise_shape]
@[simp] theorem raise_size (n : NoticeName) : (raise n s).size = s.size := by rw [raise_shape]
@[simp] theorem raise_mode (n : NoticeName) : (raise n s).mode = s.mode := by rw [raise_shape]
@[simp] theorem raise_cause (n : NoticeName) : (raise n s).cause = s.cause := by rw [raise_shape]
@[simp] theorem raise_integrityMark (n : NoticeName) : (raise n s).integrityMark = s.integrityMark :=
  by rw [raise_shape]
@[simp] theorem raise_policy (n : NoticeName) : (raise n s).policy = s.policy := by rw [raise_shape]
@[simp] theorem raise_faultLine (n : NoticeName) : (raise n s).faultLine = s.faultLine := by rw [raise_shape]
@[simp] theorem raise_warnLine (n : NoticeName) : (raise n s).warnLine = s.warnLine := by rw [raise_shape]
@[simp] theorem raise_flush (n : NoticeName) : (raise n s).flush = s.flush := by rw [raise_shape]
@[simp] theorem raise_tagBase (n : NoticeName) : (raise n s).tagBase = s.tagBase := by rw [raise_shape]
@[simp] theorem raise_progress (n : NoticeName) : (raise n s).progress = s.progress := by rw [raise_shape]
@[simp] theorem raise_upLink (n : NoticeName) : (raise n s).upLink = s.upLink := by rw [raise_shape]
@[simp] theorem raise_tagsInUse (n : NoticeName) : (raise n s).tagsInUse = s.tagsInUse := by rw [raise_shape]
@[simp] theorem raise_completions (n : NoticeName) : (raise n s).completions = s.completions :=
  by rw [raise_shape]
@[simp] theorem raise_noticeSlot (n : NoticeName) : (raise n s).noticeSlot = s.noticeSlot := by rw [raise_shape]
@[simp] theorem raise_txOffered (n : NoticeName) : (raise n s).txOffered = s.txOffered := by rw [raise_shape]
@[simp] theorem raise_txLast (n : NoticeName) : (raise n s).txLast = s.txLast := by rw [raise_shape]
@[simp] theorem raise_downLink (n : NoticeName) : (raise n s).downLink = s.downLink := by rw [raise_shape]
@[simp] theorem raise_outstanding (n : NoticeName) : (raise n s).outstanding = s.outstanding :=
  by rw [raise_shape]
@[simp] theorem raise_heldTags (n : NoticeName) : (raise n s).heldTags = s.heldTags := by rw [raise_shape]
@[simp] theorem raise_tagWaits (n : NoticeName) : (raise n s).tagWaits = s.tagWaits := by rw [raise_shape]
@[simp] theorem raise_produced (n : NoticeName) : (raise n s).produced = s.produced := by rw [raise_shape]
@[simp] theorem raise_offers (n : NoticeName) : (raise n s).offers = s.offers := by rw [raise_shape]
@[simp] theorem raise_downOffered (n : NoticeName) : (raise n s).downOffered = s.downOffered :=
  by rw [raise_shape]
@[simp] theorem raise_lastClass (n : NoticeName) : (raise n s).lastClass = s.lastClass := by rw [raise_shape]
@[simp] theorem raise_stage (n : NoticeName) : (raise n s).stage = s.stage := by rw [raise_shape]
@[simp] theorem raise_inFlight (n : NoticeName) : (raise n s).inFlight = s.inFlight := by rw [raise_shape]
@[simp] theorem raise_drains (n : NoticeName) : (raise n s).drains = s.drains := by rw [raise_shape]
@[simp] theorem raise_ways (n : NoticeName) : (raise n s).ways = s.ways := by rw [raise_shape]
@[simp] theorem raise_lru (n : NoticeName) : (raise n s).lru = s.lru := by rw [raise_shape]
@[simp] theorem raise_fills (n : NoticeName) : (raise n s).fills = s.fills := by rw [raise_shape]
@[simp] theorem raise_fillWaits (n : NoticeName) : (raise n s).fillWaits = s.fillWaits := by rw [raise_shape]
@[simp] theorem raise_fillSerial (n : NoticeName) : (raise n s).fillSerial = s.fillSerial := by rw [raise_shape]
@[simp] theorem raise_missQueue (n : NoticeName) : (raise n s).missQueue = s.missQueue := by rw [raise_shape]
@[simp] theorem raise_poisonings (n : NoticeName) : (raise n s).poisonings = s.poisonings := by rw [raise_shape]
@[simp] theorem raise_corrected (n : NoticeName) : (raise n s).corrected = s.corrected := by rw [raise_shape]
@[simp] theorem raise_correctedLimit (n : NoticeName) : (raise n s).correctedLimit = s.correctedLimit :=
  by rw [raise_shape]
@[simp] theorem raise_firstCorrected (n : NoticeName) : (raise n s).firstCorrected = s.firstCorrected :=
  by rw [raise_shape]
@[simp] theorem raise_hold (n : NoticeName) : (raise n s).hold = s.hold := by rw [raise_shape]
@[simp] theorem raise_poisonList (n : NoticeName) : (raise n s).poisonList = s.poisonList := by rw [raise_shape]
@[simp] theorem raise_domains (n : NoticeName) : (raise n s).domains = s.domains := by rw [raise_shape]
@[simp] theorem raise_grants (n : NoticeName) : (raise n s).grants = s.grants := by rw [raise_shape]
@[simp] theorem raise_grantSerial (n : NoticeName) : (raise n s).grantSerial = s.grantSerial :=
  by rw [raise_shape]
@[simp] theorem raise_requests (n : NoticeName) : (raise n s).requests = s.requests := by rw [raise_shape]
@[simp] theorem raise_running (n : NoticeName) : (raise n s).running = s.running := by rw [raise_shape]
@[simp] theorem raise_results (n : NoticeName) : (raise n s).results = s.results := by rw [raise_shape]
@[simp] theorem raise_channels (n : NoticeName) : (raise n s).channels = s.channels := by rw [raise_shape]
@[simp] theorem raise_warm (n : NoticeName) : (raise n s).warm = s.warm := by rw [raise_shape]
@[simp] theorem raise_units (n : NoticeName) : (raise n s).units = s.units := by rw [raise_shape]
@[simp] theorem raise_lastServed (n : NoticeName) : (raise n s).lastServed = s.lastServed := by rw [raise_shape]
@[simp] theorem raise_slots (n : NoticeName) : (raise n s).slots = s.slots := by rw [raise_shape]
@[simp] theorem raise_regions (n : NoticeName) : (raise n s).regions = s.regions := by rw [raise_shape]
@[simp] theorem raise_freeze (n : NoticeName) : (raise n s).freeze = s.freeze := by rw [raise_shape]
@[simp] theorem raise_log (n : NoticeName) : (raise n s).log = s.log := by rw [raise_shape]
@[simp] theorem raise_pending (n : NoticeName) : (raise n s).pending = s.pending := by rw [raise_shape]

/-! ### `placeNotice` -/

theorem placeNotice_shape :
    placeNotice s = { s with
    notices := (placeNotice s).notices,
    noticeSlot := (placeNotice s).noticeSlot } := by
  unfold placeNotice; split
  · rfl
  · split <;> rfl

@[simp] theorem placeNotice_base : (placeNotice s).base = s.base := by rw [placeNotice_shape]
@[simp] theorem placeNotice_requested : (placeNotice s).requested = s.requested := by rw [placeNotice_shape]
@[simp] theorem placeNotice_size : (placeNotice s).size = s.size := by rw [placeNotice_shape]
@[simp] theorem placeNotice_mode : (placeNotice s).mode = s.mode := by rw [placeNotice_shape]
@[simp] theorem placeNotice_cause : (placeNotice s).cause = s.cause := by rw [placeNotice_shape]
@[simp] theorem placeNotice_integrityMark : (placeNotice s).integrityMark = s.integrityMark :=
  by rw [placeNotice_shape]
@[simp] theorem placeNotice_policy : (placeNotice s).policy = s.policy := by rw [placeNotice_shape]
@[simp] theorem placeNotice_faultLine : (placeNotice s).faultLine = s.faultLine := by rw [placeNotice_shape]
@[simp] theorem placeNotice_warnLine : (placeNotice s).warnLine = s.warnLine := by rw [placeNotice_shape]
@[simp] theorem placeNotice_flush : (placeNotice s).flush = s.flush := by rw [placeNotice_shape]
@[simp] theorem placeNotice_tagBase : (placeNotice s).tagBase = s.tagBase := by rw [placeNotice_shape]
@[simp] theorem placeNotice_progress : (placeNotice s).progress = s.progress := by rw [placeNotice_shape]
@[simp] theorem placeNotice_upLink : (placeNotice s).upLink = s.upLink := by rw [placeNotice_shape]
@[simp] theorem placeNotice_tagsInUse : (placeNotice s).tagsInUse = s.tagsInUse := by rw [placeNotice_shape]
@[simp] theorem placeNotice_completions : (placeNotice s).completions = s.completions := by rw [placeNotice_shape]
@[simp] theorem placeNotice_txOffered : (placeNotice s).txOffered = s.txOffered := by rw [placeNotice_shape]
@[simp] theorem placeNotice_txLast : (placeNotice s).txLast = s.txLast := by rw [placeNotice_shape]
@[simp] theorem placeNotice_downLink : (placeNotice s).downLink = s.downLink := by rw [placeNotice_shape]
@[simp] theorem placeNotice_outstanding : (placeNotice s).outstanding = s.outstanding := by rw [placeNotice_shape]
@[simp] theorem placeNotice_heldTags : (placeNotice s).heldTags = s.heldTags := by rw [placeNotice_shape]
@[simp] theorem placeNotice_tagWaits : (placeNotice s).tagWaits = s.tagWaits := by rw [placeNotice_shape]
@[simp] theorem placeNotice_produced : (placeNotice s).produced = s.produced := by rw [placeNotice_shape]
@[simp] theorem placeNotice_offers : (placeNotice s).offers = s.offers := by rw [placeNotice_shape]
@[simp] theorem placeNotice_downOffered : (placeNotice s).downOffered = s.downOffered := by rw [placeNotice_shape]
@[simp] theorem placeNotice_lastClass : (placeNotice s).lastClass = s.lastClass := by rw [placeNotice_shape]
@[simp] theorem placeNotice_stage : (placeNotice s).stage = s.stage := by rw [placeNotice_shape]
@[simp] theorem placeNotice_inFlight : (placeNotice s).inFlight = s.inFlight := by rw [placeNotice_shape]
@[simp] theorem placeNotice_drains : (placeNotice s).drains = s.drains := by rw [placeNotice_shape]
@[simp] theorem placeNotice_ways : (placeNotice s).ways = s.ways := by rw [placeNotice_shape]
@[simp] theorem placeNotice_lru : (placeNotice s).lru = s.lru := by rw [placeNotice_shape]
@[simp] theorem placeNotice_fills : (placeNotice s).fills = s.fills := by rw [placeNotice_shape]
@[simp] theorem placeNotice_fillWaits : (placeNotice s).fillWaits = s.fillWaits := by rw [placeNotice_shape]
@[simp] theorem placeNotice_fillSerial : (placeNotice s).fillSerial = s.fillSerial := by rw [placeNotice_shape]
@[simp] theorem placeNotice_missQueue : (placeNotice s).missQueue = s.missQueue := by rw [placeNotice_shape]
@[simp] theorem placeNotice_poisonings : (placeNotice s).poisonings = s.poisonings := by rw [placeNotice_shape]
@[simp] theorem placeNotice_corrected : (placeNotice s).corrected = s.corrected := by rw [placeNotice_shape]
@[simp] theorem placeNotice_correctedLimit : (placeNotice s).correctedLimit = s.correctedLimit :=
  by rw [placeNotice_shape]
@[simp] theorem placeNotice_firstCorrected : (placeNotice s).firstCorrected = s.firstCorrected :=
  by rw [placeNotice_shape]
@[simp] theorem placeNotice_hold : (placeNotice s).hold = s.hold := by rw [placeNotice_shape]
@[simp] theorem placeNotice_poisonList : (placeNotice s).poisonList = s.poisonList := by rw [placeNotice_shape]
@[simp] theorem placeNotice_domains : (placeNotice s).domains = s.domains := by rw [placeNotice_shape]
@[simp] theorem placeNotice_grants : (placeNotice s).grants = s.grants := by rw [placeNotice_shape]
@[simp] theorem placeNotice_grantSerial : (placeNotice s).grantSerial = s.grantSerial := by rw [placeNotice_shape]
@[simp] theorem placeNotice_requests : (placeNotice s).requests = s.requests := by rw [placeNotice_shape]
@[simp] theorem placeNotice_running : (placeNotice s).running = s.running := by rw [placeNotice_shape]
@[simp] theorem placeNotice_results : (placeNotice s).results = s.results := by rw [placeNotice_shape]
@[simp] theorem placeNotice_channels : (placeNotice s).channels = s.channels := by rw [placeNotice_shape]
@[simp] theorem placeNotice_warm : (placeNotice s).warm = s.warm := by rw [placeNotice_shape]
@[simp] theorem placeNotice_units : (placeNotice s).units = s.units := by rw [placeNotice_shape]
@[simp] theorem placeNotice_lastServed : (placeNotice s).lastServed = s.lastServed := by rw [placeNotice_shape]
@[simp] theorem placeNotice_slots : (placeNotice s).slots = s.slots := by rw [placeNotice_shape]
@[simp] theorem placeNotice_regions : (placeNotice s).regions = s.regions := by rw [placeNotice_shape]
@[simp] theorem placeNotice_freeze : (placeNotice s).freeze = s.freeze := by rw [placeNotice_shape]
@[simp] theorem placeNotice_log : (placeNotice s).log = s.log := by rw [placeNotice_shape]
@[simp] theorem placeNotice_pending : (placeNotice s).pending = s.pending := by rw [placeNotice_shape]

/-! ### `placeTx` -/

/-- Before a warm reset's clearing step, or with none in progress, the slot's packet is on offer (R8, R174). -/
theorem noticeReady_eq (h : ∀ w, s.warm = some w → w.stage = .settling) : noticeReady s = s.noticeSlot := by
  unfold noticeReady noticeWaits
  cases hw : s.warm <;> cases s.noticeSlot <;> simp_all

/-- After the clearing step, a packet whose source is marked notified is not on offer before traffic resumes
(R174). -/
theorem noticeReady_eq_none {w : WarmReset} {n : Notice} (hw : s.warm = some w) (h : w.stage ≠ .settling)
    (hs : s.noticeSlot = some n) (hn : (sourceOf s n.source).notified = true) : noticeReady s = none := by
  simp [noticeReady, noticeWaits, hw, hs, hn, h]

/-- What the transmit direction offers next (R6): while the link is up and nothing is offered, the completion, the
notice on offer, or the one of the two that was not offered last. -/
theorem placeTx_txOffered :
    (placeTx s).txOffered =
      if s.upLink = false ∨ s.txOffered ≠ none then s.txOffered
      else match s.completions, noticeReady s with
        | [], none => none
        | _ :: _, none => some .completion
        | [], some _ => some .notice
        | _ :: _, some _ => if s.txLast = some .completion then some .notice else some .completion := by
  unfold placeTx
  cases s.upLink <;> cases ho : s.txOffered <;> simp [ho]
  cases s.completions <;> cases noticeReady s <;> simp [ho]
  by_cases hl : s.txLast = some .completion <;> simp [hl]

theorem placeTx_shape :
    placeTx s = { s with txOffered := (placeTx s).txOffered, txLast := (placeTx s).txLast } := by
  unfold placeTx; split
  · rfl
  · dsimp only; split <;> rfl

@[simp] theorem placeTx_base : (placeTx s).base = s.base := by rw [placeTx_shape]
@[simp] theorem placeTx_requested : (placeTx s).requested = s.requested := by rw [placeTx_shape]
@[simp] theorem placeTx_size : (placeTx s).size = s.size := by rw [placeTx_shape]
@[simp] theorem placeTx_mode : (placeTx s).mode = s.mode := by rw [placeTx_shape]
@[simp] theorem placeTx_cause : (placeTx s).cause = s.cause := by rw [placeTx_shape]
@[simp] theorem placeTx_integrityMark : (placeTx s).integrityMark = s.integrityMark := by rw [placeTx_shape]
@[simp] theorem placeTx_policy : (placeTx s).policy = s.policy := by rw [placeTx_shape]
@[simp] theorem placeTx_faultLine : (placeTx s).faultLine = s.faultLine := by rw [placeTx_shape]
@[simp] theorem placeTx_warnLine : (placeTx s).warnLine = s.warnLine := by rw [placeTx_shape]
@[simp] theorem placeTx_flush : (placeTx s).flush = s.flush := by rw [placeTx_shape]
@[simp] theorem placeTx_tagBase : (placeTx s).tagBase = s.tagBase := by rw [placeTx_shape]
@[simp] theorem placeTx_progress : (placeTx s).progress = s.progress := by rw [placeTx_shape]
@[simp] theorem placeTx_upLink : (placeTx s).upLink = s.upLink := by rw [placeTx_shape]
@[simp] theorem placeTx_tagsInUse : (placeTx s).tagsInUse = s.tagsInUse := by rw [placeTx_shape]
@[simp] theorem placeTx_completions : (placeTx s).completions = s.completions := by rw [placeTx_shape]
@[simp] theorem placeTx_noticeSlot : (placeTx s).noticeSlot = s.noticeSlot := by rw [placeTx_shape]
@[simp] theorem placeTx_downLink : (placeTx s).downLink = s.downLink := by rw [placeTx_shape]
@[simp] theorem placeTx_outstanding : (placeTx s).outstanding = s.outstanding := by rw [placeTx_shape]
@[simp] theorem placeTx_heldTags : (placeTx s).heldTags = s.heldTags := by rw [placeTx_shape]
@[simp] theorem placeTx_tagWaits : (placeTx s).tagWaits = s.tagWaits := by rw [placeTx_shape]
@[simp] theorem placeTx_produced : (placeTx s).produced = s.produced := by rw [placeTx_shape]
@[simp] theorem placeTx_offers : (placeTx s).offers = s.offers := by rw [placeTx_shape]
@[simp] theorem placeTx_downOffered : (placeTx s).downOffered = s.downOffered := by rw [placeTx_shape]
@[simp] theorem placeTx_lastClass : (placeTx s).lastClass = s.lastClass := by rw [placeTx_shape]
@[simp] theorem placeTx_stage : (placeTx s).stage = s.stage := by rw [placeTx_shape]
@[simp] theorem placeTx_inFlight : (placeTx s).inFlight = s.inFlight := by rw [placeTx_shape]
@[simp] theorem placeTx_drains : (placeTx s).drains = s.drains := by rw [placeTx_shape]
@[simp] theorem placeTx_ways : (placeTx s).ways = s.ways := by rw [placeTx_shape]
@[simp] theorem placeTx_lru : (placeTx s).lru = s.lru := by rw [placeTx_shape]
@[simp] theorem placeTx_fills : (placeTx s).fills = s.fills := by rw [placeTx_shape]
@[simp] theorem placeTx_fillWaits : (placeTx s).fillWaits = s.fillWaits := by rw [placeTx_shape]
@[simp] theorem placeTx_fillSerial : (placeTx s).fillSerial = s.fillSerial := by rw [placeTx_shape]
@[simp] theorem placeTx_missQueue : (placeTx s).missQueue = s.missQueue := by rw [placeTx_shape]
@[simp] theorem placeTx_poisonings : (placeTx s).poisonings = s.poisonings := by rw [placeTx_shape]
@[simp] theorem placeTx_corrected : (placeTx s).corrected = s.corrected := by rw [placeTx_shape]
@[simp] theorem placeTx_correctedLimit : (placeTx s).correctedLimit = s.correctedLimit := by rw [placeTx_shape]
@[simp] theorem placeTx_firstCorrected : (placeTx s).firstCorrected = s.firstCorrected := by rw [placeTx_shape]
@[simp] theorem placeTx_hold : (placeTx s).hold = s.hold := by rw [placeTx_shape]
@[simp] theorem placeTx_poisonList : (placeTx s).poisonList = s.poisonList := by rw [placeTx_shape]
@[simp] theorem placeTx_domains : (placeTx s).domains = s.domains := by rw [placeTx_shape]
@[simp] theorem placeTx_grants : (placeTx s).grants = s.grants := by rw [placeTx_shape]
@[simp] theorem placeTx_grantSerial : (placeTx s).grantSerial = s.grantSerial := by rw [placeTx_shape]
@[simp] theorem placeTx_requests : (placeTx s).requests = s.requests := by rw [placeTx_shape]
@[simp] theorem placeTx_running : (placeTx s).running = s.running := by rw [placeTx_shape]
@[simp] theorem placeTx_results : (placeTx s).results = s.results := by rw [placeTx_shape]
@[simp] theorem placeTx_channels : (placeTx s).channels = s.channels := by rw [placeTx_shape]
@[simp] theorem placeTx_warm : (placeTx s).warm = s.warm := by rw [placeTx_shape]
@[simp] theorem placeTx_units : (placeTx s).units = s.units := by rw [placeTx_shape]
@[simp] theorem placeTx_lastServed : (placeTx s).lastServed = s.lastServed := by rw [placeTx_shape]
@[simp] theorem placeTx_slots : (placeTx s).slots = s.slots := by rw [placeTx_shape]
@[simp] theorem placeTx_regions : (placeTx s).regions = s.regions := by rw [placeTx_shape]
@[simp] theorem placeTx_freeze : (placeTx s).freeze = s.freeze := by rw [placeTx_shape]
@[simp] theorem placeTx_log : (placeTx s).log = s.log := by rw [placeTx_shape]
@[simp] theorem placeTx_notices : (placeTx s).notices = s.notices := by rw [placeTx_shape]
@[simp] theorem placeTx_pending : (placeTx s).pending = s.pending := by rw [placeTx_shape]

/-! ### `placeOffer` -/

theorem placeOffer_shape :
    placeOffer s = { s with downOffered := (placeOffer s).downOffered } := by
  unfold placeOffer; split <;> rfl

@[simp] theorem placeOffer_base : (placeOffer s).base = s.base := by rw [placeOffer_shape]
@[simp] theorem placeOffer_requested : (placeOffer s).requested = s.requested := by rw [placeOffer_shape]
@[simp] theorem placeOffer_size : (placeOffer s).size = s.size := by rw [placeOffer_shape]
@[simp] theorem placeOffer_mode : (placeOffer s).mode = s.mode := by rw [placeOffer_shape]
@[simp] theorem placeOffer_cause : (placeOffer s).cause = s.cause := by rw [placeOffer_shape]
@[simp] theorem placeOffer_integrityMark : (placeOffer s).integrityMark = s.integrityMark :=
  by rw [placeOffer_shape]
@[simp] theorem placeOffer_policy : (placeOffer s).policy = s.policy := by rw [placeOffer_shape]
@[simp] theorem placeOffer_faultLine : (placeOffer s).faultLine = s.faultLine := by rw [placeOffer_shape]
@[simp] theorem placeOffer_warnLine : (placeOffer s).warnLine = s.warnLine := by rw [placeOffer_shape]
@[simp] theorem placeOffer_flush : (placeOffer s).flush = s.flush := by rw [placeOffer_shape]
@[simp] theorem placeOffer_tagBase : (placeOffer s).tagBase = s.tagBase := by rw [placeOffer_shape]
@[simp] theorem placeOffer_progress : (placeOffer s).progress = s.progress := by rw [placeOffer_shape]
@[simp] theorem placeOffer_upLink : (placeOffer s).upLink = s.upLink := by rw [placeOffer_shape]
@[simp] theorem placeOffer_tagsInUse : (placeOffer s).tagsInUse = s.tagsInUse := by rw [placeOffer_shape]
@[simp] theorem placeOffer_completions : (placeOffer s).completions = s.completions := by rw [placeOffer_shape]
@[simp] theorem placeOffer_noticeSlot : (placeOffer s).noticeSlot = s.noticeSlot := by rw [placeOffer_shape]
@[simp] theorem placeOffer_txOffered : (placeOffer s).txOffered = s.txOffered := by rw [placeOffer_shape]
@[simp] theorem placeOffer_txLast : (placeOffer s).txLast = s.txLast := by rw [placeOffer_shape]
@[simp] theorem placeOffer_downLink : (placeOffer s).downLink = s.downLink := by rw [placeOffer_shape]
@[simp] theorem placeOffer_outstanding : (placeOffer s).outstanding = s.outstanding := by rw [placeOffer_shape]
@[simp] theorem placeOffer_heldTags : (placeOffer s).heldTags = s.heldTags := by rw [placeOffer_shape]
@[simp] theorem placeOffer_tagWaits : (placeOffer s).tagWaits = s.tagWaits := by rw [placeOffer_shape]
@[simp] theorem placeOffer_produced : (placeOffer s).produced = s.produced := by rw [placeOffer_shape]
@[simp] theorem placeOffer_offers : (placeOffer s).offers = s.offers := by rw [placeOffer_shape]
@[simp] theorem placeOffer_lastClass : (placeOffer s).lastClass = s.lastClass := by rw [placeOffer_shape]
@[simp] theorem placeOffer_stage : (placeOffer s).stage = s.stage := by rw [placeOffer_shape]
@[simp] theorem placeOffer_inFlight : (placeOffer s).inFlight = s.inFlight := by rw [placeOffer_shape]
@[simp] theorem placeOffer_drains : (placeOffer s).drains = s.drains := by rw [placeOffer_shape]
@[simp] theorem placeOffer_ways : (placeOffer s).ways = s.ways := by rw [placeOffer_shape]
@[simp] theorem placeOffer_lru : (placeOffer s).lru = s.lru := by rw [placeOffer_shape]
@[simp] theorem placeOffer_fills : (placeOffer s).fills = s.fills := by rw [placeOffer_shape]
@[simp] theorem placeOffer_fillWaits : (placeOffer s).fillWaits = s.fillWaits := by rw [placeOffer_shape]
@[simp] theorem placeOffer_fillSerial : (placeOffer s).fillSerial = s.fillSerial := by rw [placeOffer_shape]
@[simp] theorem placeOffer_missQueue : (placeOffer s).missQueue = s.missQueue := by rw [placeOffer_shape]
@[simp] theorem placeOffer_poisonings : (placeOffer s).poisonings = s.poisonings := by rw [placeOffer_shape]
@[simp] theorem placeOffer_corrected : (placeOffer s).corrected = s.corrected := by rw [placeOffer_shape]
@[simp] theorem placeOffer_correctedLimit : (placeOffer s).correctedLimit = s.correctedLimit :=
  by rw [placeOffer_shape]
@[simp] theorem placeOffer_firstCorrected : (placeOffer s).firstCorrected = s.firstCorrected :=
  by rw [placeOffer_shape]
@[simp] theorem placeOffer_hold : (placeOffer s).hold = s.hold := by rw [placeOffer_shape]
@[simp] theorem placeOffer_poisonList : (placeOffer s).poisonList = s.poisonList := by rw [placeOffer_shape]
@[simp] theorem placeOffer_domains : (placeOffer s).domains = s.domains := by rw [placeOffer_shape]
@[simp] theorem placeOffer_grants : (placeOffer s).grants = s.grants := by rw [placeOffer_shape]
@[simp] theorem placeOffer_grantSerial : (placeOffer s).grantSerial = s.grantSerial := by rw [placeOffer_shape]
@[simp] theorem placeOffer_requests : (placeOffer s).requests = s.requests := by rw [placeOffer_shape]
@[simp] theorem placeOffer_running : (placeOffer s).running = s.running := by rw [placeOffer_shape]
@[simp] theorem placeOffer_results : (placeOffer s).results = s.results := by rw [placeOffer_shape]
@[simp] theorem placeOffer_channels : (placeOffer s).channels = s.channels := by rw [placeOffer_shape]
@[simp] theorem placeOffer_warm : (placeOffer s).warm = s.warm := by rw [placeOffer_shape]
@[simp] theorem placeOffer_units : (placeOffer s).units = s.units := by rw [placeOffer_shape]
@[simp] theorem placeOffer_lastServed : (placeOffer s).lastServed = s.lastServed := by rw [placeOffer_shape]
@[simp] theorem placeOffer_slots : (placeOffer s).slots = s.slots := by rw [placeOffer_shape]
@[simp] theorem placeOffer_regions : (placeOffer s).regions = s.regions := by rw [placeOffer_shape]
@[simp] theorem placeOffer_freeze : (placeOffer s).freeze = s.freeze := by rw [placeOffer_shape]
@[simp] theorem placeOffer_log : (placeOffer s).log = s.log := by rw [placeOffer_shape]
@[simp] theorem placeOffer_notices : (placeOffer s).notices = s.notices := by rw [placeOffer_shape]
@[simp] theorem placeOffer_pending : (placeOffer s).pending = s.pending := by rw [placeOffer_shape]

/-! ### `finish` -/

theorem finish_shape :
    finish s = { s with
    notices := (finish s).notices,
    noticeSlot := (finish s).noticeSlot,
    txOffered := (finish s).txOffered,
    txLast := (finish s).txLast,
    downOffered := (finish s).downOffered } := by
  unfold finish; rw [placeOffer_shape, placeTx_shape, placeNotice_shape]

@[simp] theorem finish_base : (finish s).base = s.base := by rw [finish_shape]
@[simp] theorem finish_requested : (finish s).requested = s.requested := by rw [finish_shape]
@[simp] theorem finish_size : (finish s).size = s.size := by rw [finish_shape]
@[simp] theorem finish_mode : (finish s).mode = s.mode := by rw [finish_shape]
@[simp] theorem finish_cause : (finish s).cause = s.cause := by rw [finish_shape]
@[simp] theorem finish_integrityMark : (finish s).integrityMark = s.integrityMark := by rw [finish_shape]
@[simp] theorem finish_policy : (finish s).policy = s.policy := by rw [finish_shape]
@[simp] theorem finish_faultLine : (finish s).faultLine = s.faultLine := by rw [finish_shape]
@[simp] theorem finish_warnLine : (finish s).warnLine = s.warnLine := by rw [finish_shape]
@[simp] theorem finish_flush : (finish s).flush = s.flush := by rw [finish_shape]
@[simp] theorem finish_tagBase : (finish s).tagBase = s.tagBase := by rw [finish_shape]
@[simp] theorem finish_progress : (finish s).progress = s.progress := by rw [finish_shape]
@[simp] theorem finish_upLink : (finish s).upLink = s.upLink := by rw [finish_shape]
@[simp] theorem finish_tagsInUse : (finish s).tagsInUse = s.tagsInUse := by rw [finish_shape]
@[simp] theorem finish_completions : (finish s).completions = s.completions := by rw [finish_shape]
@[simp] theorem finish_downLink : (finish s).downLink = s.downLink := by rw [finish_shape]
@[simp] theorem finish_outstanding : (finish s).outstanding = s.outstanding := by rw [finish_shape]
@[simp] theorem finish_heldTags : (finish s).heldTags = s.heldTags := by rw [finish_shape]
@[simp] theorem finish_tagWaits : (finish s).tagWaits = s.tagWaits := by rw [finish_shape]
@[simp] theorem finish_produced : (finish s).produced = s.produced := by rw [finish_shape]
@[simp] theorem finish_offers : (finish s).offers = s.offers := by rw [finish_shape]
@[simp] theorem finish_lastClass : (finish s).lastClass = s.lastClass := by rw [finish_shape]
@[simp] theorem finish_stage : (finish s).stage = s.stage := by rw [finish_shape]
@[simp] theorem finish_inFlight : (finish s).inFlight = s.inFlight := by rw [finish_shape]
@[simp] theorem finish_drains : (finish s).drains = s.drains := by rw [finish_shape]
@[simp] theorem finish_ways : (finish s).ways = s.ways := by rw [finish_shape]
@[simp] theorem finish_lru : (finish s).lru = s.lru := by rw [finish_shape]
@[simp] theorem finish_fills : (finish s).fills = s.fills := by rw [finish_shape]
@[simp] theorem finish_fillWaits : (finish s).fillWaits = s.fillWaits := by rw [finish_shape]
@[simp] theorem finish_fillSerial : (finish s).fillSerial = s.fillSerial := by rw [finish_shape]
@[simp] theorem finish_missQueue : (finish s).missQueue = s.missQueue := by rw [finish_shape]
@[simp] theorem finish_poisonings : (finish s).poisonings = s.poisonings := by rw [finish_shape]
@[simp] theorem finish_corrected : (finish s).corrected = s.corrected := by rw [finish_shape]
@[simp] theorem finish_correctedLimit : (finish s).correctedLimit = s.correctedLimit := by rw [finish_shape]
@[simp] theorem finish_firstCorrected : (finish s).firstCorrected = s.firstCorrected := by rw [finish_shape]
@[simp] theorem finish_hold : (finish s).hold = s.hold := by rw [finish_shape]
@[simp] theorem finish_poisonList : (finish s).poisonList = s.poisonList := by rw [finish_shape]
@[simp] theorem finish_domains : (finish s).domains = s.domains := by rw [finish_shape]
@[simp] theorem finish_grants : (finish s).grants = s.grants := by rw [finish_shape]
@[simp] theorem finish_grantSerial : (finish s).grantSerial = s.grantSerial := by rw [finish_shape]
@[simp] theorem finish_requests : (finish s).requests = s.requests := by rw [finish_shape]
@[simp] theorem finish_running : (finish s).running = s.running := by rw [finish_shape]
@[simp] theorem finish_results : (finish s).results = s.results := by rw [finish_shape]
@[simp] theorem finish_channels : (finish s).channels = s.channels := by rw [finish_shape]
@[simp] theorem finish_warm : (finish s).warm = s.warm := by rw [finish_shape]
@[simp] theorem finish_units : (finish s).units = s.units := by rw [finish_shape]
@[simp] theorem finish_lastServed : (finish s).lastServed = s.lastServed := by rw [finish_shape]
@[simp] theorem finish_slots : (finish s).slots = s.slots := by rw [finish_shape]
@[simp] theorem finish_regions : (finish s).regions = s.regions := by rw [finish_shape]
@[simp] theorem finish_freeze : (finish s).freeze = s.freeze := by rw [finish_shape]
@[simp] theorem finish_log : (finish s).log = s.log := by rw [finish_shape]
@[simp] theorem finish_pending : (finish s).pending = s.pending := by rw [finish_shape]

/-! ### `enterCause` -/

theorem enterCause_shape (x : Cause) :
    enterCause x s = { s with
    mode := (enterCause x s).mode,
    cause := (enterCause x s).cause,
    integrityMark := (enterCause x s).integrityMark,
    notices := (enterCause x s).notices } := by
  unfold enterCause; split
  · rfl
  · split
    · rw [raise_shape]
    · rw [raise_shape]
    · rfl

@[simp] theorem enterCause_base (x : Cause) : (enterCause x s).base = s.base := by rw [enterCause_shape]
@[simp] theorem enterCause_requested (x : Cause) : (enterCause x s).requested = s.requested :=
  by rw [enterCause_shape]
@[simp] theorem enterCause_size (x : Cause) : (enterCause x s).size = s.size := by rw [enterCause_shape]
@[simp] theorem enterCause_policy (x : Cause) : (enterCause x s).policy = s.policy := by rw [enterCause_shape]
@[simp] theorem enterCause_faultLine (x : Cause) : (enterCause x s).faultLine = s.faultLine :=
  by rw [enterCause_shape]
@[simp] theorem enterCause_warnLine (x : Cause) : (enterCause x s).warnLine = s.warnLine :=
  by rw [enterCause_shape]
@[simp] theorem enterCause_flush (x : Cause) : (enterCause x s).flush = s.flush := by rw [enterCause_shape]
@[simp] theorem enterCause_tagBase (x : Cause) : (enterCause x s).tagBase = s.tagBase := by rw [enterCause_shape]
@[simp] theorem enterCause_progress (x : Cause) : (enterCause x s).progress = s.progress :=
  by rw [enterCause_shape]
@[simp] theorem enterCause_upLink (x : Cause) : (enterCause x s).upLink = s.upLink := by rw [enterCause_shape]
@[simp] theorem enterCause_tagsInUse (x : Cause) : (enterCause x s).tagsInUse = s.tagsInUse :=
  by rw [enterCause_shape]
@[simp] theorem enterCause_completions (x : Cause) : (enterCause x s).completions = s.completions :=
  by rw [enterCause_shape]
@[simp] theorem enterCause_noticeSlot (x : Cause) : (enterCause x s).noticeSlot = s.noticeSlot :=
  by rw [enterCause_shape]
@[simp] theorem enterCause_txOffered (x : Cause) : (enterCause x s).txOffered = s.txOffered :=
  by rw [enterCause_shape]
@[simp] theorem enterCause_txLast (x : Cause) : (enterCause x s).txLast = s.txLast := by rw [enterCause_shape]
@[simp] theorem enterCause_downLink (x : Cause) : (enterCause x s).downLink = s.downLink :=
  by rw [enterCause_shape]
@[simp] theorem enterCause_outstanding (x : Cause) : (enterCause x s).outstanding = s.outstanding :=
  by rw [enterCause_shape]
@[simp] theorem enterCause_heldTags (x : Cause) : (enterCause x s).heldTags = s.heldTags :=
  by rw [enterCause_shape]
@[simp] theorem enterCause_tagWaits (x : Cause) : (enterCause x s).tagWaits = s.tagWaits :=
  by rw [enterCause_shape]
@[simp] theorem enterCause_produced (x : Cause) : (enterCause x s).produced = s.produced :=
  by rw [enterCause_shape]
@[simp] theorem enterCause_offers (x : Cause) : (enterCause x s).offers = s.offers := by rw [enterCause_shape]
@[simp] theorem enterCause_downOffered (x : Cause) : (enterCause x s).downOffered = s.downOffered :=
  by rw [enterCause_shape]
@[simp] theorem enterCause_lastClass (x : Cause) : (enterCause x s).lastClass = s.lastClass :=
  by rw [enterCause_shape]
@[simp] theorem enterCause_stage (x : Cause) : (enterCause x s).stage = s.stage := by rw [enterCause_shape]
@[simp] theorem enterCause_inFlight (x : Cause) : (enterCause x s).inFlight = s.inFlight :=
  by rw [enterCause_shape]
@[simp] theorem enterCause_drains (x : Cause) : (enterCause x s).drains = s.drains := by rw [enterCause_shape]
@[simp] theorem enterCause_ways (x : Cause) : (enterCause x s).ways = s.ways := by rw [enterCause_shape]
@[simp] theorem enterCause_lru (x : Cause) : (enterCause x s).lru = s.lru := by rw [enterCause_shape]
@[simp] theorem enterCause_fills (x : Cause) : (enterCause x s).fills = s.fills := by rw [enterCause_shape]
@[simp] theorem enterCause_fillWaits (x : Cause) : (enterCause x s).fillWaits = s.fillWaits :=
  by rw [enterCause_shape]
@[simp] theorem enterCause_fillSerial (x : Cause) : (enterCause x s).fillSerial = s.fillSerial :=
  by rw [enterCause_shape]
@[simp] theorem enterCause_missQueue (x : Cause) : (enterCause x s).missQueue = s.missQueue :=
  by rw [enterCause_shape]
@[simp] theorem enterCause_poisonings (x : Cause) : (enterCause x s).poisonings = s.poisonings :=
  by rw [enterCause_shape]
@[simp] theorem enterCause_corrected (x : Cause) : (enterCause x s).corrected = s.corrected :=
  by rw [enterCause_shape]
@[simp] theorem enterCause_correctedLimit (x : Cause) : (enterCause x s).correctedLimit = s.correctedLimit :=
  by rw [enterCause_shape]
@[simp] theorem enterCause_firstCorrected (x : Cause) : (enterCause x s).firstCorrected = s.firstCorrected :=
  by rw [enterCause_shape]
@[simp] theorem enterCause_hold (x : Cause) : (enterCause x s).hold = s.hold := by rw [enterCause_shape]
@[simp] theorem enterCause_poisonList (x : Cause) : (enterCause x s).poisonList = s.poisonList :=
  by rw [enterCause_shape]
@[simp] theorem enterCause_domains (x : Cause) : (enterCause x s).domains = s.domains := by rw [enterCause_shape]
@[simp] theorem enterCause_grants (x : Cause) : (enterCause x s).grants = s.grants := by rw [enterCause_shape]
@[simp] theorem enterCause_grantSerial (x : Cause) : (enterCause x s).grantSerial = s.grantSerial :=
  by rw [enterCause_shape]
@[simp] theorem enterCause_requests (x : Cause) : (enterCause x s).requests = s.requests :=
  by rw [enterCause_shape]
@[simp] theorem enterCause_running (x : Cause) : (enterCause x s).running = s.running := by rw [enterCause_shape]
@[simp] theorem enterCause_results (x : Cause) : (enterCause x s).results = s.results := by rw [enterCause_shape]
@[simp] theorem enterCause_channels (x : Cause) : (enterCause x s).channels = s.channels :=
  by rw [enterCause_shape]
@[simp] theorem enterCause_warm (x : Cause) : (enterCause x s).warm = s.warm := by rw [enterCause_shape]
@[simp] theorem enterCause_units (x : Cause) : (enterCause x s).units = s.units := by rw [enterCause_shape]
@[simp] theorem enterCause_lastServed (x : Cause) : (enterCause x s).lastServed = s.lastServed :=
  by rw [enterCause_shape]
@[simp] theorem enterCause_slots (x : Cause) : (enterCause x s).slots = s.slots := by rw [enterCause_shape]
@[simp] theorem enterCause_regions (x : Cause) : (enterCause x s).regions = s.regions := by rw [enterCause_shape]
@[simp] theorem enterCause_freeze (x : Cause) : (enterCause x s).freeze = s.freeze := by rw [enterCause_shape]
@[simp] theorem enterCause_log (x : Cause) : (enterCause x s).log = s.log := by rw [enterCause_shape]
@[simp] theorem enterCause_pending (x : Cause) : (enterCause x s).pending = s.pending := by rw [enterCause_shape]

/-! ### `pushResponse` -/

theorem pushResponse_shape (c : Nat) (r : Response) :
    pushResponse c r s = { s with
    channels := (pushResponse c r s).channels,
    notices := (pushResponse c r s).notices } := by
  unfold pushResponse; dsimp only; rw [raise_shape]; rfl

@[simp] theorem pushResponse_base (c : Nat) (r : Response) : (pushResponse c r s).base = s.base :=
  by rw [pushResponse_shape]
@[simp] theorem pushResponse_requested (c : Nat) (r : Response) : (pushResponse c r s).requested = s.requested :=
  by rw [pushResponse_shape]
@[simp] theorem pushResponse_size (c : Nat) (r : Response) : (pushResponse c r s).size = s.size :=
  by rw [pushResponse_shape]
@[simp] theorem pushResponse_mode (c : Nat) (r : Response) : (pushResponse c r s).mode = s.mode :=
  by rw [pushResponse_shape]
@[simp] theorem pushResponse_cause (c : Nat) (r : Response) : (pushResponse c r s).cause = s.cause :=
  by rw [pushResponse_shape]
@[simp] theorem pushResponse_integrityMark (c : Nat) (r : Response) : (pushResponse c r s).integrityMark =
    s.integrityMark :=
  by rw [pushResponse_shape]
@[simp] theorem pushResponse_policy (c : Nat) (r : Response) : (pushResponse c r s).policy = s.policy :=
  by rw [pushResponse_shape]
@[simp] theorem pushResponse_faultLine (c : Nat) (r : Response) : (pushResponse c r s).faultLine = s.faultLine :=
  by rw [pushResponse_shape]
@[simp] theorem pushResponse_warnLine (c : Nat) (r : Response) : (pushResponse c r s).warnLine = s.warnLine :=
  by rw [pushResponse_shape]
@[simp] theorem pushResponse_flush (c : Nat) (r : Response) : (pushResponse c r s).flush = s.flush :=
  by rw [pushResponse_shape]
@[simp] theorem pushResponse_tagBase (c : Nat) (r : Response) : (pushResponse c r s).tagBase = s.tagBase :=
  by rw [pushResponse_shape]
@[simp] theorem pushResponse_progress (c : Nat) (r : Response) : (pushResponse c r s).progress = s.progress :=
  by rw [pushResponse_shape]
@[simp] theorem pushResponse_upLink (c : Nat) (r : Response) : (pushResponse c r s).upLink = s.upLink :=
  by rw [pushResponse_shape]
@[simp] theorem pushResponse_tagsInUse (c : Nat) (r : Response) : (pushResponse c r s).tagsInUse = s.tagsInUse :=
  by rw [pushResponse_shape]
@[simp] theorem pushResponse_completions (c : Nat) (r : Response) : (pushResponse c r s).completions = s.completions :=
  by rw [pushResponse_shape]
@[simp] theorem pushResponse_noticeSlot (c : Nat) (r : Response) : (pushResponse c r s).noticeSlot = s.noticeSlot :=
  by rw [pushResponse_shape]
@[simp] theorem pushResponse_txOffered (c : Nat) (r : Response) : (pushResponse c r s).txOffered = s.txOffered :=
  by rw [pushResponse_shape]
@[simp] theorem pushResponse_txLast (c : Nat) (r : Response) : (pushResponse c r s).txLast = s.txLast :=
  by rw [pushResponse_shape]
@[simp] theorem pushResponse_downLink (c : Nat) (r : Response) : (pushResponse c r s).downLink = s.downLink :=
  by rw [pushResponse_shape]
@[simp] theorem pushResponse_outstanding (c : Nat) (r : Response) : (pushResponse c r s).outstanding = s.outstanding :=
  by rw [pushResponse_shape]
@[simp] theorem pushResponse_heldTags (c : Nat) (r : Response) : (pushResponse c r s).heldTags = s.heldTags :=
  by rw [pushResponse_shape]
@[simp] theorem pushResponse_tagWaits (c : Nat) (r : Response) : (pushResponse c r s).tagWaits = s.tagWaits :=
  by rw [pushResponse_shape]
@[simp] theorem pushResponse_produced (c : Nat) (r : Response) : (pushResponse c r s).produced = s.produced :=
  by rw [pushResponse_shape]
@[simp] theorem pushResponse_offers (c : Nat) (r : Response) : (pushResponse c r s).offers = s.offers :=
  by rw [pushResponse_shape]
@[simp] theorem pushResponse_downOffered (c : Nat) (r : Response) : (pushResponse c r s).downOffered = s.downOffered :=
  by rw [pushResponse_shape]
@[simp] theorem pushResponse_lastClass (c : Nat) (r : Response) : (pushResponse c r s).lastClass = s.lastClass :=
  by rw [pushResponse_shape]
@[simp] theorem pushResponse_stage (c : Nat) (r : Response) : (pushResponse c r s).stage = s.stage :=
  by rw [pushResponse_shape]
@[simp] theorem pushResponse_inFlight (c : Nat) (r : Response) : (pushResponse c r s).inFlight = s.inFlight :=
  by rw [pushResponse_shape]
@[simp] theorem pushResponse_drains (c : Nat) (r : Response) : (pushResponse c r s).drains = s.drains :=
  by rw [pushResponse_shape]
@[simp] theorem pushResponse_ways (c : Nat) (r : Response) : (pushResponse c r s).ways = s.ways :=
  by rw [pushResponse_shape]
@[simp] theorem pushResponse_lru (c : Nat) (r : Response) : (pushResponse c r s).lru = s.lru :=
  by rw [pushResponse_shape]
@[simp] theorem pushResponse_fills (c : Nat) (r : Response) : (pushResponse c r s).fills = s.fills :=
  by rw [pushResponse_shape]
@[simp] theorem pushResponse_fillWaits (c : Nat) (r : Response) : (pushResponse c r s).fillWaits = s.fillWaits :=
  by rw [pushResponse_shape]
@[simp] theorem pushResponse_fillSerial (c : Nat) (r : Response) : (pushResponse c r s).fillSerial = s.fillSerial :=
  by rw [pushResponse_shape]
@[simp] theorem pushResponse_missQueue (c : Nat) (r : Response) : (pushResponse c r s).missQueue = s.missQueue :=
  by rw [pushResponse_shape]
@[simp] theorem pushResponse_poisonings (c : Nat) (r : Response) : (pushResponse c r s).poisonings = s.poisonings :=
  by rw [pushResponse_shape]
@[simp] theorem pushResponse_corrected (c : Nat) (r : Response) : (pushResponse c r s).corrected = s.corrected :=
  by rw [pushResponse_shape]
@[simp] theorem pushResponse_correctedLimit (c : Nat) (r : Response) : (pushResponse c r s).correctedLimit =
    s.correctedLimit :=
  by rw [pushResponse_shape]
@[simp] theorem pushResponse_firstCorrected (c : Nat) (r : Response) : (pushResponse c r s).firstCorrected =
    s.firstCorrected :=
  by rw [pushResponse_shape]
@[simp] theorem pushResponse_hold (c : Nat) (r : Response) : (pushResponse c r s).hold = s.hold :=
  by rw [pushResponse_shape]
@[simp] theorem pushResponse_poisonList (c : Nat) (r : Response) : (pushResponse c r s).poisonList = s.poisonList :=
  by rw [pushResponse_shape]
@[simp] theorem pushResponse_domains (c : Nat) (r : Response) : (pushResponse c r s).domains = s.domains :=
  by rw [pushResponse_shape]
@[simp] theorem pushResponse_grants (c : Nat) (r : Response) : (pushResponse c r s).grants = s.grants :=
  by rw [pushResponse_shape]
@[simp] theorem pushResponse_grantSerial (c : Nat) (r : Response) : (pushResponse c r s).grantSerial = s.grantSerial :=
  by rw [pushResponse_shape]
@[simp] theorem pushResponse_requests (c : Nat) (r : Response) : (pushResponse c r s).requests = s.requests :=
  by rw [pushResponse_shape]
@[simp] theorem pushResponse_running (c : Nat) (r : Response) : (pushResponse c r s).running = s.running :=
  by rw [pushResponse_shape]
@[simp] theorem pushResponse_results (c : Nat) (r : Response) : (pushResponse c r s).results = s.results :=
  by rw [pushResponse_shape]
@[simp] theorem pushResponse_warm (c : Nat) (r : Response) : (pushResponse c r s).warm = s.warm :=
  by rw [pushResponse_shape]
@[simp] theorem pushResponse_units (c : Nat) (r : Response) : (pushResponse c r s).units = s.units :=
  by rw [pushResponse_shape]
@[simp] theorem pushResponse_lastServed (c : Nat) (r : Response) : (pushResponse c r s).lastServed = s.lastServed :=
  by rw [pushResponse_shape]
@[simp] theorem pushResponse_slots (c : Nat) (r : Response) : (pushResponse c r s).slots = s.slots :=
  by rw [pushResponse_shape]
@[simp] theorem pushResponse_regions (c : Nat) (r : Response) : (pushResponse c r s).regions = s.regions :=
  by rw [pushResponse_shape]
@[simp] theorem pushResponse_freeze (c : Nat) (r : Response) : (pushResponse c r s).freeze = s.freeze :=
  by rw [pushResponse_shape]
@[simp] theorem pushResponse_log (c : Nat) (r : Response) : (pushResponse c r s).log = s.log :=
  by rw [pushResponse_shape]
@[simp] theorem pushResponse_pending (c : Nat) (r : Response) : (pushResponse c r s).pending = s.pending :=
  by rw [pushResponse_shape]

/-! ### `respond` -/

theorem respond_shape (c : Nat) (b : Line) (r : Result) (p : Report) :
    respond c b r p s = { s with
    channels := (respond c b r p s).channels,
    notices := (respond c b r p s).notices } := by
  unfold respond; dsimp only; rw [pushResponse_shape]; rfl

@[simp] theorem respond_base (c : Nat) (b : Line) (r : Result) (p : Report) : (respond c b r p s).base = s.base :=
  by rw [respond_shape]
@[simp] theorem respond_requested (c : Nat) (b : Line) (r : Result) (p : Report) : (respond c b r p
    s).requested = s.requested :=
  by rw [respond_shape]
@[simp] theorem respond_size (c : Nat) (b : Line) (r : Result) (p : Report) : (respond c b r p s).size = s.size :=
  by rw [respond_shape]
@[simp] theorem respond_mode (c : Nat) (b : Line) (r : Result) (p : Report) : (respond c b r p s).mode = s.mode :=
  by rw [respond_shape]
@[simp] theorem respond_cause (c : Nat) (b : Line) (r : Result) (p : Report) : (respond c b r p s).cause = s.cause :=
  by rw [respond_shape]
@[simp] theorem respond_integrityMark (c : Nat) (b : Line) (r : Result) (p : Report) : (respond c b r p
    s).integrityMark = s.integrityMark :=
  by rw [respond_shape]
@[simp] theorem respond_policy (c : Nat) (b : Line) (r : Result) (p : Report) : (respond c b r p s).policy = s.policy :=
  by rw [respond_shape]
@[simp] theorem respond_faultLine (c : Nat) (b : Line) (r : Result) (p : Report) : (respond c b r p
    s).faultLine = s.faultLine :=
  by rw [respond_shape]
@[simp] theorem respond_warnLine (c : Nat) (b : Line) (r : Result) (p : Report) : (respond c b r p
    s).warnLine = s.warnLine :=
  by rw [respond_shape]
@[simp] theorem respond_flush (c : Nat) (b : Line) (r : Result) (p : Report) : (respond c b r p s).flush = s.flush :=
  by rw [respond_shape]
@[simp] theorem respond_tagBase (c : Nat) (b : Line) (r : Result) (p : Report) : (respond c b r p s).tagBase = s.tagBase :=
  by rw [respond_shape]
@[simp] theorem respond_progress (c : Nat) (b : Line) (r : Result) (p : Report) : (respond c b r p
    s).progress = s.progress :=
  by rw [respond_shape]
@[simp] theorem respond_upLink (c : Nat) (b : Line) (r : Result) (p : Report) : (respond c b r p s).upLink = s.upLink :=
  by rw [respond_shape]
@[simp] theorem respond_tagsInUse (c : Nat) (b : Line) (r : Result) (p : Report) : (respond c b r p
    s).tagsInUse = s.tagsInUse :=
  by rw [respond_shape]
@[simp] theorem respond_completions (c : Nat) (b : Line) (r : Result) (p : Report) : (respond c b r p
    s).completions = s.completions :=
  by rw [respond_shape]
@[simp] theorem respond_noticeSlot (c : Nat) (b : Line) (r : Result) (p : Report) : (respond c b r p
    s).noticeSlot = s.noticeSlot :=
  by rw [respond_shape]
@[simp] theorem respond_txOffered (c : Nat) (b : Line) (r : Result) (p : Report) : (respond c b r p
    s).txOffered = s.txOffered :=
  by rw [respond_shape]
@[simp] theorem respond_txLast (c : Nat) (b : Line) (r : Result) (p : Report) : (respond c b r p s).txLast = s.txLast :=
  by rw [respond_shape]
@[simp] theorem respond_downLink (c : Nat) (b : Line) (r : Result) (p : Report) : (respond c b r p
    s).downLink = s.downLink :=
  by rw [respond_shape]
@[simp] theorem respond_outstanding (c : Nat) (b : Line) (r : Result) (p : Report) : (respond c b r p
    s).outstanding = s.outstanding :=
  by rw [respond_shape]
@[simp] theorem respond_heldTags (c : Nat) (b : Line) (r : Result) (p : Report) : (respond c b r p
    s).heldTags = s.heldTags :=
  by rw [respond_shape]
@[simp] theorem respond_tagWaits (c : Nat) (b : Line) (r : Result) (p : Report) : (respond c b r p
    s).tagWaits = s.tagWaits :=
  by rw [respond_shape]
@[simp] theorem respond_produced (c : Nat) (b : Line) (r : Result) (p : Report) : (respond c b r p
    s).produced = s.produced :=
  by rw [respond_shape]
@[simp] theorem respond_offers (c : Nat) (b : Line) (r : Result) (p : Report) : (respond c b r p s).offers = s.offers :=
  by rw [respond_shape]
@[simp] theorem respond_downOffered (c : Nat) (b : Line) (r : Result) (p : Report) : (respond c b r p
    s).downOffered = s.downOffered :=
  by rw [respond_shape]
@[simp] theorem respond_lastClass (c : Nat) (b : Line) (r : Result) (p : Report) : (respond c b r p
    s).lastClass = s.lastClass :=
  by rw [respond_shape]
@[simp] theorem respond_stage (c : Nat) (b : Line) (r : Result) (p : Report) : (respond c b r p s).stage = s.stage :=
  by rw [respond_shape]
@[simp] theorem respond_inFlight (c : Nat) (b : Line) (r : Result) (p : Report) : (respond c b r p
    s).inFlight = s.inFlight :=
  by rw [respond_shape]
@[simp] theorem respond_drains (c : Nat) (b : Line) (r : Result) (p : Report) : (respond c b r p s).drains = s.drains :=
  by rw [respond_shape]
@[simp] theorem respond_ways (c : Nat) (b : Line) (r : Result) (p : Report) : (respond c b r p s).ways = s.ways :=
  by rw [respond_shape]
@[simp] theorem respond_lru (c : Nat) (b : Line) (r : Result) (p : Report) : (respond c b r p s).lru = s.lru :=
  by rw [respond_shape]
@[simp] theorem respond_fills (c : Nat) (b : Line) (r : Result) (p : Report) : (respond c b r p s).fills = s.fills :=
  by rw [respond_shape]
@[simp] theorem respond_fillWaits (c : Nat) (b : Line) (r : Result) (p : Report) : (respond c b r p
    s).fillWaits = s.fillWaits :=
  by rw [respond_shape]
@[simp] theorem respond_fillSerial (c : Nat) (b : Line) (r : Result) (p : Report) : (respond c b r p
    s).fillSerial = s.fillSerial :=
  by rw [respond_shape]
@[simp] theorem respond_missQueue (c : Nat) (b : Line) (r : Result) (p : Report) : (respond c b r p
    s).missQueue = s.missQueue :=
  by rw [respond_shape]
@[simp] theorem respond_poisonings (c : Nat) (b : Line) (r : Result) (p : Report) : (respond c b r p
    s).poisonings = s.poisonings :=
  by rw [respond_shape]
@[simp] theorem respond_corrected (c : Nat) (b : Line) (r : Result) (p : Report) : (respond c b r p
    s).corrected = s.corrected :=
  by rw [respond_shape]
@[simp] theorem respond_correctedLimit (c : Nat) (b : Line) (r : Result) (p : Report) : (respond c b r p
    s).correctedLimit = s.correctedLimit :=
  by rw [respond_shape]
@[simp] theorem respond_firstCorrected (c : Nat) (b : Line) (r : Result) (p : Report) : (respond c b r p
    s).firstCorrected = s.firstCorrected :=
  by rw [respond_shape]
@[simp] theorem respond_hold (c : Nat) (b : Line) (r : Result) (p : Report) : (respond c b r p s).hold = s.hold :=
  by rw [respond_shape]
@[simp] theorem respond_poisonList (c : Nat) (b : Line) (r : Result) (p : Report) : (respond c b r p
    s).poisonList = s.poisonList :=
  by rw [respond_shape]
@[simp] theorem respond_domains (c : Nat) (b : Line) (r : Result) (p : Report) : (respond c b r p s).domains = s.domains :=
  by rw [respond_shape]
@[simp] theorem respond_grants (c : Nat) (b : Line) (r : Result) (p : Report) : (respond c b r p s).grants = s.grants :=
  by rw [respond_shape]
@[simp] theorem respond_grantSerial (c : Nat) (b : Line) (r : Result) (p : Report) : (respond c b r p
    s).grantSerial = s.grantSerial :=
  by rw [respond_shape]
@[simp] theorem respond_requests (c : Nat) (b : Line) (r : Result) (p : Report) : (respond c b r p
    s).requests = s.requests :=
  by rw [respond_shape]
@[simp] theorem respond_running (c : Nat) (b : Line) (r : Result) (p : Report) : (respond c b r p s).running = s.running :=
  by rw [respond_shape]
@[simp] theorem respond_results (c : Nat) (b : Line) (r : Result) (p : Report) : (respond c b r p s).results = s.results :=
  by rw [respond_shape]
@[simp] theorem respond_warm (c : Nat) (b : Line) (r : Result) (p : Report) : (respond c b r p s).warm = s.warm :=
  by rw [respond_shape]
@[simp] theorem respond_units (c : Nat) (b : Line) (r : Result) (p : Report) : (respond c b r p s).units = s.units :=
  by rw [respond_shape]
@[simp] theorem respond_lastServed (c : Nat) (b : Line) (r : Result) (p : Report) : (respond c b r p
    s).lastServed = s.lastServed :=
  by rw [respond_shape]
@[simp] theorem respond_slots (c : Nat) (b : Line) (r : Result) (p : Report) : (respond c b r p s).slots = s.slots :=
  by rw [respond_shape]
@[simp] theorem respond_regions (c : Nat) (b : Line) (r : Result) (p : Report) : (respond c b r p s).regions = s.regions :=
  by rw [respond_shape]
@[simp] theorem respond_freeze (c : Nat) (b : Line) (r : Result) (p : Report) : (respond c b r p s).freeze = s.freeze :=
  by rw [respond_shape]
@[simp] theorem respond_log (c : Nat) (b : Line) (r : Result) (p : Report) : (respond c b r p s).log = s.log :=
  by rw [respond_shape]
@[simp] theorem respond_pending (c : Nat) (b : Line) (r : Result) (p : Report) : (respond c b r p s).pending = s.pending :=
  by rw [respond_shape]

/-! ### `dequeue` -/

theorem dequeue_shape (c : Nat) :
    dequeue c s = { s with channels := (dequeue c s).channels } := by
  unfold dequeue; dsimp only; split <;> rfl

@[simp] theorem dequeue_base (c : Nat) : (dequeue c s).base = s.base := by rw [dequeue_shape]
@[simp] theorem dequeue_requested (c : Nat) : (dequeue c s).requested = s.requested := by rw [dequeue_shape]
@[simp] theorem dequeue_size (c : Nat) : (dequeue c s).size = s.size := by rw [dequeue_shape]
@[simp] theorem dequeue_mode (c : Nat) : (dequeue c s).mode = s.mode := by rw [dequeue_shape]
@[simp] theorem dequeue_cause (c : Nat) : (dequeue c s).cause = s.cause := by rw [dequeue_shape]
@[simp] theorem dequeue_integrityMark (c : Nat) : (dequeue c s).integrityMark = s.integrityMark :=
  by rw [dequeue_shape]
@[simp] theorem dequeue_policy (c : Nat) : (dequeue c s).policy = s.policy := by rw [dequeue_shape]
@[simp] theorem dequeue_faultLine (c : Nat) : (dequeue c s).faultLine = s.faultLine := by rw [dequeue_shape]
@[simp] theorem dequeue_warnLine (c : Nat) : (dequeue c s).warnLine = s.warnLine := by rw [dequeue_shape]
@[simp] theorem dequeue_flush (c : Nat) : (dequeue c s).flush = s.flush := by rw [dequeue_shape]
@[simp] theorem dequeue_tagBase (c : Nat) : (dequeue c s).tagBase = s.tagBase := by rw [dequeue_shape]
@[simp] theorem dequeue_progress (c : Nat) : (dequeue c s).progress = s.progress := by rw [dequeue_shape]
@[simp] theorem dequeue_upLink (c : Nat) : (dequeue c s).upLink = s.upLink := by rw [dequeue_shape]
@[simp] theorem dequeue_tagsInUse (c : Nat) : (dequeue c s).tagsInUse = s.tagsInUse := by rw [dequeue_shape]
@[simp] theorem dequeue_completions (c : Nat) : (dequeue c s).completions = s.completions := by rw [dequeue_shape]
@[simp] theorem dequeue_noticeSlot (c : Nat) : (dequeue c s).noticeSlot = s.noticeSlot := by rw [dequeue_shape]
@[simp] theorem dequeue_txOffered (c : Nat) : (dequeue c s).txOffered = s.txOffered := by rw [dequeue_shape]
@[simp] theorem dequeue_txLast (c : Nat) : (dequeue c s).txLast = s.txLast := by rw [dequeue_shape]
@[simp] theorem dequeue_downLink (c : Nat) : (dequeue c s).downLink = s.downLink := by rw [dequeue_shape]
@[simp] theorem dequeue_outstanding (c : Nat) : (dequeue c s).outstanding = s.outstanding := by rw [dequeue_shape]
@[simp] theorem dequeue_heldTags (c : Nat) : (dequeue c s).heldTags = s.heldTags := by rw [dequeue_shape]
@[simp] theorem dequeue_tagWaits (c : Nat) : (dequeue c s).tagWaits = s.tagWaits := by rw [dequeue_shape]
@[simp] theorem dequeue_produced (c : Nat) : (dequeue c s).produced = s.produced := by rw [dequeue_shape]
@[simp] theorem dequeue_offers (c : Nat) : (dequeue c s).offers = s.offers := by rw [dequeue_shape]
@[simp] theorem dequeue_downOffered (c : Nat) : (dequeue c s).downOffered = s.downOffered := by rw [dequeue_shape]
@[simp] theorem dequeue_lastClass (c : Nat) : (dequeue c s).lastClass = s.lastClass := by rw [dequeue_shape]
@[simp] theorem dequeue_stage (c : Nat) : (dequeue c s).stage = s.stage := by rw [dequeue_shape]
@[simp] theorem dequeue_inFlight (c : Nat) : (dequeue c s).inFlight = s.inFlight := by rw [dequeue_shape]
@[simp] theorem dequeue_drains (c : Nat) : (dequeue c s).drains = s.drains := by rw [dequeue_shape]
@[simp] theorem dequeue_ways (c : Nat) : (dequeue c s).ways = s.ways := by rw [dequeue_shape]
@[simp] theorem dequeue_lru (c : Nat) : (dequeue c s).lru = s.lru := by rw [dequeue_shape]
@[simp] theorem dequeue_fills (c : Nat) : (dequeue c s).fills = s.fills := by rw [dequeue_shape]
@[simp] theorem dequeue_fillWaits (c : Nat) : (dequeue c s).fillWaits = s.fillWaits := by rw [dequeue_shape]
@[simp] theorem dequeue_fillSerial (c : Nat) : (dequeue c s).fillSerial = s.fillSerial := by rw [dequeue_shape]
@[simp] theorem dequeue_missQueue (c : Nat) : (dequeue c s).missQueue = s.missQueue := by rw [dequeue_shape]
@[simp] theorem dequeue_poisonings (c : Nat) : (dequeue c s).poisonings = s.poisonings := by rw [dequeue_shape]
@[simp] theorem dequeue_corrected (c : Nat) : (dequeue c s).corrected = s.corrected := by rw [dequeue_shape]
@[simp] theorem dequeue_correctedLimit (c : Nat) : (dequeue c s).correctedLimit = s.correctedLimit :=
  by rw [dequeue_shape]
@[simp] theorem dequeue_firstCorrected (c : Nat) : (dequeue c s).firstCorrected = s.firstCorrected :=
  by rw [dequeue_shape]
@[simp] theorem dequeue_hold (c : Nat) : (dequeue c s).hold = s.hold := by rw [dequeue_shape]
@[simp] theorem dequeue_poisonList (c : Nat) : (dequeue c s).poisonList = s.poisonList := by rw [dequeue_shape]
@[simp] theorem dequeue_domains (c : Nat) : (dequeue c s).domains = s.domains := by rw [dequeue_shape]
@[simp] theorem dequeue_grants (c : Nat) : (dequeue c s).grants = s.grants := by rw [dequeue_shape]
@[simp] theorem dequeue_grantSerial (c : Nat) : (dequeue c s).grantSerial = s.grantSerial := by rw [dequeue_shape]
@[simp] theorem dequeue_requests (c : Nat) : (dequeue c s).requests = s.requests := by rw [dequeue_shape]
@[simp] theorem dequeue_running (c : Nat) : (dequeue c s).running = s.running := by rw [dequeue_shape]
@[simp] theorem dequeue_results (c : Nat) : (dequeue c s).results = s.results := by rw [dequeue_shape]
@[simp] theorem dequeue_warm (c : Nat) : (dequeue c s).warm = s.warm := by rw [dequeue_shape]
@[simp] theorem dequeue_units (c : Nat) : (dequeue c s).units = s.units := by rw [dequeue_shape]
@[simp] theorem dequeue_lastServed (c : Nat) : (dequeue c s).lastServed = s.lastServed := by rw [dequeue_shape]
@[simp] theorem dequeue_slots (c : Nat) : (dequeue c s).slots = s.slots := by rw [dequeue_shape]
@[simp] theorem dequeue_regions (c : Nat) : (dequeue c s).regions = s.regions := by rw [dequeue_shape]
@[simp] theorem dequeue_freeze (c : Nat) : (dequeue c s).freeze = s.freeze := by rw [dequeue_shape]
@[simp] theorem dequeue_log (c : Nat) : (dequeue c s).log = s.log := by rw [dequeue_shape]
@[simp] theorem dequeue_notices (c : Nat) : (dequeue c s).notices = s.notices := by rw [dequeue_shape]
@[simp] theorem dequeue_pending (c : Nat) : (dequeue c s).pending = s.pending := by rw [dequeue_shape]

/-! ### Notices -/

/-- The source that a notice name stands for is pending after it is raised (R189). -/
theorem sourceOf_raise_same (n : NoticeName) : (sourceOf (raise n s) (noticeNumber n)).pending = true := by
  unfold raise; dsimp only; split
  · assumption
  · simp

theorem sourceOf_raise_ne (n : NoticeName) {x : Nat} (h : x ≠ noticeNumber n) :
    sourceOf (raise n s) x = sourceOf s x := by
  unfold raise; dsimp only; split
  · rfl
  · rw [sourceOf_setSource]; simp [h]

theorem sourceOf_raise_cls (n : NoticeName) (x : Nat) : (sourceOf (raise n s) x).cls = (sourceOf s x).cls := by
  unfold raise; dsimp only; split
  · rfl
  · rw [sourceOf_setSource]; split
    · subst_vars; rfl
    · rfl

/-- A raising clears no pending mark. -/
theorem sourceOf_raise_pending (n : NoticeName) (x : Nat) (h : (sourceOf s x).pending = true) :
    (sourceOf (raise n s) x).pending = true := by
  by_cases hx : x = noticeNumber n
  · subst hx; exact sourceOf_raise_same s n
  · rw [sourceOf_raise_ne s n hx]; exact h

/-- The Notice Unit changes no class and no pending mark (R190). -/
theorem sourceOf_placeNotice (x : Nat) :
    (sourceOf (placeNotice s) x).cls = (sourceOf s x).cls ∧
      (sourceOf (placeNotice s) x).pending = (sourceOf s x).pending := by
  unfold placeNotice; split
  · exact ⟨rfl, rfl⟩
  · split
    · exact ⟨rfl, rfl⟩
    · dsimp only
      rw [sourceOf_setSource]; split
      · subst_vars; exact ⟨rfl, rfl⟩
      · exact ⟨rfl, rfl⟩

@[simp] theorem sourceOf_placeTx (x : Nat) : sourceOf (placeTx s) x = sourceOf s x := by
  unfold sourceOf; rw [placeTx_notices]

@[simp] theorem sourceOf_placeOffer (x : Nat) : sourceOf (placeOffer s) x = sourceOf s x := by
  unfold sourceOf; rw [placeOffer_notices]

/-- The end of a step changes no class of a source. -/
@[simp] theorem sourceOf_finish_cls (x : Nat) : (sourceOf (finish s) x).cls = (sourceOf s x).cls := by
  unfold finish; rw [sourceOf_placeOffer, sourceOf_placeTx]; exact (sourceOf_placeNotice s x).1

/-- The end of a step changes no pending mark of a source. -/
@[simp] theorem sourceOf_finish_pending (x : Nat) :
    (sourceOf (finish s) x).pending = (sourceOf s x).pending := by
  unfold finish; rw [sourceOf_placeOffer, sourceOf_placeTx]; exact (sourceOf_placeNotice s x).2

/-! ### Readers at the end of a step -/

@[simp] theorem dom_finish (x : Nat) : dom (finish s) x = dom s x := by unfold dom; rw [finish_domains]
@[simp] theorem chan_finish (x : Nat) : chan (finish s) x = chan s x := by unfold chan; rw [finish_channels]
@[simp] theorem slotOf_finish (x : Nat) : slotOf (finish s) x = slotOf s x := by unfold slotOf; rw [finish_slots]
@[simp] theorem regionOf_finish (x : Nat) : regionOf (finish s) x = regionOf s x := by
  unfold regionOf; rw [finish_regions]
@[simp] theorem resultOf_finish (x : Nat) : resultOf (finish s) x = resultOf s x := by
  unfold resultOf; rw [finish_results]
@[simp] theorem grantAt_finish (x : Nat) : grantAt (finish s) x = grantAt s x := by
  unfold grantAt; rw [finish_grants]
@[simp] theorem unitOf_finish (x : Nat) : unitOf (finish s) x = unitOf s x := by unfold unitOf; rw [finish_units]

@[simp] theorem dom_raise (n : NoticeName) (x : Nat) : dom (raise n s) x = dom s x := by
  unfold dom; rw [raise_domains]
@[simp] theorem chan_raise (n : NoticeName) (x : Nat) : chan (raise n s) x = chan s x := by
  unfold chan; rw [raise_channels]

@[simp] theorem dom_respond (c : Nat) (b : Line) (r : Result) (p : Report) (x : Nat) :
    dom (respond c b r p s) x = dom s x := by unfold dom; rw [respond_domains]
@[simp] theorem slotOf_respond (c : Nat) (b : Line) (r : Result) (p : Report) (x : Nat) :
    slotOf (respond c b r p s) x = slotOf s x := by unfold slotOf; rw [respond_slots]
@[simp] theorem regionOf_respond (c : Nat) (b : Line) (r : Result) (p : Report) (x : Nat) :
    regionOf (respond c b r p s) x = regionOf s x := by unfold regionOf; rw [respond_regions]
@[simp] theorem grantAt_respond (c : Nat) (b : Line) (r : Result) (p : Report) (x : Nat) :
    grantAt (respond c b r p s) x = grantAt s x := by unfold grantAt; rw [respond_grants]

@[simp] theorem dom_dequeue (c x : Nat) : dom (dequeue c s) x = dom s x := by unfold dom; rw [dequeue_domains]
@[simp] theorem slotOf_dequeue (c x : Nat) : slotOf (dequeue c s) x = slotOf s x := by
  unfold slotOf; rw [dequeue_slots]
@[simp] theorem regionOf_dequeue (c x : Nat) : regionOf (dequeue c s) x = regionOf s x := by
  unfold regionOf; rw [dequeue_regions]
@[simp] theorem sourceOf_dequeue (c x : Nat) : sourceOf (dequeue c s) x = sourceOf s x := by
  unfold sourceOf; rw [dequeue_notices]
@[simp] theorem grantAt_dequeue (c x : Nat) : grantAt (dequeue c s) x = grantAt s x := by
  unfold grantAt; rw [dequeue_grants]

/-! ### Responses and taking (R168, R170) -/

theorem chan_pushResponse (c x : Nat) (r : Response) :
    chan (pushResponse c r s) x =
      if x = c then { chan s c with ready := (chan s c).ready ++ [r] } else chan s x := by
  simp [pushResponse, chan_setChan]

/-- A response takes its reserved slot at the end of the ready list (R170). -/
theorem chan_respond (c x : Nat) (b : Line) (r : Result) (p : Report) :
    chan (respond c b r p s) x =
      if x = c then { chan s c with
        reserved := (chan s c).reserved - 1, ready := (chan s c).ready ++ [mkResponse b c r p] }
      else chan s x := by
  unfold respond; rw [chan_pushResponse]; split
  · simp
  · rw [chan_setChan]; simp [*]

/-- A response raises its channel's CHANNEL_DONE (R170). -/
theorem sourceOf_respond_same (c : Nat) (b : Line) (r : Result) (p : Report) :
    (sourceOf (respond c b r p s) (7 + c)).pending = true := by
  unfold respond pushResponse; exact sourceOf_raise_same _ (.channelDone c)

theorem sourceOf_respond_ne (c : Nat) (b : Line) (r : Result) (p : Report) {x : Nat} (h : x ≠ 7 + c) :
    sourceOf (respond c b r p s) x = sourceOf s x := by
  unfold respond pushResponse; rw [sourceOf_raise_ne _ _ (by simpa [noticeNumber] using h)]; simp

/-- A control command leaves its queue and reserves a slot (R168). -/
theorem chan_dequeue_control {c : Nat} {b : Line} (h : (chan s c).control.head? = some b) (x : Nat) :
    chan (dequeue c s) x =
      if x = c then { chan s c with
        control := (chan s c).control.tail, reserved := (chan s c).reserved + 1 }
      else chan s x := by
  unfold dequeue; dsimp only
  cases hq : (chan s c).control with
  | nil => simp [hq] at h
  | cons y t => simp [chan_setChan]

/-- A work command leaves its queue and reserves a slot (R168). -/
theorem chan_dequeue_work {c : Nat} (h : (chan s c).control = []) (x : Nat) :
    chan (dequeue c s) x =
      if x = c then { chan s c with work := (chan s c).work.tail, reserved := (chan s c).reserved + 1 }
      else chan s x := by
  unfold dequeue; dsimp only; rw [h]; simp [chan_setChan]

@[simp] theorem modeRefuses_dequeue (cmd : Cmd) (c : Nat) : modeRefuses cmd (dequeue c s) = modeRefuses cmd s := by
  simp [modeRefuses]

/-- A channel that can take a control command takes it (R168). -/
theorem namedTake_control {cmd : Cmd} {c : Nat} {b : Line} {s : State} (h : TakesControl cmd c b s) :
    namedTake cmd c s = some b := by
  obtain ⟨⟨h1, h2, h3⟩, h4, h5, _⟩ := h
  cases hq : (chan s c).control with
  | nil => simp [hq] at h4
  | cons y t =>
    simp [hq] at h4; subst h4
    simp [namedTake, takeable, h1, h2, h3, hq, h5, warned]

/-- A channel that can take a work command takes it (R168). -/
theorem namedTake_work {cmd : Cmd} {c : Nat} {b : Line} {s : State} (h : TakesWork cmd c b s) :
    namedTake cmd c s = some b := by
  obtain ⟨⟨h1, h2, h3⟩, h4, h5, h6, h7, h8, _⟩ := h
  simp [namedTake, takeable, h1, h2, h3, h4, h5, h6, h7, h8, warned]

/-- What a taken control command leaves in its own channel once it has responded (R168, R170). -/
theorem answered_of_respond {c : Nat} {b : Line} {r : Result} {p : Report} {s t : State}
    (hb : (chan s c).control.head? = some b) (ht : ∀ x, chan t x = chan (dequeue c s) x) :
    Answered c b r p s (finish (respond c b r p t)) := by
  refine ⟨?_, ?_, ?_⟩
  · rw [chan_finish, chan_respond]; simp [ht, chan_dequeue_control s hb]
  · intro x hx; rw [chan_finish, chan_respond]; simp [ht, chan_dequeue_control s hb, hx]
  · rw [sourceOf_finish_pending]; exact sourceOf_respond_same t c b r p

/-! ### The loop (assumption 4) -/

@[simp] theorem runLoop_quiet {s : State} (h : Quiet s) (n : Nat) : runLoop n s = s := by
  cases n with
  | zero => rfl
  | succ n => unfold runLoop; rw [h]

/-- With nothing that can go on, nothing goes on. -/
theorem settle_quiet {s : State} (h : Quiet s) : settle s = s := runLoop_quiet h _

theorem runLoop_job {s : State} {j : Job} (h : nextJob s = some j) (n : Nat) :
    runLoop (n + 1) s = runLoop n (runJob j s) := by
  conv_lhs => unfold runLoop
  rw [h]

/-- One thing goes on and then nothing can. -/
theorem settle_once {s : State} {j : Job} (h : nextJob s = some j) (hq : Quiet (runJob j s)) :
    settle s = runJob j s := by
  unfold settle
  rw [show Config.stepFuel = 1048575 + 1 from rfl, runLoop_job h, runLoop_quiet hq]

/-- Two things go on, one after the other, and then nothing can. -/
theorem settle_twice {s : State} {j k : Job} (h : nextJob s = some j) (h' : nextJob (runJob j s) = some k)
    (hq : Quiet (runJob k (runJob j s))) : settle s = runJob k (runJob j s) := by
  unfold settle
  rw [show Config.stepFuel = 1048574 + 1 + 1 from rfl, runLoop_job h, runLoop_job h', runLoop_quiet hq]

/-- A line for which no command step waits is no line that only poisonings and undos wait for (R51). -/
theorem onlyUndoWaits_of_noStepWaits {line : Nat} (h : NoStepWaits line s) : onlyUndoWaits s line = false := by
  obtain ⟨hc, -, hp, -⟩ := h
  have hu : undoWaits s line = false := by
    simp only [undoWaits, channelNumbers, Bool.or_eq_false_iff, List.any_eq_false, Option.any_eq_true, beq_iff_eq,
      Bool.and_eq_true, Bool.or_eq_true, not_or, not_exists, not_and]
    refine ⟨hp, fun c hm => ?_⟩
    have hlt : c < 4 := by simp at hm; omega
    exact ⟨fun u hu => (hc c hlt).2 u hu, fun a ha _ => (hc c hlt).1 a ha⟩
  simp [onlyUndoWaits, hu]

/-- A line that a transaction of the Miss Queue waits for is none either (R50). -/
theorem onlyUndoWaits_of_missWaits {line : Nat} (h : missWaits s line = true) : onlyUndoWaits s line = false := by
  simp [onlyUndoWaits, h]

/-- Outside the settling stage no line of the wait list is withheld (R174). -/
theorem lineWithheld_of_not_settling {line : Nat} (h : ∀ w, s.warm = some w → w.stage ≠ .settling) :
    lineWithheld s line = false := by
  unfold lineWithheld
  cases hw : s.warm with
  | none => rfl
  | some w => simp [h w hw]

/-- Dropping the poisoning that a pending undo is changes the pending poisonings alone, and of them exactly those that
the channel's scrub failure ordered (R165, R176). -/
theorem dropOrdered_eq (c : Nat) :
    dropOrdered c s = { s with poisonings := s.poisonings.filter (fun p =>
      !(p.source == .scrub c && (chan s c).undo.any (·.poison))) } := by
  unfold dropOrdered
  cases h : (chan s c).undo.any (·.poison) <;> simp [bne]

/-- A property that every single step of the loop keeps is kept by the loop. -/
theorem runLoop_keeps {P : State → Prop} (hP : ∀ s j, P s → nextJob s = some j → P (runJob j s)) (n : Nat)
    {s : State} (h : P s) : P (runLoop n s) := by
  induction n generalizing s with
  | zero => exact h
  | succ n ih =>
    unfold runLoop
    cases hj : nextJob s with
    | none => exact h
    | some j => exact ih (hP s j h hj)

end Sys2Proof.Machine
end

