-- ==== Sys2Proof/Laws/Frames.lean ====
section
/-!
SUPPORT. What the operations of the engines can change: records and fills (chapter 3), drains (R85), the active
work command of a channel (R168, R170), grants and guest requests (chapter 7) and refusals (R75).
-/

namespace Sys2Proof.Machine

variable (s : State)

/-! ### `touch` -/

theorem touch_shape (k : Nat) :
    touch k s = { s with lru := (touch k s).lru } := rfl

@[simp] theorem touch_base (k : Nat) : (touch k s).base = s.base := rfl
@[simp] theorem touch_requested (k : Nat) : (touch k s).requested = s.requested := rfl
@[simp] theorem touch_size (k : Nat) : (touch k s).size = s.size := rfl
@[simp] theorem touch_mode (k : Nat) : (touch k s).mode = s.mode := rfl
@[simp] theorem touch_cause (k : Nat) : (touch k s).cause = s.cause := rfl
@[simp] theorem touch_integrityMark (k : Nat) : (touch k s).integrityMark = s.integrityMark := rfl
@[simp] theorem touch_policy (k : Nat) : (touch k s).policy = s.policy := rfl
@[simp] theorem touch_faultLine (k : Nat) : (touch k s).faultLine = s.faultLine := rfl
@[simp] theorem touch_warnLine (k : Nat) : (touch k s).warnLine = s.warnLine := rfl
@[simp] theorem touch_flush (k : Nat) : (touch k s).flush = s.flush := rfl
@[simp] theorem touch_tagBase (k : Nat) : (touch k s).tagBase = s.tagBase := rfl
@[simp] theorem touch_progress (k : Nat) : (touch k s).progress = s.progress := rfl
@[simp] theorem touch_upLink (k : Nat) : (touch k s).upLink = s.upLink := rfl
@[simp] theorem touch_tagsInUse (k : Nat) : (touch k s).tagsInUse = s.tagsInUse := rfl
@[simp] theorem touch_completions (k : Nat) : (touch k s).completions = s.completions := rfl
@[simp] theorem touch_noticeSlot (k : Nat) : (touch k s).noticeSlot = s.noticeSlot := rfl
@[simp] theorem touch_txOffered (k : Nat) : (touch k s).txOffered = s.txOffered := rfl
@[simp] theorem touch_txLast (k : Nat) : (touch k s).txLast = s.txLast := rfl
@[simp] theorem touch_downLink (k : Nat) : (touch k s).downLink = s.downLink := rfl
@[simp] theorem touch_outstanding (k : Nat) : (touch k s).outstanding = s.outstanding := rfl
@[simp] theorem touch_heldTags (k : Nat) : (touch k s).heldTags = s.heldTags := rfl
@[simp] theorem touch_tagWaits (k : Nat) : (touch k s).tagWaits = s.tagWaits := rfl
@[simp] theorem touch_produced (k : Nat) : (touch k s).produced = s.produced := rfl
@[simp] theorem touch_offers (k : Nat) : (touch k s).offers = s.offers := rfl
@[simp] theorem touch_downOffered (k : Nat) : (touch k s).downOffered = s.downOffered := rfl
@[simp] theorem touch_lastClass (k : Nat) : (touch k s).lastClass = s.lastClass := rfl
@[simp] theorem touch_stage (k : Nat) : (touch k s).stage = s.stage := rfl
@[simp] theorem touch_inFlight (k : Nat) : (touch k s).inFlight = s.inFlight := rfl
@[simp] theorem touch_drains (k : Nat) : (touch k s).drains = s.drains := rfl
@[simp] theorem touch_ways (k : Nat) : (touch k s).ways = s.ways := rfl
@[simp] theorem touch_fills (k : Nat) : (touch k s).fills = s.fills := rfl
@[simp] theorem touch_fillWaits (k : Nat) : (touch k s).fillWaits = s.fillWaits := rfl
@[simp] theorem touch_fillSerial (k : Nat) : (touch k s).fillSerial = s.fillSerial := rfl
@[simp] theorem touch_missQueue (k : Nat) : (touch k s).missQueue = s.missQueue := rfl
@[simp] theorem touch_poisonings (k : Nat) : (touch k s).poisonings = s.poisonings := rfl
@[simp] theorem touch_corrected (k : Nat) : (touch k s).corrected = s.corrected := rfl
@[simp] theorem touch_correctedLimit (k : Nat) : (touch k s).correctedLimit = s.correctedLimit := rfl
@[simp] theorem touch_firstCorrected (k : Nat) : (touch k s).firstCorrected = s.firstCorrected := rfl
@[simp] theorem touch_hold (k : Nat) : (touch k s).hold = s.hold := rfl
@[simp] theorem touch_poisonList (k : Nat) : (touch k s).poisonList = s.poisonList := rfl
@[simp] theorem touch_domains (k : Nat) : (touch k s).domains = s.domains := rfl
@[simp] theorem touch_grants (k : Nat) : (touch k s).grants = s.grants := rfl
@[simp] theorem touch_grantSerial (k : Nat) : (touch k s).grantSerial = s.grantSerial := rfl
@[simp] theorem touch_requests (k : Nat) : (touch k s).requests = s.requests := rfl
@[simp] theorem touch_running (k : Nat) : (touch k s).running = s.running := rfl
@[simp] theorem touch_results (k : Nat) : (touch k s).results = s.results := rfl
@[simp] theorem touch_channels (k : Nat) : (touch k s).channels = s.channels := rfl
@[simp] theorem touch_warm (k : Nat) : (touch k s).warm = s.warm := rfl
@[simp] theorem touch_units (k : Nat) : (touch k s).units = s.units := rfl
@[simp] theorem touch_lastServed (k : Nat) : (touch k s).lastServed = s.lastServed := rfl
@[simp] theorem touch_slots (k : Nat) : (touch k s).slots = s.slots := rfl
@[simp] theorem touch_regions (k : Nat) : (touch k s).regions = s.regions := rfl
@[simp] theorem touch_freeze (k : Nat) : (touch k s).freeze = s.freeze := rfl
@[simp] theorem touch_log (k : Nat) : (touch k s).log = s.log := rfl
@[simp] theorem touch_notices (k : Nat) : (touch k s).notices = s.notices := rfl
@[simp] theorem touch_pending (k : Nat) : (touch k s).pending = s.pending := rfl
@[simp] theorem dom_touch (k : Nat) (y : Nat) : dom (touch k s) y = dom s y := rfl
@[simp] theorem chan_touch (k : Nat) (y : Nat) : chan (touch k s) y = chan s y := rfl
@[simp] theorem slotOf_touch (k : Nat) (y : Nat) : slotOf (touch k s) y = slotOf s y := rfl
@[simp] theorem regionOf_touch (k : Nat) (y : Nat) : regionOf (touch k s) y = regionOf s y := rfl
@[simp] theorem sourceOf_touch (k : Nat) (y : Nat) : sourceOf (touch k s) y = sourceOf s y := rfl
@[simp] theorem resultOf_touch (k : Nat) (y : Nat) : resultOf (touch k s) y = resultOf s y := rfl
@[simp] theorem grantAt_touch (k : Nat) (y : Nat) : grantAt (touch k s) y = grantAt s y := rfl
@[simp] theorem unitOf_touch (k : Nat) (y : Nat) : unitOf (touch k s) y = unitOf s y := rfl
@[simp] theorem recordAt_touch (k : Nat) (y : Nat) : recordAt (touch k s) y = recordAt s y := rfl
@[simp] theorem findKey_touch (k : Nat) (y : Nat) : findKey (touch k s) y = findKey s y := rfl

/-! ### `putRecord` -/

theorem putRecord_shape (g : Nat) (r : TagRecord) :
    putRecord g r s = { s with
    ways := (putRecord g r s).ways
    outstanding := (putRecord g r s).outstanding } := by
  unfold putRecord; split
  · rfl
  · split <;> rfl

@[simp] theorem putRecord_base (g : Nat) (r : TagRecord) : (putRecord g r s).base = s.base :=
  by rw [putRecord_shape]
@[simp] theorem putRecord_requested (g : Nat) (r : TagRecord) : (putRecord g r s).requested = s.requested :=
  by rw [putRecord_shape]
@[simp] theorem putRecord_size (g : Nat) (r : TagRecord) : (putRecord g r s).size = s.size :=
  by rw [putRecord_shape]
@[simp] theorem putRecord_mode (g : Nat) (r : TagRecord) : (putRecord g r s).mode = s.mode :=
  by rw [putRecord_shape]
@[simp] theorem putRecord_cause (g : Nat) (r : TagRecord) : (putRecord g r s).cause = s.cause :=
  by rw [putRecord_shape]
@[simp] theorem putRecord_integrityMark (g : Nat) (r : TagRecord) : (putRecord g r s).integrityMark = s.integrityMark :=
  by rw [putRecord_shape]
@[simp] theorem putRecord_policy (g : Nat) (r : TagRecord) : (putRecord g r s).policy = s.policy :=
  by rw [putRecord_shape]
@[simp] theorem putRecord_faultLine (g : Nat) (r : TagRecord) : (putRecord g r s).faultLine = s.faultLine :=
  by rw [putRecord_shape]
@[simp] theorem putRecord_warnLine (g : Nat) (r : TagRecord) : (putRecord g r s).warnLine = s.warnLine :=
  by rw [putRecord_shape]
@[simp] theorem putRecord_flush (g : Nat) (r : TagRecord) : (putRecord g r s).flush = s.flush :=
  by rw [putRecord_shape]
@[simp] theorem putRecord_tagBase (g : Nat) (r : TagRecord) : (putRecord g r s).tagBase = s.tagBase :=
  by rw [putRecord_shape]
@[simp] theorem putRecord_progress (g : Nat) (r : TagRecord) : (putRecord g r s).progress = s.progress :=
  by rw [putRecord_shape]
@[simp] theorem putRecord_upLink (g : Nat) (r : TagRecord) : (putRecord g r s).upLink = s.upLink :=
  by rw [putRecord_shape]
@[simp] theorem putRecord_tagsInUse (g : Nat) (r : TagRecord) : (putRecord g r s).tagsInUse = s.tagsInUse :=
  by rw [putRecord_shape]
@[simp] theorem putRecord_completions (g : Nat) (r : TagRecord) : (putRecord g r s).completions = s.completions :=
  by rw [putRecord_shape]
@[simp] theorem putRecord_noticeSlot (g : Nat) (r : TagRecord) : (putRecord g r s).noticeSlot = s.noticeSlot :=
  by rw [putRecord_shape]
@[simp] theorem putRecord_txOffered (g : Nat) (r : TagRecord) : (putRecord g r s).txOffered = s.txOffered :=
  by rw [putRecord_shape]
@[simp] theorem putRecord_txLast (g : Nat) (r : TagRecord) : (putRecord g r s).txLast = s.txLast :=
  by rw [putRecord_shape]
@[simp] theorem putRecord_downLink (g : Nat) (r : TagRecord) : (putRecord g r s).downLink = s.downLink :=
  by rw [putRecord_shape]
@[simp] theorem putRecord_heldTags (g : Nat) (r : TagRecord) : (putRecord g r s).heldTags = s.heldTags :=
  by rw [putRecord_shape]
@[simp] theorem putRecord_tagWaits (g : Nat) (r : TagRecord) : (putRecord g r s).tagWaits = s.tagWaits :=
  by rw [putRecord_shape]
@[simp] theorem putRecord_produced (g : Nat) (r : TagRecord) : (putRecord g r s).produced = s.produced :=
  by rw [putRecord_shape]
@[simp] theorem putRecord_offers (g : Nat) (r : TagRecord) : (putRecord g r s).offers = s.offers :=
  by rw [putRecord_shape]
@[simp] theorem putRecord_downOffered (g : Nat) (r : TagRecord) : (putRecord g r s).downOffered = s.downOffered :=
  by rw [putRecord_shape]
@[simp] theorem putRecord_lastClass (g : Nat) (r : TagRecord) : (putRecord g r s).lastClass = s.lastClass :=
  by rw [putRecord_shape]
@[simp] theorem putRecord_stage (g : Nat) (r : TagRecord) : (putRecord g r s).stage = s.stage :=
  by rw [putRecord_shape]
@[simp] theorem putRecord_inFlight (g : Nat) (r : TagRecord) : (putRecord g r s).inFlight = s.inFlight :=
  by rw [putRecord_shape]
@[simp] theorem putRecord_drains (g : Nat) (r : TagRecord) : (putRecord g r s).drains = s.drains :=
  by rw [putRecord_shape]
@[simp] theorem putRecord_lru (g : Nat) (r : TagRecord) : (putRecord g r s).lru = s.lru := by rw [putRecord_shape]
@[simp] theorem putRecord_fills (g : Nat) (r : TagRecord) : (putRecord g r s).fills = s.fills :=
  by rw [putRecord_shape]
@[simp] theorem putRecord_fillWaits (g : Nat) (r : TagRecord) : (putRecord g r s).fillWaits = s.fillWaits :=
  by rw [putRecord_shape]
@[simp] theorem putRecord_fillSerial (g : Nat) (r : TagRecord) : (putRecord g r s).fillSerial = s.fillSerial :=
  by rw [putRecord_shape]
@[simp] theorem putRecord_missQueue (g : Nat) (r : TagRecord) : (putRecord g r s).missQueue = s.missQueue :=
  by rw [putRecord_shape]
@[simp] theorem putRecord_poisonings (g : Nat) (r : TagRecord) : (putRecord g r s).poisonings = s.poisonings :=
  by rw [putRecord_shape]
@[simp] theorem putRecord_corrected (g : Nat) (r : TagRecord) : (putRecord g r s).corrected = s.corrected :=
  by rw [putRecord_shape]
@[simp] theorem putRecord_correctedLimit (g : Nat) (r : TagRecord) : (putRecord g r s).correctedLimit = s.correctedLimit :=
  by rw [putRecord_shape]
@[simp] theorem putRecord_firstCorrected (g : Nat) (r : TagRecord) : (putRecord g r s).firstCorrected = s.firstCorrected :=
  by rw [putRecord_shape]
@[simp] theorem putRecord_hold (g : Nat) (r : TagRecord) : (putRecord g r s).hold = s.hold :=
  by rw [putRecord_shape]
@[simp] theorem putRecord_poisonList (g : Nat) (r : TagRecord) : (putRecord g r s).poisonList = s.poisonList :=
  by rw [putRecord_shape]
@[simp] theorem putRecord_domains (g : Nat) (r : TagRecord) : (putRecord g r s).domains = s.domains :=
  by rw [putRecord_shape]
@[simp] theorem putRecord_grants (g : Nat) (r : TagRecord) : (putRecord g r s).grants = s.grants :=
  by rw [putRecord_shape]
@[simp] theorem putRecord_grantSerial (g : Nat) (r : TagRecord) : (putRecord g r s).grantSerial = s.grantSerial :=
  by rw [putRecord_shape]
@[simp] theorem putRecord_requests (g : Nat) (r : TagRecord) : (putRecord g r s).requests = s.requests :=
  by rw [putRecord_shape]
@[simp] theorem putRecord_running (g : Nat) (r : TagRecord) : (putRecord g r s).running = s.running :=
  by rw [putRecord_shape]
@[simp] theorem putRecord_results (g : Nat) (r : TagRecord) : (putRecord g r s).results = s.results :=
  by rw [putRecord_shape]
@[simp] theorem putRecord_channels (g : Nat) (r : TagRecord) : (putRecord g r s).channels = s.channels :=
  by rw [putRecord_shape]
@[simp] theorem putRecord_warm (g : Nat) (r : TagRecord) : (putRecord g r s).warm = s.warm :=
  by rw [putRecord_shape]
@[simp] theorem putRecord_units (g : Nat) (r : TagRecord) : (putRecord g r s).units = s.units :=
  by rw [putRecord_shape]
@[simp] theorem putRecord_lastServed (g : Nat) (r : TagRecord) : (putRecord g r s).lastServed = s.lastServed :=
  by rw [putRecord_shape]
@[simp] theorem putRecord_slots (g : Nat) (r : TagRecord) : (putRecord g r s).slots = s.slots :=
  by rw [putRecord_shape]
@[simp] theorem putRecord_regions (g : Nat) (r : TagRecord) : (putRecord g r s).regions = s.regions :=
  by rw [putRecord_shape]
@[simp] theorem putRecord_freeze (g : Nat) (r : TagRecord) : (putRecord g r s).freeze = s.freeze :=
  by rw [putRecord_shape]
@[simp] theorem putRecord_log (g : Nat) (r : TagRecord) : (putRecord g r s).log = s.log := by rw [putRecord_shape]
@[simp] theorem putRecord_notices (g : Nat) (r : TagRecord) : (putRecord g r s).notices = s.notices :=
  by rw [putRecord_shape]
@[simp] theorem putRecord_pending (g : Nat) (r : TagRecord) : (putRecord g r s).pending = s.pending :=
  by rw [putRecord_shape]
@[simp] theorem dom_putRecord (g : Nat) (r : TagRecord) (y : Nat) : dom (putRecord g r s) y = dom s y :=
  by rw [putRecord_shape]; rfl
@[simp] theorem chan_putRecord (g : Nat) (r : TagRecord) (y : Nat) : chan (putRecord g r s) y = chan s y :=
  by rw [putRecord_shape]; rfl
@[simp] theorem slotOf_putRecord (g : Nat) (r : TagRecord) (y : Nat) : slotOf (putRecord g r s) y = slotOf s y :=
  by rw [putRecord_shape]; rfl
@[simp] theorem regionOf_putRecord (g : Nat) (r : TagRecord) (y : Nat) : regionOf (putRecord g r s) y = regionOf s y :=
  by rw [putRecord_shape]; rfl
@[simp] theorem sourceOf_putRecord (g : Nat) (r : TagRecord) (y : Nat) : sourceOf (putRecord g r s) y = sourceOf s y :=
  by rw [putRecord_shape]; rfl
@[simp] theorem resultOf_putRecord (g : Nat) (r : TagRecord) (y : Nat) : resultOf (putRecord g r s) y = resultOf s y :=
  by rw [putRecord_shape]; rfl
@[simp] theorem grantAt_putRecord (g : Nat) (r : TagRecord) (y : Nat) : grantAt (putRecord g r s) y = grantAt s y :=
  by rw [putRecord_shape]; rfl
@[simp] theorem unitOf_putRecord (g : Nat) (r : TagRecord) (y : Nat) : unitOf (putRecord g r s) y = unitOf s y :=
  by rw [putRecord_shape]; rfl

/-! ### `noteIssue` -/

theorem noteIssue_shape (x : Nat) (j : OwnJob) :
    noteIssue x j s = { s with fills := (noteIssue x j s).fills, units := (noteIssue x j s).units } := by
  unfold noteIssue; split
  · rfl
  · split <;> rfl
  · rfl

/-! ### `issueJob` -/

theorem issueJob_shape (j : OwnJob) :
    issueJob j s = { s with
    outstanding := (issueJob j s).outstanding
    offers := (issueJob j s).offers
    tagWaits := (issueJob j s).tagWaits
    fills := (issueJob j s).fills
    units := (issueJob j s).units } := by
  unfold issueJob; split
  · rfl
  · split
    · unfold sendJob; rw [noteIssue_shape]
    · rfl

@[simp] theorem issueJob_base (j : OwnJob) : (issueJob j s).base = s.base := by rw [issueJob_shape]
@[simp] theorem issueJob_requested (j : OwnJob) : (issueJob j s).requested = s.requested := by rw [issueJob_shape]
@[simp] theorem issueJob_size (j : OwnJob) : (issueJob j s).size = s.size := by rw [issueJob_shape]
@[simp] theorem issueJob_mode (j : OwnJob) : (issueJob j s).mode = s.mode := by rw [issueJob_shape]
@[simp] theorem issueJob_cause (j : OwnJob) : (issueJob j s).cause = s.cause := by rw [issueJob_shape]
@[simp] theorem issueJob_integrityMark (j : OwnJob) : (issueJob j s).integrityMark = s.integrityMark :=
  by rw [issueJob_shape]
@[simp] theorem issueJob_policy (j : OwnJob) : (issueJob j s).policy = s.policy := by rw [issueJob_shape]
@[simp] theorem issueJob_faultLine (j : OwnJob) : (issueJob j s).faultLine = s.faultLine := by rw [issueJob_shape]
@[simp] theorem issueJob_warnLine (j : OwnJob) : (issueJob j s).warnLine = s.warnLine := by rw [issueJob_shape]
@[simp] theorem issueJob_flush (j : OwnJob) : (issueJob j s).flush = s.flush := by rw [issueJob_shape]
@[simp] theorem issueJob_tagBase (j : OwnJob) : (issueJob j s).tagBase = s.tagBase := by rw [issueJob_shape]
@[simp] theorem issueJob_progress (j : OwnJob) : (issueJob j s).progress = s.progress := by rw [issueJob_shape]
@[simp] theorem issueJob_upLink (j : OwnJob) : (issueJob j s).upLink = s.upLink := by rw [issueJob_shape]
@[simp] theorem issueJob_tagsInUse (j : OwnJob) : (issueJob j s).tagsInUse = s.tagsInUse := by rw [issueJob_shape]
@[simp] theorem issueJob_completions (j : OwnJob) : (issueJob j s).completions = s.completions :=
  by rw [issueJob_shape]
@[simp] theorem issueJob_noticeSlot (j : OwnJob) : (issueJob j s).noticeSlot = s.noticeSlot :=
  by rw [issueJob_shape]
@[simp] theorem issueJob_txOffered (j : OwnJob) : (issueJob j s).txOffered = s.txOffered := by rw [issueJob_shape]
@[simp] theorem issueJob_txLast (j : OwnJob) : (issueJob j s).txLast = s.txLast := by rw [issueJob_shape]
@[simp] theorem issueJob_downLink (j : OwnJob) : (issueJob j s).downLink = s.downLink := by rw [issueJob_shape]
@[simp] theorem issueJob_heldTags (j : OwnJob) : (issueJob j s).heldTags = s.heldTags := by rw [issueJob_shape]
@[simp] theorem issueJob_produced (j : OwnJob) : (issueJob j s).produced = s.produced := by rw [issueJob_shape]
@[simp] theorem issueJob_downOffered (j : OwnJob) : (issueJob j s).downOffered = s.downOffered :=
  by rw [issueJob_shape]
@[simp] theorem issueJob_lastClass (j : OwnJob) : (issueJob j s).lastClass = s.lastClass := by rw [issueJob_shape]
@[simp] theorem issueJob_stage (j : OwnJob) : (issueJob j s).stage = s.stage := by rw [issueJob_shape]
@[simp] theorem issueJob_inFlight (j : OwnJob) : (issueJob j s).inFlight = s.inFlight := by rw [issueJob_shape]
@[simp] theorem issueJob_drains (j : OwnJob) : (issueJob j s).drains = s.drains := by rw [issueJob_shape]
@[simp] theorem issueJob_ways (j : OwnJob) : (issueJob j s).ways = s.ways := by rw [issueJob_shape]
@[simp] theorem issueJob_lru (j : OwnJob) : (issueJob j s).lru = s.lru := by rw [issueJob_shape]
@[simp] theorem issueJob_fillWaits (j : OwnJob) : (issueJob j s).fillWaits = s.fillWaits := by rw [issueJob_shape]
@[simp] theorem issueJob_fillSerial (j : OwnJob) : (issueJob j s).fillSerial = s.fillSerial :=
  by rw [issueJob_shape]
@[simp] theorem issueJob_missQueue (j : OwnJob) : (issueJob j s).missQueue = s.missQueue := by rw [issueJob_shape]
@[simp] theorem issueJob_poisonings (j : OwnJob) : (issueJob j s).poisonings = s.poisonings :=
  by rw [issueJob_shape]
@[simp] theorem issueJob_corrected (j : OwnJob) : (issueJob j s).corrected = s.corrected := by rw [issueJob_shape]
@[simp] theorem issueJob_correctedLimit (j : OwnJob) : (issueJob j s).correctedLimit = s.correctedLimit :=
  by rw [issueJob_shape]
@[simp] theorem issueJob_firstCorrected (j : OwnJob) : (issueJob j s).firstCorrected = s.firstCorrected :=
  by rw [issueJob_shape]
@[simp] theorem issueJob_hold (j : OwnJob) : (issueJob j s).hold = s.hold := by rw [issueJob_shape]
@[simp] theorem issueJob_poisonList (j : OwnJob) : (issueJob j s).poisonList = s.poisonList :=
  by rw [issueJob_shape]
@[simp] theorem issueJob_domains (j : OwnJob) : (issueJob j s).domains = s.domains := by rw [issueJob_shape]
@[simp] theorem issueJob_grants (j : OwnJob) : (issueJob j s).grants = s.grants := by rw [issueJob_shape]
@[simp] theorem issueJob_grantSerial (j : OwnJob) : (issueJob j s).grantSerial = s.grantSerial :=
  by rw [issueJob_shape]
@[simp] theorem issueJob_requests (j : OwnJob) : (issueJob j s).requests = s.requests := by rw [issueJob_shape]
@[simp] theorem issueJob_running (j : OwnJob) : (issueJob j s).running = s.running := by rw [issueJob_shape]
@[simp] theorem issueJob_results (j : OwnJob) : (issueJob j s).results = s.results := by rw [issueJob_shape]
@[simp] theorem issueJob_channels (j : OwnJob) : (issueJob j s).channels = s.channels := by rw [issueJob_shape]
@[simp] theorem issueJob_warm (j : OwnJob) : (issueJob j s).warm = s.warm := by rw [issueJob_shape]
@[simp] theorem issueJob_lastServed (j : OwnJob) : (issueJob j s).lastServed = s.lastServed :=
  by rw [issueJob_shape]
@[simp] theorem issueJob_slots (j : OwnJob) : (issueJob j s).slots = s.slots := by rw [issueJob_shape]
@[simp] theorem issueJob_regions (j : OwnJob) : (issueJob j s).regions = s.regions := by rw [issueJob_shape]
@[simp] theorem issueJob_freeze (j : OwnJob) : (issueJob j s).freeze = s.freeze := by rw [issueJob_shape]
@[simp] theorem issueJob_log (j : OwnJob) : (issueJob j s).log = s.log := by rw [issueJob_shape]
@[simp] theorem issueJob_notices (j : OwnJob) : (issueJob j s).notices = s.notices := by rw [issueJob_shape]
@[simp] theorem issueJob_pending (j : OwnJob) : (issueJob j s).pending = s.pending := by rw [issueJob_shape]
@[simp] theorem dom_issueJob (j : OwnJob) (y : Nat) : dom (issueJob j s) y = dom s y :=
  by rw [issueJob_shape]; rfl
@[simp] theorem chan_issueJob (j : OwnJob) (y : Nat) : chan (issueJob j s) y = chan s y :=
  by rw [issueJob_shape]; rfl
@[simp] theorem slotOf_issueJob (j : OwnJob) (y : Nat) : slotOf (issueJob j s) y = slotOf s y :=
  by rw [issueJob_shape]; rfl
@[simp] theorem regionOf_issueJob (j : OwnJob) (y : Nat) : regionOf (issueJob j s) y = regionOf s y :=
  by rw [issueJob_shape]; rfl
@[simp] theorem sourceOf_issueJob (j : OwnJob) (y : Nat) : sourceOf (issueJob j s) y = sourceOf s y :=
  by rw [issueJob_shape]; rfl
@[simp] theorem resultOf_issueJob (j : OwnJob) (y : Nat) : resultOf (issueJob j s) y = resultOf s y :=
  by rw [issueJob_shape]; rfl
@[simp] theorem grantAt_issueJob (j : OwnJob) (y : Nat) : grantAt (issueJob j s) y = grantAt s y :=
  by rw [issueJob_shape]; rfl
@[simp] theorem recordAt_issueJob (j : OwnJob) (y : Nat) : recordAt (issueJob j s) y = recordAt s y :=
  by rw [issueJob_shape]; rfl
@[simp] theorem findKey_issueJob (j : OwnJob) (y : Nat) : findKey (issueJob j s) y = findKey s y :=
  by rw [issueJob_shape]; rfl

/-! ### `produceJob` -/

theorem produceJob_shape (j : OwnJob) :
    produceJob j s = { s with produced := (produceJob j s).produced } := rfl

@[simp] theorem produceJob_base (j : OwnJob) : (produceJob j s).base = s.base := rfl
@[simp] theorem produceJob_requested (j : OwnJob) : (produceJob j s).requested = s.requested := rfl
@[simp] theorem produceJob_size (j : OwnJob) : (produceJob j s).size = s.size := rfl
@[simp] theorem produceJob_mode (j : OwnJob) : (produceJob j s).mode = s.mode := rfl
@[simp] theorem produceJob_cause (j : OwnJob) : (produceJob j s).cause = s.cause := rfl
@[simp] theorem produceJob_integrityMark (j : OwnJob) : (produceJob j s).integrityMark = s.integrityMark := rfl
@[simp] theorem produceJob_policy (j : OwnJob) : (produceJob j s).policy = s.policy := rfl
@[simp] theorem produceJob_faultLine (j : OwnJob) : (produceJob j s).faultLine = s.faultLine := rfl
@[simp] theorem produceJob_warnLine (j : OwnJob) : (produceJob j s).warnLine = s.warnLine := rfl
@[simp] theorem produceJob_flush (j : OwnJob) : (produceJob j s).flush = s.flush := rfl
@[simp] theorem produceJob_tagBase (j : OwnJob) : (produceJob j s).tagBase = s.tagBase := rfl
@[simp] theorem produceJob_progress (j : OwnJob) : (produceJob j s).progress = s.progress := rfl
@[simp] theorem produceJob_upLink (j : OwnJob) : (produceJob j s).upLink = s.upLink := rfl
@[simp] theorem produceJob_tagsInUse (j : OwnJob) : (produceJob j s).tagsInUse = s.tagsInUse := rfl
@[simp] theorem produceJob_completions (j : OwnJob) : (produceJob j s).completions = s.completions := rfl
@[simp] theorem produceJob_noticeSlot (j : OwnJob) : (produceJob j s).noticeSlot = s.noticeSlot := rfl
@[simp] theorem produceJob_txOffered (j : OwnJob) : (produceJob j s).txOffered = s.txOffered := rfl
@[simp] theorem produceJob_txLast (j : OwnJob) : (produceJob j s).txLast = s.txLast := rfl
@[simp] theorem produceJob_downLink (j : OwnJob) : (produceJob j s).downLink = s.downLink := rfl
@[simp] theorem produceJob_outstanding (j : OwnJob) : (produceJob j s).outstanding = s.outstanding := rfl
@[simp] theorem produceJob_heldTags (j : OwnJob) : (produceJob j s).heldTags = s.heldTags := rfl
@[simp] theorem produceJob_tagWaits (j : OwnJob) : (produceJob j s).tagWaits = s.tagWaits :=
  rfl
@[simp] theorem produceJob_offers (j : OwnJob) : (produceJob j s).offers = s.offers := rfl
@[simp] theorem produceJob_downOffered (j : OwnJob) : (produceJob j s).downOffered = s.downOffered := rfl
@[simp] theorem produceJob_lastClass (j : OwnJob) : (produceJob j s).lastClass = s.lastClass := rfl
@[simp] theorem produceJob_stage (j : OwnJob) : (produceJob j s).stage = s.stage := rfl
@[simp] theorem produceJob_inFlight (j : OwnJob) : (produceJob j s).inFlight = s.inFlight := rfl
@[simp] theorem produceJob_drains (j : OwnJob) : (produceJob j s).drains = s.drains := rfl
@[simp] theorem produceJob_ways (j : OwnJob) : (produceJob j s).ways = s.ways := rfl
@[simp] theorem produceJob_lru (j : OwnJob) : (produceJob j s).lru = s.lru := rfl
@[simp] theorem produceJob_fills (j : OwnJob) : (produceJob j s).fills = s.fills := rfl
@[simp] theorem produceJob_fillWaits (j : OwnJob) : (produceJob j s).fillWaits = s.fillWaits := rfl
@[simp] theorem produceJob_fillSerial (j : OwnJob) : (produceJob j s).fillSerial = s.fillSerial := rfl
@[simp] theorem produceJob_missQueue (j : OwnJob) : (produceJob j s).missQueue = s.missQueue := rfl
@[simp] theorem produceJob_poisonings (j : OwnJob) : (produceJob j s).poisonings = s.poisonings := rfl
@[simp] theorem produceJob_corrected (j : OwnJob) : (produceJob j s).corrected = s.corrected := rfl
@[simp] theorem produceJob_correctedLimit (j : OwnJob) : (produceJob j s).correctedLimit = s.correctedLimit := rfl
@[simp] theorem produceJob_firstCorrected (j : OwnJob) : (produceJob j s).firstCorrected = s.firstCorrected := rfl
@[simp] theorem produceJob_hold (j : OwnJob) : (produceJob j s).hold = s.hold := rfl
@[simp] theorem produceJob_poisonList (j : OwnJob) : (produceJob j s).poisonList = s.poisonList := rfl
@[simp] theorem produceJob_domains (j : OwnJob) : (produceJob j s).domains = s.domains := rfl
@[simp] theorem produceJob_grants (j : OwnJob) : (produceJob j s).grants = s.grants := rfl
@[simp] theorem produceJob_grantSerial (j : OwnJob) : (produceJob j s).grantSerial = s.grantSerial := rfl
@[simp] theorem produceJob_requests (j : OwnJob) : (produceJob j s).requests = s.requests := rfl
@[simp] theorem produceJob_running (j : OwnJob) : (produceJob j s).running = s.running := rfl
@[simp] theorem produceJob_results (j : OwnJob) : (produceJob j s).results = s.results := rfl
@[simp] theorem produceJob_channels (j : OwnJob) : (produceJob j s).channels = s.channels := rfl
@[simp] theorem produceJob_warm (j : OwnJob) : (produceJob j s).warm = s.warm := rfl
@[simp] theorem produceJob_units (j : OwnJob) : (produceJob j s).units = s.units := rfl
@[simp] theorem produceJob_lastServed (j : OwnJob) : (produceJob j s).lastServed = s.lastServed := rfl
@[simp] theorem produceJob_slots (j : OwnJob) : (produceJob j s).slots = s.slots := rfl
@[simp] theorem produceJob_regions (j : OwnJob) : (produceJob j s).regions = s.regions := rfl
@[simp] theorem produceJob_freeze (j : OwnJob) : (produceJob j s).freeze = s.freeze := rfl
@[simp] theorem produceJob_log (j : OwnJob) : (produceJob j s).log = s.log := rfl
@[simp] theorem produceJob_notices (j : OwnJob) : (produceJob j s).notices = s.notices := rfl
@[simp] theorem produceJob_pending (j : OwnJob) : (produceJob j s).pending = s.pending := rfl
@[simp] theorem dom_produceJob (j : OwnJob) (y : Nat) : dom (produceJob j s) y = dom s y := rfl
@[simp] theorem chan_produceJob (j : OwnJob) (y : Nat) : chan (produceJob j s) y = chan s y := rfl
@[simp] theorem slotOf_produceJob (j : OwnJob) (y : Nat) : slotOf (produceJob j s) y = slotOf s y := rfl
@[simp] theorem regionOf_produceJob (j : OwnJob) (y : Nat) : regionOf (produceJob j s) y = regionOf s y := rfl
@[simp] theorem sourceOf_produceJob (j : OwnJob) (y : Nat) : sourceOf (produceJob j s) y = sourceOf s y := rfl
@[simp] theorem resultOf_produceJob (j : OwnJob) (y : Nat) : resultOf (produceJob j s) y = resultOf s y := rfl
@[simp] theorem grantAt_produceJob (j : OwnJob) (y : Nat) : grantAt (produceJob j s) y = grantAt s y := rfl
@[simp] theorem unitOf_produceJob (j : OwnJob) (y : Nat) : unitOf (produceJob j s) y = unitOf s y := rfl
@[simp] theorem recordAt_produceJob (j : OwnJob) (y : Nat) : recordAt (produceJob j s) y = recordAt s y := rfl
@[simp] theorem findKey_produceJob (j : OwnJob) (y : Nat) : findKey (produceJob j s) y = findKey s y := rfl

/-! ### `issueProduced` -/

theorem issueJobs_shape (l : List OwnJob) :
    l.foldl (fun t j => issueJob j t) s = { s with
    outstanding := (l.foldl (fun t j => issueJob j t) s).outstanding
    offers := (l.foldl (fun t j => issueJob j t) s).offers
    tagWaits := (l.foldl (fun t j => issueJob j t) s).tagWaits
    fills := (l.foldl (fun t j => issueJob j t) s).fills
    units := (l.foldl (fun t j => issueJob j t) s).units } := by
  induction l generalizing s with
  | nil => rfl
  | cons x m ih => rw [List.foldl_cons, ih]; rw [issueJob_shape]

theorem issueProduced_shape (old : State) :
    issueProduced old s = { s with
    outstanding := (issueProduced old s).outstanding
    offers := (issueProduced old s).offers
    tagWaits := (issueProduced old s).tagWaits
    produced := old.produced
    fills := (issueProduced old s).fills
    units := (issueProduced old s).units } := by
  unfold issueProduced; rw [issueJobs_shape]

/-- The end of a step leaves the requests produced as they were before the step (R10). -/
@[simp] theorem issueProduced_produced (old : State) : (issueProduced old s).produced = old.produced := by
  rw [issueProduced_shape]

/-- A step that has produced no request issues none (R10). -/
theorem issueProduced_same {old : State} (h : s.produced = old.produced) : issueProduced old s = s := by
  unfold issueProduced producedJobs
  rw [← h, List.drop_length]; rfl

/-- A step that has produced one request issues it, or lets it wait for a tag (R10). -/
theorem issueProduced_one {old : State} {j : OwnJob} (h : s.produced = old.produced ++ [j]) :
    issueProduced old s = issueJob j { s with produced := old.produced } := by
  unfold issueProduced producedJobs
  rw [h, List.drop_left]; rfl

@[simp] theorem issueProduced_base (old : State) : (issueProduced old s).base = s.base :=
  by rw [issueProduced_shape]
@[simp] theorem issueProduced_requested (old : State) : (issueProduced old s).requested = s.requested :=
  by rw [issueProduced_shape]
@[simp] theorem issueProduced_size (old : State) : (issueProduced old s).size = s.size :=
  by rw [issueProduced_shape]
@[simp] theorem issueProduced_mode (old : State) : (issueProduced old s).mode = s.mode :=
  by rw [issueProduced_shape]
@[simp] theorem issueProduced_cause (old : State) : (issueProduced old s).cause = s.cause :=
  by rw [issueProduced_shape]
@[simp] theorem issueProduced_integrityMark (old : State) : (issueProduced old s).integrityMark = s.integrityMark :=
  by rw [issueProduced_shape]
@[simp] theorem issueProduced_policy (old : State) : (issueProduced old s).policy = s.policy :=
  by rw [issueProduced_shape]
@[simp] theorem issueProduced_faultLine (old : State) : (issueProduced old s).faultLine = s.faultLine :=
  by rw [issueProduced_shape]
@[simp] theorem issueProduced_warnLine (old : State) : (issueProduced old s).warnLine = s.warnLine :=
  by rw [issueProduced_shape]
@[simp] theorem issueProduced_flush (old : State) : (issueProduced old s).flush = s.flush :=
  by rw [issueProduced_shape]
@[simp] theorem issueProduced_tagBase (old : State) : (issueProduced old s).tagBase = s.tagBase :=
  by rw [issueProduced_shape]
@[simp] theorem issueProduced_progress (old : State) : (issueProduced old s).progress = s.progress :=
  by rw [issueProduced_shape]
@[simp] theorem issueProduced_upLink (old : State) : (issueProduced old s).upLink = s.upLink :=
  by rw [issueProduced_shape]
@[simp] theorem issueProduced_tagsInUse (old : State) : (issueProduced old s).tagsInUse = s.tagsInUse :=
  by rw [issueProduced_shape]
@[simp] theorem issueProduced_completions (old : State) : (issueProduced old s).completions = s.completions :=
  by rw [issueProduced_shape]
@[simp] theorem issueProduced_noticeSlot (old : State) : (issueProduced old s).noticeSlot = s.noticeSlot :=
  by rw [issueProduced_shape]
@[simp] theorem issueProduced_txOffered (old : State) : (issueProduced old s).txOffered = s.txOffered :=
  by rw [issueProduced_shape]
@[simp] theorem issueProduced_txLast (old : State) : (issueProduced old s).txLast = s.txLast :=
  by rw [issueProduced_shape]
@[simp] theorem issueProduced_downLink (old : State) : (issueProduced old s).downLink = s.downLink :=
  by rw [issueProduced_shape]
@[simp] theorem issueProduced_heldTags (old : State) : (issueProduced old s).heldTags = s.heldTags :=
  by rw [issueProduced_shape]
@[simp] theorem issueProduced_downOffered (old : State) : (issueProduced old s).downOffered = s.downOffered :=
  by rw [issueProduced_shape]
@[simp] theorem issueProduced_lastClass (old : State) : (issueProduced old s).lastClass = s.lastClass :=
  by rw [issueProduced_shape]
@[simp] theorem issueProduced_stage (old : State) : (issueProduced old s).stage = s.stage :=
  by rw [issueProduced_shape]
@[simp] theorem issueProduced_inFlight (old : State) : (issueProduced old s).inFlight = s.inFlight :=
  by rw [issueProduced_shape]
@[simp] theorem issueProduced_drains (old : State) : (issueProduced old s).drains = s.drains :=
  by rw [issueProduced_shape]
@[simp] theorem issueProduced_ways (old : State) : (issueProduced old s).ways = s.ways :=
  by rw [issueProduced_shape]
@[simp] theorem issueProduced_lru (old : State) : (issueProduced old s).lru = s.lru := by rw [issueProduced_shape]
@[simp] theorem issueProduced_fillWaits (old : State) : (issueProduced old s).fillWaits = s.fillWaits :=
  by rw [issueProduced_shape]
@[simp] theorem issueProduced_fillSerial (old : State) : (issueProduced old s).fillSerial = s.fillSerial :=
  by rw [issueProduced_shape]
@[simp] theorem issueProduced_missQueue (old : State) : (issueProduced old s).missQueue = s.missQueue :=
  by rw [issueProduced_shape]
@[simp] theorem issueProduced_poisonings (old : State) : (issueProduced old s).poisonings = s.poisonings :=
  by rw [issueProduced_shape]
@[simp] theorem issueProduced_corrected (old : State) : (issueProduced old s).corrected = s.corrected :=
  by rw [issueProduced_shape]
@[simp] theorem issueProduced_correctedLimit (old : State) : (issueProduced old s).correctedLimit = s.correctedLimit :=
  by rw [issueProduced_shape]
@[simp] theorem issueProduced_firstCorrected (old : State) : (issueProduced old s).firstCorrected = s.firstCorrected :=
  by rw [issueProduced_shape]
@[simp] theorem issueProduced_hold (old : State) : (issueProduced old s).hold = s.hold :=
  by rw [issueProduced_shape]
@[simp] theorem issueProduced_poisonList (old : State) : (issueProduced old s).poisonList = s.poisonList :=
  by rw [issueProduced_shape]
@[simp] theorem issueProduced_domains (old : State) : (issueProduced old s).domains = s.domains :=
  by rw [issueProduced_shape]
@[simp] theorem issueProduced_grants (old : State) : (issueProduced old s).grants = s.grants :=
  by rw [issueProduced_shape]
@[simp] theorem issueProduced_grantSerial (old : State) : (issueProduced old s).grantSerial = s.grantSerial :=
  by rw [issueProduced_shape]
@[simp] theorem issueProduced_requests (old : State) : (issueProduced old s).requests = s.requests :=
  by rw [issueProduced_shape]
@[simp] theorem issueProduced_running (old : State) : (issueProduced old s).running = s.running :=
  by rw [issueProduced_shape]
@[simp] theorem issueProduced_results (old : State) : (issueProduced old s).results = s.results :=
  by rw [issueProduced_shape]
@[simp] theorem issueProduced_channels (old : State) : (issueProduced old s).channels = s.channels :=
  by rw [issueProduced_shape]
@[simp] theorem issueProduced_warm (old : State) : (issueProduced old s).warm = s.warm :=
  by rw [issueProduced_shape]
@[simp] theorem issueProduced_lastServed (old : State) : (issueProduced old s).lastServed = s.lastServed :=
  by rw [issueProduced_shape]
@[simp] theorem issueProduced_slots (old : State) : (issueProduced old s).slots = s.slots :=
  by rw [issueProduced_shape]
@[simp] theorem issueProduced_regions (old : State) : (issueProduced old s).regions = s.regions :=
  by rw [issueProduced_shape]
@[simp] theorem issueProduced_freeze (old : State) : (issueProduced old s).freeze = s.freeze :=
  by rw [issueProduced_shape]
@[simp] theorem issueProduced_log (old : State) : (issueProduced old s).log = s.log := by rw [issueProduced_shape]
@[simp] theorem issueProduced_notices (old : State) : (issueProduced old s).notices = s.notices :=
  by rw [issueProduced_shape]
@[simp] theorem issueProduced_pending (old : State) : (issueProduced old s).pending = s.pending :=
  by rw [issueProduced_shape]
@[simp] theorem dom_issueProduced (old : State) (y : Nat) : dom (issueProduced old s) y = dom s y :=
  by rw [issueProduced_shape]; rfl
@[simp] theorem chan_issueProduced (old : State) (y : Nat) : chan (issueProduced old s) y = chan s y :=
  by rw [issueProduced_shape]; rfl
@[simp] theorem slotOf_issueProduced (old : State) (y : Nat) : slotOf (issueProduced old s) y = slotOf s y :=
  by rw [issueProduced_shape]; rfl
@[simp] theorem regionOf_issueProduced (old : State) (y : Nat) : regionOf (issueProduced old s) y = regionOf s y :=
  by rw [issueProduced_shape]; rfl
@[simp] theorem sourceOf_issueProduced (old : State) (y : Nat) : sourceOf (issueProduced old s) y = sourceOf s y :=
  by rw [issueProduced_shape]; rfl
@[simp] theorem resultOf_issueProduced (old : State) (y : Nat) : resultOf (issueProduced old s) y = resultOf s y :=
  by rw [issueProduced_shape]; rfl
@[simp] theorem grantAt_issueProduced (old : State) (y : Nat) : grantAt (issueProduced old s) y = grantAt s y :=
  by rw [issueProduced_shape]; rfl
@[simp] theorem recordAt_issueProduced (old : State) (y : Nat) : recordAt (issueProduced old s) y = recordAt s y :=
  by rw [issueProduced_shape]; rfl
@[simp] theorem findKey_issueProduced (old : State) (y : Nat) : findKey (issueProduced old s) y = findKey s y :=
  by rw [issueProduced_shape]; rfl

/-! ### `issueWriteBacks` -/

theorem issueWriteBacks_eq (l : List (Nat × Nat)) :
    issueWriteBacks l s = { s with produced := s.produced ++ l.map (fun x => .writeBack x.1 x.2) } := by
  unfold issueWriteBacks
  induction l generalizing s with
  | nil => simp
  | cons x m ih => rw [List.foldl_cons, ih]; simp [produceJob]

theorem issueWriteBacks_shape (l : List (Nat × Nat)) :
    issueWriteBacks l s = { s with produced := (issueWriteBacks l s).produced } := by rw [issueWriteBacks_eq]

@[simp] theorem issueWriteBacks_base (l : List (Nat × Nat)) : (issueWriteBacks l s).base = s.base :=
  by rw [issueWriteBacks_shape]
@[simp] theorem issueWriteBacks_requested (l : List (Nat × Nat)) : (issueWriteBacks l s).requested = s.requested :=
  by rw [issueWriteBacks_shape]
@[simp] theorem issueWriteBacks_size (l : List (Nat × Nat)) : (issueWriteBacks l s).size = s.size :=
  by rw [issueWriteBacks_shape]
@[simp] theorem issueWriteBacks_mode (l : List (Nat × Nat)) : (issueWriteBacks l s).mode = s.mode :=
  by rw [issueWriteBacks_shape]
@[simp] theorem issueWriteBacks_cause (l : List (Nat × Nat)) : (issueWriteBacks l s).cause = s.cause :=
  by rw [issueWriteBacks_shape]
@[simp] theorem issueWriteBacks_integrityMark (l : List (Nat × Nat)) : (issueWriteBacks l s).integrityMark =
    s.integrityMark :=
  by rw [issueWriteBacks_shape]
@[simp] theorem issueWriteBacks_policy (l : List (Nat × Nat)) : (issueWriteBacks l s).policy = s.policy :=
  by rw [issueWriteBacks_shape]
@[simp] theorem issueWriteBacks_faultLine (l : List (Nat × Nat)) : (issueWriteBacks l s).faultLine = s.faultLine :=
  by rw [issueWriteBacks_shape]
@[simp] theorem issueWriteBacks_warnLine (l : List (Nat × Nat)) : (issueWriteBacks l s).warnLine = s.warnLine :=
  by rw [issueWriteBacks_shape]
@[simp] theorem issueWriteBacks_flush (l : List (Nat × Nat)) : (issueWriteBacks l s).flush = s.flush :=
  by rw [issueWriteBacks_shape]
@[simp] theorem issueWriteBacks_tagBase (l : List (Nat × Nat)) : (issueWriteBacks l s).tagBase = s.tagBase :=
  by rw [issueWriteBacks_shape]
@[simp] theorem issueWriteBacks_progress (l : List (Nat × Nat)) : (issueWriteBacks l s).progress = s.progress :=
  by rw [issueWriteBacks_shape]
@[simp] theorem issueWriteBacks_upLink (l : List (Nat × Nat)) : (issueWriteBacks l s).upLink = s.upLink :=
  by rw [issueWriteBacks_shape]
@[simp] theorem issueWriteBacks_tagsInUse (l : List (Nat × Nat)) : (issueWriteBacks l s).tagsInUse = s.tagsInUse :=
  by rw [issueWriteBacks_shape]
@[simp] theorem issueWriteBacks_completions (l : List (Nat × Nat)) : (issueWriteBacks l s).completions = s.completions :=
  by rw [issueWriteBacks_shape]
@[simp] theorem issueWriteBacks_noticeSlot (l : List (Nat × Nat)) : (issueWriteBacks l s).noticeSlot = s.noticeSlot :=
  by rw [issueWriteBacks_shape]
@[simp] theorem issueWriteBacks_txOffered (l : List (Nat × Nat)) : (issueWriteBacks l s).txOffered = s.txOffered :=
  by rw [issueWriteBacks_shape]
@[simp] theorem issueWriteBacks_txLast (l : List (Nat × Nat)) : (issueWriteBacks l s).txLast = s.txLast :=
  by rw [issueWriteBacks_shape]
@[simp] theorem issueWriteBacks_downLink (l : List (Nat × Nat)) : (issueWriteBacks l s).downLink = s.downLink :=
  by rw [issueWriteBacks_shape]
@[simp] theorem issueWriteBacks_outstanding (l : List (Nat × Nat)) : (issueWriteBacks l s).outstanding = s.outstanding :=
  by rw [issueWriteBacks_shape]
@[simp] theorem issueWriteBacks_heldTags (l : List (Nat × Nat)) : (issueWriteBacks l s).heldTags = s.heldTags :=
  by rw [issueWriteBacks_shape]
@[simp] theorem issueWriteBacks_tagWaits (l : List (Nat × Nat)) : (issueWriteBacks l s).tagWaits = s.tagWaits :=
  by rw [issueWriteBacks_shape]
@[simp] theorem issueWriteBacks_offers (l : List (Nat × Nat)) : (issueWriteBacks l s).offers = s.offers :=
  by rw [issueWriteBacks_shape]
@[simp] theorem issueWriteBacks_downOffered (l : List (Nat × Nat)) : (issueWriteBacks l s).downOffered = s.downOffered :=
  by rw [issueWriteBacks_shape]
@[simp] theorem issueWriteBacks_lastClass (l : List (Nat × Nat)) : (issueWriteBacks l s).lastClass = s.lastClass :=
  by rw [issueWriteBacks_shape]
@[simp] theorem issueWriteBacks_stage (l : List (Nat × Nat)) : (issueWriteBacks l s).stage = s.stage :=
  by rw [issueWriteBacks_shape]
@[simp] theorem issueWriteBacks_inFlight (l : List (Nat × Nat)) : (issueWriteBacks l s).inFlight = s.inFlight :=
  by rw [issueWriteBacks_shape]
@[simp] theorem issueWriteBacks_drains (l : List (Nat × Nat)) : (issueWriteBacks l s).drains = s.drains :=
  by rw [issueWriteBacks_shape]
@[simp] theorem issueWriteBacks_ways (l : List (Nat × Nat)) : (issueWriteBacks l s).ways = s.ways :=
  by rw [issueWriteBacks_shape]
@[simp] theorem issueWriteBacks_lru (l : List (Nat × Nat)) : (issueWriteBacks l s).lru = s.lru :=
  by rw [issueWriteBacks_shape]
@[simp] theorem issueWriteBacks_fills (l : List (Nat × Nat)) : (issueWriteBacks l s).fills = s.fills :=
  by rw [issueWriteBacks_shape]
@[simp] theorem issueWriteBacks_fillWaits (l : List (Nat × Nat)) : (issueWriteBacks l s).fillWaits = s.fillWaits :=
  by rw [issueWriteBacks_shape]
@[simp] theorem issueWriteBacks_fillSerial (l : List (Nat × Nat)) : (issueWriteBacks l s).fillSerial = s.fillSerial :=
  by rw [issueWriteBacks_shape]
@[simp] theorem issueWriteBacks_missQueue (l : List (Nat × Nat)) : (issueWriteBacks l s).missQueue = s.missQueue :=
  by rw [issueWriteBacks_shape]
@[simp] theorem issueWriteBacks_poisonings (l : List (Nat × Nat)) : (issueWriteBacks l s).poisonings = s.poisonings :=
  by rw [issueWriteBacks_shape]
@[simp] theorem issueWriteBacks_corrected (l : List (Nat × Nat)) : (issueWriteBacks l s).corrected = s.corrected :=
  by rw [issueWriteBacks_shape]
@[simp] theorem issueWriteBacks_correctedLimit (l : List (Nat × Nat)) : (issueWriteBacks l s).correctedLimit
    = s.correctedLimit :=
  by rw [issueWriteBacks_shape]
@[simp] theorem issueWriteBacks_firstCorrected (l : List (Nat × Nat)) : (issueWriteBacks l s).firstCorrected
    = s.firstCorrected :=
  by rw [issueWriteBacks_shape]
@[simp] theorem issueWriteBacks_hold (l : List (Nat × Nat)) : (issueWriteBacks l s).hold = s.hold :=
  by rw [issueWriteBacks_shape]
@[simp] theorem issueWriteBacks_poisonList (l : List (Nat × Nat)) : (issueWriteBacks l s).poisonList = s.poisonList :=
  by rw [issueWriteBacks_shape]
@[simp] theorem issueWriteBacks_domains (l : List (Nat × Nat)) : (issueWriteBacks l s).domains = s.domains :=
  by rw [issueWriteBacks_shape]
@[simp] theorem issueWriteBacks_grants (l : List (Nat × Nat)) : (issueWriteBacks l s).grants = s.grants :=
  by rw [issueWriteBacks_shape]
@[simp] theorem issueWriteBacks_grantSerial (l : List (Nat × Nat)) : (issueWriteBacks l s).grantSerial = s.grantSerial :=
  by rw [issueWriteBacks_shape]
@[simp] theorem issueWriteBacks_requests (l : List (Nat × Nat)) : (issueWriteBacks l s).requests = s.requests :=
  by rw [issueWriteBacks_shape]
@[simp] theorem issueWriteBacks_running (l : List (Nat × Nat)) : (issueWriteBacks l s).running = s.running :=
  by rw [issueWriteBacks_shape]
@[simp] theorem issueWriteBacks_results (l : List (Nat × Nat)) : (issueWriteBacks l s).results = s.results :=
  by rw [issueWriteBacks_shape]
@[simp] theorem issueWriteBacks_channels (l : List (Nat × Nat)) : (issueWriteBacks l s).channels = s.channels :=
  by rw [issueWriteBacks_shape]
@[simp] theorem issueWriteBacks_warm (l : List (Nat × Nat)) : (issueWriteBacks l s).warm = s.warm :=
  by rw [issueWriteBacks_shape]
@[simp] theorem issueWriteBacks_units (l : List (Nat × Nat)) : (issueWriteBacks l s).units = s.units :=
  by rw [issueWriteBacks_shape]
@[simp] theorem issueWriteBacks_lastServed (l : List (Nat × Nat)) : (issueWriteBacks l s).lastServed = s.lastServed :=
  by rw [issueWriteBacks_shape]
@[simp] theorem issueWriteBacks_slots (l : List (Nat × Nat)) : (issueWriteBacks l s).slots = s.slots :=
  by rw [issueWriteBacks_shape]
@[simp] theorem issueWriteBacks_regions (l : List (Nat × Nat)) : (issueWriteBacks l s).regions = s.regions :=
  by rw [issueWriteBacks_shape]
@[simp] theorem issueWriteBacks_freeze (l : List (Nat × Nat)) : (issueWriteBacks l s).freeze = s.freeze :=
  by rw [issueWriteBacks_shape]
@[simp] theorem issueWriteBacks_log (l : List (Nat × Nat)) : (issueWriteBacks l s).log = s.log :=
  by rw [issueWriteBacks_shape]
@[simp] theorem issueWriteBacks_notices (l : List (Nat × Nat)) : (issueWriteBacks l s).notices = s.notices :=
  by rw [issueWriteBacks_shape]
@[simp] theorem issueWriteBacks_pending (l : List (Nat × Nat)) : (issueWriteBacks l s).pending = s.pending :=
  by rw [issueWriteBacks_shape]
@[simp] theorem dom_issueWriteBacks (l : List (Nat × Nat)) (y : Nat) : dom (issueWriteBacks l s) y = dom s y :=
  by rw [issueWriteBacks_shape]; rfl
@[simp] theorem chan_issueWriteBacks (l : List (Nat × Nat)) (y : Nat) : chan (issueWriteBacks l s) y = chan s y :=
  by rw [issueWriteBacks_shape]; rfl
@[simp] theorem slotOf_issueWriteBacks (l : List (Nat × Nat)) (y : Nat) : slotOf (issueWriteBacks l s) y = slotOf s y :=
  by rw [issueWriteBacks_shape]; rfl
@[simp] theorem regionOf_issueWriteBacks (l : List (Nat × Nat)) (y : Nat) : regionOf (issueWriteBacks l s) y
    = regionOf s y :=
  by rw [issueWriteBacks_shape]; rfl
@[simp] theorem sourceOf_issueWriteBacks (l : List (Nat × Nat)) (y : Nat) : sourceOf (issueWriteBacks l s) y
    = sourceOf s y :=
  by rw [issueWriteBacks_shape]; rfl
@[simp] theorem resultOf_issueWriteBacks (l : List (Nat × Nat)) (y : Nat) : resultOf (issueWriteBacks l s) y
    = resultOf s y :=
  by rw [issueWriteBacks_shape]; rfl
@[simp] theorem grantAt_issueWriteBacks (l : List (Nat × Nat)) (y : Nat) : grantAt (issueWriteBacks l s) y = grantAt s y :=
  by rw [issueWriteBacks_shape]; rfl
@[simp] theorem unitOf_issueWriteBacks (l : List (Nat × Nat)) (y : Nat) : unitOf (issueWriteBacks l s) y = unitOf s y :=
  by rw [issueWriteBacks_shape]; rfl
@[simp] theorem recordAt_issueWriteBacks (l : List (Nat × Nat)) (y : Nat) : recordAt (issueWriteBacks l s) y
    = recordAt s y :=
  by rw [issueWriteBacks_shape]; rfl
@[simp] theorem findKey_issueWriteBacks (l : List (Nat × Nat)) (y : Nat) : findKey (issueWriteBacks l s) y = findKey s y :=
  by rw [issueWriteBacks_shape]; rfl

/-! ### `claimFor` -/

theorem claimFor_shape (n set way : Nat) :
    claimFor n set way s = { s with
    fills := (claimFor n set way s).fills
    produced := (claimFor n set way s).produced } := by
  unfold claimFor; dsimp only; split
  · split <;> rfl
  · rfl

/-! ### `startFill` -/

theorem startFill_shape (line : Nat) :
    startFill line s = { s with
    fillSerial := (startFill line s).fillSerial
    fills := (startFill line s).fills
    produced := (startFill line s).produced } := by
  unfold startFill; dsimp only; split
  · rw [claimFor_shape]; rfl
  · rfl

/-! ### `joinFill` -/

theorem joinFill_shape (line : Nat) :
    joinFill line s = { s with
    fillSerial := (joinFill line s).fillSerial
    fillWaits := (joinFill line s).fillWaits
    fills := (joinFill line s).fills
    produced := (joinFill line s).produced } := by
  unfold joinFill; split
  · rfl
  · split
    · rw [startFill_shape]
    · rfl

@[simp] theorem joinFill_base (line : Nat) : (joinFill line s).base = s.base := by rw [joinFill_shape]
@[simp] theorem joinFill_requested (line : Nat) : (joinFill line s).requested = s.requested :=
  by rw [joinFill_shape]
@[simp] theorem joinFill_size (line : Nat) : (joinFill line s).size = s.size := by rw [joinFill_shape]
@[simp] theorem joinFill_mode (line : Nat) : (joinFill line s).mode = s.mode := by rw [joinFill_shape]
@[simp] theorem joinFill_cause (line : Nat) : (joinFill line s).cause = s.cause := by rw [joinFill_shape]
@[simp] theorem joinFill_integrityMark (line : Nat) : (joinFill line s).integrityMark = s.integrityMark :=
  by rw [joinFill_shape]
@[simp] theorem joinFill_policy (line : Nat) : (joinFill line s).policy = s.policy := by rw [joinFill_shape]
@[simp] theorem joinFill_faultLine (line : Nat) : (joinFill line s).faultLine = s.faultLine :=
  by rw [joinFill_shape]
@[simp] theorem joinFill_warnLine (line : Nat) : (joinFill line s).warnLine = s.warnLine := by rw [joinFill_shape]
@[simp] theorem joinFill_flush (line : Nat) : (joinFill line s).flush = s.flush := by rw [joinFill_shape]
@[simp] theorem joinFill_tagBase (line : Nat) : (joinFill line s).tagBase = s.tagBase := by rw [joinFill_shape]
@[simp] theorem joinFill_progress (line : Nat) : (joinFill line s).progress = s.progress := by rw [joinFill_shape]
@[simp] theorem joinFill_upLink (line : Nat) : (joinFill line s).upLink = s.upLink := by rw [joinFill_shape]
@[simp] theorem joinFill_tagsInUse (line : Nat) : (joinFill line s).tagsInUse = s.tagsInUse :=
  by rw [joinFill_shape]
@[simp] theorem joinFill_completions (line : Nat) : (joinFill line s).completions = s.completions :=
  by rw [joinFill_shape]
@[simp] theorem joinFill_noticeSlot (line : Nat) : (joinFill line s).noticeSlot = s.noticeSlot :=
  by rw [joinFill_shape]
@[simp] theorem joinFill_txOffered (line : Nat) : (joinFill line s).txOffered = s.txOffered :=
  by rw [joinFill_shape]
@[simp] theorem joinFill_txLast (line : Nat) : (joinFill line s).txLast = s.txLast := by rw [joinFill_shape]
@[simp] theorem joinFill_downLink (line : Nat) : (joinFill line s).downLink = s.downLink := by rw [joinFill_shape]
@[simp] theorem joinFill_outstanding (line : Nat) : (joinFill line s).outstanding = s.outstanding :=
  by rw [joinFill_shape]
@[simp] theorem joinFill_heldTags (line : Nat) : (joinFill line s).heldTags = s.heldTags := by rw [joinFill_shape]
@[simp] theorem joinFill_tagWaits (line : Nat) : (joinFill line s).tagWaits = s.tagWaits :=
  by rw [joinFill_shape]
@[simp] theorem joinFill_offers (line : Nat) : (joinFill line s).offers = s.offers := by rw [joinFill_shape]
@[simp] theorem joinFill_downOffered (line : Nat) : (joinFill line s).downOffered = s.downOffered :=
  by rw [joinFill_shape]
@[simp] theorem joinFill_lastClass (line : Nat) : (joinFill line s).lastClass = s.lastClass :=
  by rw [joinFill_shape]
@[simp] theorem joinFill_stage (line : Nat) : (joinFill line s).stage = s.stage := by rw [joinFill_shape]
@[simp] theorem joinFill_inFlight (line : Nat) : (joinFill line s).inFlight = s.inFlight := by rw [joinFill_shape]
@[simp] theorem joinFill_drains (line : Nat) : (joinFill line s).drains = s.drains := by rw [joinFill_shape]
@[simp] theorem joinFill_ways (line : Nat) : (joinFill line s).ways = s.ways := by rw [joinFill_shape]
@[simp] theorem joinFill_lru (line : Nat) : (joinFill line s).lru = s.lru := by rw [joinFill_shape]
@[simp] theorem joinFill_missQueue (line : Nat) : (joinFill line s).missQueue = s.missQueue :=
  by rw [joinFill_shape]
@[simp] theorem joinFill_poisonings (line : Nat) : (joinFill line s).poisonings = s.poisonings :=
  by rw [joinFill_shape]
@[simp] theorem joinFill_corrected (line : Nat) : (joinFill line s).corrected = s.corrected :=
  by rw [joinFill_shape]
@[simp] theorem joinFill_correctedLimit (line : Nat) : (joinFill line s).correctedLimit = s.correctedLimit :=
  by rw [joinFill_shape]
@[simp] theorem joinFill_firstCorrected (line : Nat) : (joinFill line s).firstCorrected = s.firstCorrected :=
  by rw [joinFill_shape]
@[simp] theorem joinFill_hold (line : Nat) : (joinFill line s).hold = s.hold := by rw [joinFill_shape]
@[simp] theorem joinFill_poisonList (line : Nat) : (joinFill line s).poisonList = s.poisonList :=
  by rw [joinFill_shape]
@[simp] theorem joinFill_domains (line : Nat) : (joinFill line s).domains = s.domains := by rw [joinFill_shape]
@[simp] theorem joinFill_grants (line : Nat) : (joinFill line s).grants = s.grants := by rw [joinFill_shape]
@[simp] theorem joinFill_grantSerial (line : Nat) : (joinFill line s).grantSerial = s.grantSerial :=
  by rw [joinFill_shape]
@[simp] theorem joinFill_requests (line : Nat) : (joinFill line s).requests = s.requests := by rw [joinFill_shape]
@[simp] theorem joinFill_running (line : Nat) : (joinFill line s).running = s.running := by rw [joinFill_shape]
@[simp] theorem joinFill_results (line : Nat) : (joinFill line s).results = s.results := by rw [joinFill_shape]
@[simp] theorem joinFill_channels (line : Nat) : (joinFill line s).channels = s.channels := by rw [joinFill_shape]
@[simp] theorem joinFill_warm (line : Nat) : (joinFill line s).warm = s.warm := by rw [joinFill_shape]
@[simp] theorem joinFill_units (line : Nat) : (joinFill line s).units = s.units := by rw [joinFill_shape]
@[simp] theorem joinFill_lastServed (line : Nat) : (joinFill line s).lastServed = s.lastServed :=
  by rw [joinFill_shape]
@[simp] theorem joinFill_slots (line : Nat) : (joinFill line s).slots = s.slots := by rw [joinFill_shape]
@[simp] theorem joinFill_regions (line : Nat) : (joinFill line s).regions = s.regions := by rw [joinFill_shape]
@[simp] theorem joinFill_freeze (line : Nat) : (joinFill line s).freeze = s.freeze := by rw [joinFill_shape]
@[simp] theorem joinFill_log (line : Nat) : (joinFill line s).log = s.log := by rw [joinFill_shape]
@[simp] theorem joinFill_notices (line : Nat) : (joinFill line s).notices = s.notices := by rw [joinFill_shape]
@[simp] theorem joinFill_pending (line : Nat) : (joinFill line s).pending = s.pending := by rw [joinFill_shape]
@[simp] theorem dom_joinFill (line : Nat) (y : Nat) : dom (joinFill line s) y = dom s y :=
  by rw [joinFill_shape]; rfl
@[simp] theorem chan_joinFill (line : Nat) (y : Nat) : chan (joinFill line s) y = chan s y :=
  by rw [joinFill_shape]; rfl
@[simp] theorem slotOf_joinFill (line : Nat) (y : Nat) : slotOf (joinFill line s) y = slotOf s y :=
  by rw [joinFill_shape]; rfl
@[simp] theorem regionOf_joinFill (line : Nat) (y : Nat) : regionOf (joinFill line s) y = regionOf s y :=
  by rw [joinFill_shape]; rfl
@[simp] theorem sourceOf_joinFill (line : Nat) (y : Nat) : sourceOf (joinFill line s) y = sourceOf s y :=
  by rw [joinFill_shape]; rfl
@[simp] theorem resultOf_joinFill (line : Nat) (y : Nat) : resultOf (joinFill line s) y = resultOf s y :=
  by rw [joinFill_shape]; rfl
@[simp] theorem grantAt_joinFill (line : Nat) (y : Nat) : grantAt (joinFill line s) y = grantAt s y :=
  by rw [joinFill_shape]; rfl
@[simp] theorem unitOf_joinFill (line : Nat) (y : Nat) : unitOf (joinFill line s) y = unitOf s y :=
  by rw [joinFill_shape]; rfl
@[simp] theorem recordAt_joinFill (line : Nat) (y : Nat) : recordAt (joinFill line s) y = recordAt s y :=
  by rw [joinFill_shape]; rfl
@[simp] theorem findKey_joinFill (line : Nat) (y : Nat) : findKey (joinFill line s) y = findKey s y :=
  by rw [joinFill_shape]; rfl

/-! ### `beginDrain` -/

theorem beginDrain_shape (u : DrainUser) (k : DrainKey) :
    beginDrain u k s = { s with drains := (beginDrain u k s).drains } := by
  unfold beginDrain; dsimp only; split <;> split <;> rfl

@[simp] theorem beginDrain_base (u : DrainUser) (k : DrainKey) : (beginDrain u k s).base = s.base :=
  by rw [beginDrain_shape]
@[simp] theorem beginDrain_requested (u : DrainUser) (k : DrainKey) : (beginDrain u k s).requested = s.requested :=
  by rw [beginDrain_shape]
@[simp] theorem beginDrain_size (u : DrainUser) (k : DrainKey) : (beginDrain u k s).size = s.size :=
  by rw [beginDrain_shape]
@[simp] theorem beginDrain_mode (u : DrainUser) (k : DrainKey) : (beginDrain u k s).mode = s.mode :=
  by rw [beginDrain_shape]
@[simp] theorem beginDrain_cause (u : DrainUser) (k : DrainKey) : (beginDrain u k s).cause = s.cause :=
  by rw [beginDrain_shape]
@[simp] theorem beginDrain_integrityMark (u : DrainUser) (k : DrainKey) : (beginDrain u k s).integrityMark =
    s.integrityMark :=
  by rw [beginDrain_shape]
@[simp] theorem beginDrain_policy (u : DrainUser) (k : DrainKey) : (beginDrain u k s).policy = s.policy :=
  by rw [beginDrain_shape]
@[simp] theorem beginDrain_faultLine (u : DrainUser) (k : DrainKey) : (beginDrain u k s).faultLine = s.faultLine :=
  by rw [beginDrain_shape]
@[simp] theorem beginDrain_warnLine (u : DrainUser) (k : DrainKey) : (beginDrain u k s).warnLine = s.warnLine :=
  by rw [beginDrain_shape]
@[simp] theorem beginDrain_flush (u : DrainUser) (k : DrainKey) : (beginDrain u k s).flush = s.flush :=
  by rw [beginDrain_shape]
@[simp] theorem beginDrain_tagBase (u : DrainUser) (k : DrainKey) : (beginDrain u k s).tagBase = s.tagBase :=
  by rw [beginDrain_shape]
@[simp] theorem beginDrain_progress (u : DrainUser) (k : DrainKey) : (beginDrain u k s).progress = s.progress :=
  by rw [beginDrain_shape]
@[simp] theorem beginDrain_upLink (u : DrainUser) (k : DrainKey) : (beginDrain u k s).upLink = s.upLink :=
  by rw [beginDrain_shape]
@[simp] theorem beginDrain_tagsInUse (u : DrainUser) (k : DrainKey) : (beginDrain u k s).tagsInUse = s.tagsInUse :=
  by rw [beginDrain_shape]
@[simp] theorem beginDrain_completions (u : DrainUser) (k : DrainKey) : (beginDrain u k s).completions = s.completions :=
  by rw [beginDrain_shape]
@[simp] theorem beginDrain_noticeSlot (u : DrainUser) (k : DrainKey) : (beginDrain u k s).noticeSlot = s.noticeSlot :=
  by rw [beginDrain_shape]
@[simp] theorem beginDrain_txOffered (u : DrainUser) (k : DrainKey) : (beginDrain u k s).txOffered = s.txOffered :=
  by rw [beginDrain_shape]
@[simp] theorem beginDrain_txLast (u : DrainUser) (k : DrainKey) : (beginDrain u k s).txLast = s.txLast :=
  by rw [beginDrain_shape]
@[simp] theorem beginDrain_downLink (u : DrainUser) (k : DrainKey) : (beginDrain u k s).downLink = s.downLink :=
  by rw [beginDrain_shape]
@[simp] theorem beginDrain_outstanding (u : DrainUser) (k : DrainKey) : (beginDrain u k s).outstanding = s.outstanding :=
  by rw [beginDrain_shape]
@[simp] theorem beginDrain_heldTags (u : DrainUser) (k : DrainKey) : (beginDrain u k s).heldTags = s.heldTags :=
  by rw [beginDrain_shape]
@[simp] theorem beginDrain_tagWaits (u : DrainUser) (k : DrainKey) : (beginDrain u k s).tagWaits = s.tagWaits :=
  by rw [beginDrain_shape]
@[simp] theorem beginDrain_produced (u : DrainUser) (k : DrainKey) : (beginDrain u k s).produced = s.produced :=
  by rw [beginDrain_shape]
@[simp] theorem beginDrain_offers (u : DrainUser) (k : DrainKey) : (beginDrain u k s).offers = s.offers :=
  by rw [beginDrain_shape]
@[simp] theorem beginDrain_downOffered (u : DrainUser) (k : DrainKey) : (beginDrain u k s).downOffered = s.downOffered :=
  by rw [beginDrain_shape]
@[simp] theorem beginDrain_lastClass (u : DrainUser) (k : DrainKey) : (beginDrain u k s).lastClass = s.lastClass :=
  by rw [beginDrain_shape]
@[simp] theorem beginDrain_stage (u : DrainUser) (k : DrainKey) : (beginDrain u k s).stage = s.stage :=
  by rw [beginDrain_shape]
@[simp] theorem beginDrain_inFlight (u : DrainUser) (k : DrainKey) : (beginDrain u k s).inFlight = s.inFlight :=
  by rw [beginDrain_shape]
@[simp] theorem beginDrain_ways (u : DrainUser) (k : DrainKey) : (beginDrain u k s).ways = s.ways :=
  by rw [beginDrain_shape]
@[simp] theorem beginDrain_lru (u : DrainUser) (k : DrainKey) : (beginDrain u k s).lru = s.lru :=
  by rw [beginDrain_shape]
@[simp] theorem beginDrain_fills (u : DrainUser) (k : DrainKey) : (beginDrain u k s).fills = s.fills :=
  by rw [beginDrain_shape]
@[simp] theorem beginDrain_fillWaits (u : DrainUser) (k : DrainKey) : (beginDrain u k s).fillWaits = s.fillWaits :=
  by rw [beginDrain_shape]
@[simp] theorem beginDrain_fillSerial (u : DrainUser) (k : DrainKey) : (beginDrain u k s).fillSerial = s.fillSerial :=
  by rw [beginDrain_shape]
@[simp] theorem beginDrain_missQueue (u : DrainUser) (k : DrainKey) : (beginDrain u k s).missQueue = s.missQueue :=
  by rw [beginDrain_shape]
@[simp] theorem beginDrain_poisonings (u : DrainUser) (k : DrainKey) : (beginDrain u k s).poisonings = s.poisonings :=
  by rw [beginDrain_shape]
@[simp] theorem beginDrain_corrected (u : DrainUser) (k : DrainKey) : (beginDrain u k s).corrected = s.corrected :=
  by rw [beginDrain_shape]
@[simp] theorem beginDrain_correctedLimit (u : DrainUser) (k : DrainKey) : (beginDrain u k s).correctedLimit
    = s.correctedLimit :=
  by rw [beginDrain_shape]
@[simp] theorem beginDrain_firstCorrected (u : DrainUser) (k : DrainKey) : (beginDrain u k s).firstCorrected
    = s.firstCorrected :=
  by rw [beginDrain_shape]
@[simp] theorem beginDrain_hold (u : DrainUser) (k : DrainKey) : (beginDrain u k s).hold = s.hold :=
  by rw [beginDrain_shape]
@[simp] theorem beginDrain_poisonList (u : DrainUser) (k : DrainKey) : (beginDrain u k s).poisonList = s.poisonList :=
  by rw [beginDrain_shape]
@[simp] theorem beginDrain_domains (u : DrainUser) (k : DrainKey) : (beginDrain u k s).domains = s.domains :=
  by rw [beginDrain_shape]
@[simp] theorem beginDrain_grants (u : DrainUser) (k : DrainKey) : (beginDrain u k s).grants = s.grants :=
  by rw [beginDrain_shape]
@[simp] theorem beginDrain_grantSerial (u : DrainUser) (k : DrainKey) : (beginDrain u k s).grantSerial = s.grantSerial :=
  by rw [beginDrain_shape]
@[simp] theorem beginDrain_requests (u : DrainUser) (k : DrainKey) : (beginDrain u k s).requests = s.requests :=
  by rw [beginDrain_shape]
@[simp] theorem beginDrain_running (u : DrainUser) (k : DrainKey) : (beginDrain u k s).running = s.running :=
  by rw [beginDrain_shape]
@[simp] theorem beginDrain_results (u : DrainUser) (k : DrainKey) : (beginDrain u k s).results = s.results :=
  by rw [beginDrain_shape]
@[simp] theorem beginDrain_channels (u : DrainUser) (k : DrainKey) : (beginDrain u k s).channels = s.channels :=
  by rw [beginDrain_shape]
@[simp] theorem beginDrain_warm (u : DrainUser) (k : DrainKey) : (beginDrain u k s).warm = s.warm :=
  by rw [beginDrain_shape]
@[simp] theorem beginDrain_units (u : DrainUser) (k : DrainKey) : (beginDrain u k s).units = s.units :=
  by rw [beginDrain_shape]
@[simp] theorem beginDrain_lastServed (u : DrainUser) (k : DrainKey) : (beginDrain u k s).lastServed = s.lastServed :=
  by rw [beginDrain_shape]
@[simp] theorem beginDrain_slots (u : DrainUser) (k : DrainKey) : (beginDrain u k s).slots = s.slots :=
  by rw [beginDrain_shape]
@[simp] theorem beginDrain_regions (u : DrainUser) (k : DrainKey) : (beginDrain u k s).regions = s.regions :=
  by rw [beginDrain_shape]
@[simp] theorem beginDrain_freeze (u : DrainUser) (k : DrainKey) : (beginDrain u k s).freeze = s.freeze :=
  by rw [beginDrain_shape]
@[simp] theorem beginDrain_log (u : DrainUser) (k : DrainKey) : (beginDrain u k s).log = s.log :=
  by rw [beginDrain_shape]
@[simp] theorem beginDrain_notices (u : DrainUser) (k : DrainKey) : (beginDrain u k s).notices = s.notices :=
  by rw [beginDrain_shape]
@[simp] theorem beginDrain_pending (u : DrainUser) (k : DrainKey) : (beginDrain u k s).pending = s.pending :=
  by rw [beginDrain_shape]
@[simp] theorem dom_beginDrain (u : DrainUser) (k : DrainKey) (y : Nat) : dom (beginDrain u k s) y = dom s y :=
  by rw [beginDrain_shape]; rfl
@[simp] theorem chan_beginDrain (u : DrainUser) (k : DrainKey) (y : Nat) : chan (beginDrain u k s) y = chan s y :=
  by rw [beginDrain_shape]; rfl
@[simp] theorem slotOf_beginDrain (u : DrainUser) (k : DrainKey) (y : Nat) : slotOf (beginDrain u k s) y = slotOf s y :=
  by rw [beginDrain_shape]; rfl
@[simp] theorem regionOf_beginDrain (u : DrainUser) (k : DrainKey) (y : Nat) : regionOf (beginDrain u k s) y
    = regionOf s y :=
  by rw [beginDrain_shape]; rfl
@[simp] theorem sourceOf_beginDrain (u : DrainUser) (k : DrainKey) (y : Nat) : sourceOf (beginDrain u k s) y
    = sourceOf s y :=
  by rw [beginDrain_shape]; rfl
@[simp] theorem resultOf_beginDrain (u : DrainUser) (k : DrainKey) (y : Nat) : resultOf (beginDrain u k s) y
    = resultOf s y :=
  by rw [beginDrain_shape]; rfl
@[simp] theorem grantAt_beginDrain (u : DrainUser) (k : DrainKey) (y : Nat) : grantAt (beginDrain u k s) y = grantAt s y :=
  by rw [beginDrain_shape]; rfl
@[simp] theorem unitOf_beginDrain (u : DrainUser) (k : DrainKey) (y : Nat) : unitOf (beginDrain u k s) y = unitOf s y :=
  by rw [beginDrain_shape]; rfl
@[simp] theorem recordAt_beginDrain (u : DrainUser) (k : DrainKey) (y : Nat) : recordAt (beginDrain u k s) y
    = recordAt s y :=
  by rw [beginDrain_shape]; rfl
@[simp] theorem findKey_beginDrain (u : DrainUser) (k : DrainKey) (y : Nat) : findKey (beginDrain u k s) y = findKey s y :=
  by rw [beginDrain_shape]; rfl

/-! ### `withdrawDrains` -/

theorem withdrawDrains_shape (u : DrainUser) :
    withdrawDrains u s = { s with drains := (withdrawDrains u s).drains } := rfl

@[simp] theorem withdrawDrains_base (u : DrainUser) : (withdrawDrains u s).base = s.base := rfl
@[simp] theorem withdrawDrains_requested (u : DrainUser) : (withdrawDrains u s).requested = s.requested := rfl
@[simp] theorem withdrawDrains_size (u : DrainUser) : (withdrawDrains u s).size = s.size := rfl
@[simp] theorem withdrawDrains_mode (u : DrainUser) : (withdrawDrains u s).mode = s.mode := rfl
@[simp] theorem withdrawDrains_cause (u : DrainUser) : (withdrawDrains u s).cause = s.cause := rfl
@[simp] theorem withdrawDrains_integrityMark (u : DrainUser) : (withdrawDrains u s).integrityMark = s.integrityMark :=
  rfl
@[simp] theorem withdrawDrains_policy (u : DrainUser) : (withdrawDrains u s).policy = s.policy := rfl
@[simp] theorem withdrawDrains_faultLine (u : DrainUser) : (withdrawDrains u s).faultLine = s.faultLine := rfl
@[simp] theorem withdrawDrains_warnLine (u : DrainUser) : (withdrawDrains u s).warnLine = s.warnLine := rfl
@[simp] theorem withdrawDrains_flush (u : DrainUser) : (withdrawDrains u s).flush = s.flush := rfl
@[simp] theorem withdrawDrains_tagBase (u : DrainUser) : (withdrawDrains u s).tagBase = s.tagBase := rfl
@[simp] theorem withdrawDrains_progress (u : DrainUser) : (withdrawDrains u s).progress = s.progress := rfl
@[simp] theorem withdrawDrains_upLink (u : DrainUser) : (withdrawDrains u s).upLink = s.upLink := rfl
@[simp] theorem withdrawDrains_tagsInUse (u : DrainUser) : (withdrawDrains u s).tagsInUse = s.tagsInUse := rfl
@[simp] theorem withdrawDrains_completions (u : DrainUser) : (withdrawDrains u s).completions = s.completions :=
  rfl
@[simp] theorem withdrawDrains_noticeSlot (u : DrainUser) : (withdrawDrains u s).noticeSlot = s.noticeSlot := rfl
@[simp] theorem withdrawDrains_txOffered (u : DrainUser) : (withdrawDrains u s).txOffered = s.txOffered := rfl
@[simp] theorem withdrawDrains_txLast (u : DrainUser) : (withdrawDrains u s).txLast = s.txLast := rfl
@[simp] theorem withdrawDrains_downLink (u : DrainUser) : (withdrawDrains u s).downLink = s.downLink := rfl
@[simp] theorem withdrawDrains_outstanding (u : DrainUser) : (withdrawDrains u s).outstanding = s.outstanding :=
  rfl
@[simp] theorem withdrawDrains_heldTags (u : DrainUser) : (withdrawDrains u s).heldTags = s.heldTags := rfl
@[simp] theorem withdrawDrains_tagWaits (u : DrainUser) : (withdrawDrains u s).tagWaits = s.tagWaits := rfl
@[simp] theorem withdrawDrains_produced (u : DrainUser) : (withdrawDrains u s).produced = s.produced := rfl
@[simp] theorem withdrawDrains_offers (u : DrainUser) : (withdrawDrains u s).offers = s.offers := rfl
@[simp] theorem withdrawDrains_downOffered (u : DrainUser) : (withdrawDrains u s).downOffered = s.downOffered :=
  rfl
@[simp] theorem withdrawDrains_lastClass (u : DrainUser) : (withdrawDrains u s).lastClass = s.lastClass := rfl
@[simp] theorem withdrawDrains_stage (u : DrainUser) : (withdrawDrains u s).stage = s.stage := rfl
@[simp] theorem withdrawDrains_inFlight (u : DrainUser) : (withdrawDrains u s).inFlight = s.inFlight := rfl
@[simp] theorem withdrawDrains_ways (u : DrainUser) : (withdrawDrains u s).ways = s.ways := rfl
@[simp] theorem withdrawDrains_lru (u : DrainUser) : (withdrawDrains u s).lru = s.lru := rfl
@[simp] theorem withdrawDrains_fills (u : DrainUser) : (withdrawDrains u s).fills = s.fills := rfl
@[simp] theorem withdrawDrains_fillWaits (u : DrainUser) : (withdrawDrains u s).fillWaits = s.fillWaits := rfl
@[simp] theorem withdrawDrains_fillSerial (u : DrainUser) : (withdrawDrains u s).fillSerial = s.fillSerial := rfl
@[simp] theorem withdrawDrains_missQueue (u : DrainUser) : (withdrawDrains u s).missQueue = s.missQueue := rfl
@[simp] theorem withdrawDrains_poisonings (u : DrainUser) : (withdrawDrains u s).poisonings = s.poisonings := rfl
@[simp] theorem withdrawDrains_corrected (u : DrainUser) : (withdrawDrains u s).corrected = s.corrected := rfl
@[simp] theorem withdrawDrains_correctedLimit (u : DrainUser) : (withdrawDrains u s).correctedLimit = s.correctedLimit :=
  rfl
@[simp] theorem withdrawDrains_firstCorrected (u : DrainUser) : (withdrawDrains u s).firstCorrected = s.firstCorrected :=
  rfl
@[simp] theorem withdrawDrains_hold (u : DrainUser) : (withdrawDrains u s).hold = s.hold := rfl
@[simp] theorem withdrawDrains_poisonList (u : DrainUser) : (withdrawDrains u s).poisonList = s.poisonList := rfl
@[simp] theorem withdrawDrains_domains (u : DrainUser) : (withdrawDrains u s).domains = s.domains := rfl
@[simp] theorem withdrawDrains_grants (u : DrainUser) : (withdrawDrains u s).grants = s.grants := rfl
@[simp] theorem withdrawDrains_grantSerial (u : DrainUser) : (withdrawDrains u s).grantSerial = s.grantSerial :=
  rfl
@[simp] theorem withdrawDrains_requests (u : DrainUser) : (withdrawDrains u s).requests = s.requests := rfl
@[simp] theorem withdrawDrains_running (u : DrainUser) : (withdrawDrains u s).running = s.running := rfl
@[simp] theorem withdrawDrains_results (u : DrainUser) : (withdrawDrains u s).results = s.results := rfl
@[simp] theorem withdrawDrains_channels (u : DrainUser) : (withdrawDrains u s).channels = s.channels := rfl
@[simp] theorem withdrawDrains_warm (u : DrainUser) : (withdrawDrains u s).warm = s.warm := rfl
@[simp] theorem withdrawDrains_units (u : DrainUser) : (withdrawDrains u s).units = s.units := rfl
@[simp] theorem withdrawDrains_lastServed (u : DrainUser) : (withdrawDrains u s).lastServed = s.lastServed := rfl
@[simp] theorem withdrawDrains_slots (u : DrainUser) : (withdrawDrains u s).slots = s.slots := rfl
@[simp] theorem withdrawDrains_regions (u : DrainUser) : (withdrawDrains u s).regions = s.regions := rfl
@[simp] theorem withdrawDrains_freeze (u : DrainUser) : (withdrawDrains u s).freeze = s.freeze := rfl
@[simp] theorem withdrawDrains_log (u : DrainUser) : (withdrawDrains u s).log = s.log := rfl
@[simp] theorem withdrawDrains_notices (u : DrainUser) : (withdrawDrains u s).notices = s.notices := rfl
@[simp] theorem withdrawDrains_pending (u : DrainUser) : (withdrawDrains u s).pending = s.pending := rfl
@[simp] theorem dom_withdrawDrains (u : DrainUser) (y : Nat) : dom (withdrawDrains u s) y = dom s y := rfl
@[simp] theorem chan_withdrawDrains (u : DrainUser) (y : Nat) : chan (withdrawDrains u s) y = chan s y := rfl
@[simp] theorem slotOf_withdrawDrains (u : DrainUser) (y : Nat) : slotOf (withdrawDrains u s) y = slotOf s y :=
  rfl
@[simp] theorem regionOf_withdrawDrains (u : DrainUser) (y : Nat) : regionOf (withdrawDrains u s) y = regionOf s y :=
  rfl
@[simp] theorem sourceOf_withdrawDrains (u : DrainUser) (y : Nat) : sourceOf (withdrawDrains u s) y = sourceOf s y :=
  rfl
@[simp] theorem resultOf_withdrawDrains (u : DrainUser) (y : Nat) : resultOf (withdrawDrains u s) y = resultOf s y :=
  rfl
@[simp] theorem grantAt_withdrawDrains (u : DrainUser) (y : Nat) : grantAt (withdrawDrains u s) y = grantAt s y :=
  rfl
@[simp] theorem unitOf_withdrawDrains (u : DrainUser) (y : Nat) : unitOf (withdrawDrains u s) y = unitOf s y :=
  rfl
@[simp] theorem recordAt_withdrawDrains (u : DrainUser) (y : Nat) : recordAt (withdrawDrains u s) y = recordAt s y :=
  rfl
@[simp] theorem findKey_withdrawDrains (u : DrainUser) (y : Nat) : findKey (withdrawDrains u s) y = findKey s y :=
  rfl

/-! ### `activate` -/

theorem activate_shape (c : Nat) (b : Line) (w : Work) (p : Phase) (x : Wait) :
    activate c b w p x s = { s with channels := (activate c b w p x s).channels } := rfl

@[simp] theorem activate_base (c : Nat) (b : Line) (w : Work) (p : Phase) (x : Wait) : (activate c b w p x
    s).base = s.base :=
  rfl
@[simp] theorem activate_requested (c : Nat) (b : Line) (w : Work) (p : Phase) (x : Wait) : (activate c b w p
    x s).requested = s.requested :=
  rfl
@[simp] theorem activate_size (c : Nat) (b : Line) (w : Work) (p : Phase) (x : Wait) : (activate c b w p x
    s).size = s.size :=
  rfl
@[simp] theorem activate_mode (c : Nat) (b : Line) (w : Work) (p : Phase) (x : Wait) : (activate c b w p x
    s).mode = s.mode :=
  rfl
@[simp] theorem activate_cause (c : Nat) (b : Line) (w : Work) (p : Phase) (x : Wait) : (activate c b w p x
    s).cause = s.cause :=
  rfl
@[simp] theorem activate_integrityMark (c : Nat) (b : Line) (w : Work) (p : Phase) (x : Wait) : (activate c b
    w p x s).integrityMark = s.integrityMark :=
  rfl
@[simp] theorem activate_policy (c : Nat) (b : Line) (w : Work) (p : Phase) (x : Wait) : (activate c b w p x
    s).policy = s.policy :=
  rfl
@[simp] theorem activate_faultLine (c : Nat) (b : Line) (w : Work) (p : Phase) (x : Wait) : (activate c b w p
    x s).faultLine = s.faultLine :=
  rfl
@[simp] theorem activate_warnLine (c : Nat) (b : Line) (w : Work) (p : Phase) (x : Wait) : (activate c b w p
    x s).warnLine = s.warnLine :=
  rfl
@[simp] theorem activate_flush (c : Nat) (b : Line) (w : Work) (p : Phase) (x : Wait) : (activate c b w p x
    s).flush = s.flush :=
  rfl
@[simp] theorem activate_tagBase (c : Nat) (b : Line) (w : Work) (p : Phase) (x : Wait) : (activate c b w p x
    s).tagBase = s.tagBase :=
  rfl
@[simp] theorem activate_progress (c : Nat) (b : Line) (w : Work) (p : Phase) (x : Wait) : (activate c b w p
    x s).progress = s.progress :=
  rfl
@[simp] theorem activate_upLink (c : Nat) (b : Line) (w : Work) (p : Phase) (x : Wait) : (activate c b w p x
    s).upLink = s.upLink :=
  rfl
@[simp] theorem activate_tagsInUse (c : Nat) (b : Line) (w : Work) (p : Phase) (x : Wait) : (activate c b w p
    x s).tagsInUse = s.tagsInUse :=
  rfl
@[simp] theorem activate_completions (c : Nat) (b : Line) (w : Work) (p : Phase) (x : Wait) : (activate c b w
    p x s).completions = s.completions :=
  rfl
@[simp] theorem activate_noticeSlot (c : Nat) (b : Line) (w : Work) (p : Phase) (x : Wait) : (activate c b w
    p x s).noticeSlot = s.noticeSlot :=
  rfl
@[simp] theorem activate_txOffered (c : Nat) (b : Line) (w : Work) (p : Phase) (x : Wait) : (activate c b w p
    x s).txOffered = s.txOffered :=
  rfl
@[simp] theorem activate_txLast (c : Nat) (b : Line) (w : Work) (p : Phase) (x : Wait) : (activate c b w p x
    s).txLast = s.txLast :=
  rfl
@[simp] theorem activate_downLink (c : Nat) (b : Line) (w : Work) (p : Phase) (x : Wait) : (activate c b w p
    x s).downLink = s.downLink :=
  rfl
@[simp] theorem activate_outstanding (c : Nat) (b : Line) (w : Work) (p : Phase) (x : Wait) : (activate c b w
    p x s).outstanding = s.outstanding :=
  rfl
@[simp] theorem activate_heldTags (c : Nat) (b : Line) (w : Work) (p : Phase) (x : Wait) : (activate c b w p
    x s).heldTags = s.heldTags :=
  rfl
@[simp] theorem activate_tagWaits (c : Nat) (b : Line) (w : Work) (p : Phase) (x : Wait) : (activate c b w p
    x s).tagWaits = s.tagWaits :=
  rfl
@[simp] theorem activate_produced (c : Nat) (b : Line) (w : Work) (p : Phase) (x : Wait) : (activate c b w p
    x s).produced = s.produced :=
  rfl
@[simp] theorem activate_offers (c : Nat) (b : Line) (w : Work) (p : Phase) (x : Wait) : (activate c b w p x
    s).offers = s.offers :=
  rfl
@[simp] theorem activate_downOffered (c : Nat) (b : Line) (w : Work) (p : Phase) (x : Wait) : (activate c b w
    p x s).downOffered = s.downOffered :=
  rfl
@[simp] theorem activate_lastClass (c : Nat) (b : Line) (w : Work) (p : Phase) (x : Wait) : (activate c b w p
    x s).lastClass = s.lastClass :=
  rfl
@[simp] theorem activate_stage (c : Nat) (b : Line) (w : Work) (p : Phase) (x : Wait) : (activate c b w p x
    s).stage = s.stage :=
  rfl
@[simp] theorem activate_inFlight (c : Nat) (b : Line) (w : Work) (p : Phase) (x : Wait) : (activate c b w p
    x s).inFlight = s.inFlight :=
  rfl
@[simp] theorem activate_drains (c : Nat) (b : Line) (w : Work) (p : Phase) (x : Wait) : (activate c b w p x
    s).drains = s.drains :=
  rfl
@[simp] theorem activate_ways (c : Nat) (b : Line) (w : Work) (p : Phase) (x : Wait) : (activate c b w p x
    s).ways = s.ways :=
  rfl
@[simp] theorem activate_lru (c : Nat) (b : Line) (w : Work) (p : Phase) (x : Wait) : (activate c b w p x s).lru = s.lru :=
  rfl
@[simp] theorem activate_fills (c : Nat) (b : Line) (w : Work) (p : Phase) (x : Wait) : (activate c b w p x
    s).fills = s.fills :=
  rfl
@[simp] theorem activate_fillWaits (c : Nat) (b : Line) (w : Work) (p : Phase) (x : Wait) : (activate c b w p
    x s).fillWaits = s.fillWaits :=
  rfl
@[simp] theorem activate_fillSerial (c : Nat) (b : Line) (w : Work) (p : Phase) (x : Wait) : (activate c b w
    p x s).fillSerial = s.fillSerial :=
  rfl
@[simp] theorem activate_missQueue (c : Nat) (b : Line) (w : Work) (p : Phase) (x : Wait) : (activate c b w p
    x s).missQueue = s.missQueue :=
  rfl
@[simp] theorem activate_poisonings (c : Nat) (b : Line) (w : Work) (p : Phase) (x : Wait) : (activate c b w
    p x s).poisonings = s.poisonings :=
  rfl
@[simp] theorem activate_corrected (c : Nat) (b : Line) (w : Work) (p : Phase) (x : Wait) : (activate c b w p
    x s).corrected = s.corrected :=
  rfl
@[simp] theorem activate_correctedLimit (c : Nat) (b : Line) (w : Work) (p : Phase) (x : Wait) : (activate c
    b w p x s).correctedLimit = s.correctedLimit :=
  rfl
@[simp] theorem activate_firstCorrected (c : Nat) (b : Line) (w : Work) (p : Phase) (x : Wait) : (activate c
    b w p x s).firstCorrected = s.firstCorrected :=
  rfl
@[simp] theorem activate_hold (c : Nat) (b : Line) (w : Work) (p : Phase) (x : Wait) : (activate c b w p x
    s).hold = s.hold :=
  rfl
@[simp] theorem activate_poisonList (c : Nat) (b : Line) (w : Work) (p : Phase) (x : Wait) : (activate c b w
    p x s).poisonList = s.poisonList :=
  rfl
@[simp] theorem activate_domains (c : Nat) (b : Line) (w : Work) (p : Phase) (x : Wait) : (activate c b w p x
    s).domains = s.domains :=
  rfl
@[simp] theorem activate_grants (c : Nat) (b : Line) (w : Work) (p : Phase) (x : Wait) : (activate c b w p x
    s).grants = s.grants :=
  rfl
@[simp] theorem activate_grantSerial (c : Nat) (b : Line) (w : Work) (p : Phase) (x : Wait) : (activate c b w
    p x s).grantSerial = s.grantSerial :=
  rfl
@[simp] theorem activate_requests (c : Nat) (b : Line) (w : Work) (p : Phase) (x : Wait) : (activate c b w p
    x s).requests = s.requests :=
  rfl
@[simp] theorem activate_running (c : Nat) (b : Line) (w : Work) (p : Phase) (x : Wait) : (activate c b w p x
    s).running = s.running :=
  rfl
@[simp] theorem activate_results (c : Nat) (b : Line) (w : Work) (p : Phase) (x : Wait) : (activate c b w p x
    s).results = s.results :=
  rfl
@[simp] theorem activate_warm (c : Nat) (b : Line) (w : Work) (p : Phase) (x : Wait) : (activate c b w p x
    s).warm = s.warm :=
  rfl
@[simp] theorem activate_units (c : Nat) (b : Line) (w : Work) (p : Phase) (x : Wait) : (activate c b w p x
    s).units = s.units :=
  rfl
@[simp] theorem activate_lastServed (c : Nat) (b : Line) (w : Work) (p : Phase) (x : Wait) : (activate c b w
    p x s).lastServed = s.lastServed :=
  rfl
@[simp] theorem activate_slots (c : Nat) (b : Line) (w : Work) (p : Phase) (x : Wait) : (activate c b w p x
    s).slots = s.slots :=
  rfl
@[simp] theorem activate_regions (c : Nat) (b : Line) (w : Work) (p : Phase) (x : Wait) : (activate c b w p x
    s).regions = s.regions :=
  rfl
@[simp] theorem activate_freeze (c : Nat) (b : Line) (w : Work) (p : Phase) (x : Wait) : (activate c b w p x
    s).freeze = s.freeze :=
  rfl
@[simp] theorem activate_log (c : Nat) (b : Line) (w : Work) (p : Phase) (x : Wait) : (activate c b w p x s).log = s.log :=
  rfl
@[simp] theorem activate_notices (c : Nat) (b : Line) (w : Work) (p : Phase) (x : Wait) : (activate c b w p x
    s).notices = s.notices :=
  rfl
@[simp] theorem activate_pending (c : Nat) (b : Line) (w : Work) (p : Phase) (x : Wait) : (activate c b w p x
    s).pending = s.pending :=
  rfl
@[simp] theorem dom_activate (c : Nat) (b : Line) (w : Work) (p : Phase) (x : Wait) (y : Nat) : dom (activate
    c b w p x s) y = dom s y :=
  rfl
@[simp] theorem slotOf_activate (c : Nat) (b : Line) (w : Work) (p : Phase) (x : Wait) (y : Nat) : slotOf
    (activate c b w p x s) y = slotOf s y :=
  rfl
@[simp] theorem regionOf_activate (c : Nat) (b : Line) (w : Work) (p : Phase) (x : Wait) (y : Nat) : regionOf
    (activate c b w p x s) y = regionOf s y :=
  rfl
@[simp] theorem sourceOf_activate (c : Nat) (b : Line) (w : Work) (p : Phase) (x : Wait) (y : Nat) : sourceOf
    (activate c b w p x s) y = sourceOf s y :=
  rfl
@[simp] theorem resultOf_activate (c : Nat) (b : Line) (w : Work) (p : Phase) (x : Wait) (y : Nat) : resultOf
    (activate c b w p x s) y = resultOf s y :=
  rfl
@[simp] theorem grantAt_activate (c : Nat) (b : Line) (w : Work) (p : Phase) (x : Wait) (y : Nat) : grantAt
    (activate c b w p x s) y = grantAt s y :=
  rfl
@[simp] theorem unitOf_activate (c : Nat) (b : Line) (w : Work) (p : Phase) (x : Wait) (y : Nat) : unitOf
    (activate c b w p x s) y = unitOf s y :=
  rfl
@[simp] theorem recordAt_activate (c : Nat) (b : Line) (w : Work) (p : Phase) (x : Wait) (y : Nat) : recordAt
    (activate c b w p x s) y = recordAt s y :=
  rfl
@[simp] theorem findKey_activate (c : Nat) (b : Line) (w : Work) (p : Phase) (x : Wait) (y : Nat) : findKey
    (activate c b w p x s) y = findKey s y :=
  rfl

/-! ### `refuse` -/

theorem refuse_shape (c : Nat) (b : Line) (r : Result) (p : Report) :
    refuse c b r p s = { s with
    channels := (refuse c b r p s).channels
    notices := (refuse c b r p s).notices } := by
  unfold refuse; dsimp only; rw [respond_shape]; rfl

@[simp] theorem refuse_base (c : Nat) (b : Line) (r : Result) (p : Report) : (refuse c b r p s).base = s.base :=
  by rw [refuse_shape]
@[simp] theorem refuse_requested (c : Nat) (b : Line) (r : Result) (p : Report) : (refuse c b r p
    s).requested = s.requested :=
  by rw [refuse_shape]
@[simp] theorem refuse_size (c : Nat) (b : Line) (r : Result) (p : Report) : (refuse c b r p s).size = s.size :=
  by rw [refuse_shape]
@[simp] theorem refuse_mode (c : Nat) (b : Line) (r : Result) (p : Report) : (refuse c b r p s).mode = s.mode :=
  by rw [refuse_shape]
@[simp] theorem refuse_cause (c : Nat) (b : Line) (r : Result) (p : Report) : (refuse c b r p s).cause = s.cause :=
  by rw [refuse_shape]
@[simp] theorem refuse_integrityMark (c : Nat) (b : Line) (r : Result) (p : Report) : (refuse c b r p
    s).integrityMark = s.integrityMark :=
  by rw [refuse_shape]
@[simp] theorem refuse_policy (c : Nat) (b : Line) (r : Result) (p : Report) : (refuse c b r p s).policy = s.policy :=
  by rw [refuse_shape]
@[simp] theorem refuse_faultLine (c : Nat) (b : Line) (r : Result) (p : Report) : (refuse c b r p
    s).faultLine = s.faultLine :=
  by rw [refuse_shape]
@[simp] theorem refuse_warnLine (c : Nat) (b : Line) (r : Result) (p : Report) : (refuse c b r p s).warnLine = s.warnLine :=
  by rw [refuse_shape]
@[simp] theorem refuse_flush (c : Nat) (b : Line) (r : Result) (p : Report) : (refuse c b r p s).flush = s.flush :=
  by rw [refuse_shape]
@[simp] theorem refuse_tagBase (c : Nat) (b : Line) (r : Result) (p : Report) : (refuse c b r p s).tagBase = s.tagBase :=
  by rw [refuse_shape]
@[simp] theorem refuse_progress (c : Nat) (b : Line) (r : Result) (p : Report) : (refuse c b r p s).progress = s.progress :=
  by rw [refuse_shape]
@[simp] theorem refuse_upLink (c : Nat) (b : Line) (r : Result) (p : Report) : (refuse c b r p s).upLink = s.upLink :=
  by rw [refuse_shape]
@[simp] theorem refuse_tagsInUse (c : Nat) (b : Line) (r : Result) (p : Report) : (refuse c b r p
    s).tagsInUse = s.tagsInUse :=
  by rw [refuse_shape]
@[simp] theorem refuse_completions (c : Nat) (b : Line) (r : Result) (p : Report) : (refuse c b r p
    s).completions = s.completions :=
  by rw [refuse_shape]
@[simp] theorem refuse_noticeSlot (c : Nat) (b : Line) (r : Result) (p : Report) : (refuse c b r p
    s).noticeSlot = s.noticeSlot :=
  by rw [refuse_shape]
@[simp] theorem refuse_txOffered (c : Nat) (b : Line) (r : Result) (p : Report) : (refuse c b r p
    s).txOffered = s.txOffered :=
  by rw [refuse_shape]
@[simp] theorem refuse_txLast (c : Nat) (b : Line) (r : Result) (p : Report) : (refuse c b r p s).txLast = s.txLast :=
  by rw [refuse_shape]
@[simp] theorem refuse_downLink (c : Nat) (b : Line) (r : Result) (p : Report) : (refuse c b r p s).downLink = s.downLink :=
  by rw [refuse_shape]
@[simp] theorem refuse_outstanding (c : Nat) (b : Line) (r : Result) (p : Report) : (refuse c b r p
    s).outstanding = s.outstanding :=
  by rw [refuse_shape]
@[simp] theorem refuse_heldTags (c : Nat) (b : Line) (r : Result) (p : Report) : (refuse c b r p s).heldTags = s.heldTags :=
  by rw [refuse_shape]
@[simp] theorem refuse_tagWaits (c : Nat) (b : Line) (r : Result) (p : Report) : (refuse c b r p s).tagWaits = s.tagWaits :=
  by rw [refuse_shape]
@[simp] theorem refuse_produced (c : Nat) (b : Line) (r : Result) (p : Report) : (refuse c b r p s).produced = s.produced :=
  by rw [refuse_shape]
@[simp] theorem refuse_offers (c : Nat) (b : Line) (r : Result) (p : Report) : (refuse c b r p s).offers = s.offers :=
  by rw [refuse_shape]
@[simp] theorem refuse_downOffered (c : Nat) (b : Line) (r : Result) (p : Report) : (refuse c b r p
    s).downOffered = s.downOffered :=
  by rw [refuse_shape]
@[simp] theorem refuse_lastClass (c : Nat) (b : Line) (r : Result) (p : Report) : (refuse c b r p
    s).lastClass = s.lastClass :=
  by rw [refuse_shape]
@[simp] theorem refuse_stage (c : Nat) (b : Line) (r : Result) (p : Report) : (refuse c b r p s).stage = s.stage :=
  by rw [refuse_shape]
@[simp] theorem refuse_inFlight (c : Nat) (b : Line) (r : Result) (p : Report) : (refuse c b r p s).inFlight = s.inFlight :=
  by rw [refuse_shape]
@[simp] theorem refuse_drains (c : Nat) (b : Line) (r : Result) (p : Report) : (refuse c b r p s).drains = s.drains :=
  by rw [refuse_shape]
@[simp] theorem refuse_ways (c : Nat) (b : Line) (r : Result) (p : Report) : (refuse c b r p s).ways = s.ways :=
  by rw [refuse_shape]
@[simp] theorem refuse_lru (c : Nat) (b : Line) (r : Result) (p : Report) : (refuse c b r p s).lru = s.lru :=
  by rw [refuse_shape]
@[simp] theorem refuse_fills (c : Nat) (b : Line) (r : Result) (p : Report) : (refuse c b r p s).fills = s.fills :=
  by rw [refuse_shape]
@[simp] theorem refuse_fillWaits (c : Nat) (b : Line) (r : Result) (p : Report) : (refuse c b r p
    s).fillWaits = s.fillWaits :=
  by rw [refuse_shape]
@[simp] theorem refuse_fillSerial (c : Nat) (b : Line) (r : Result) (p : Report) : (refuse c b r p
    s).fillSerial = s.fillSerial :=
  by rw [refuse_shape]
@[simp] theorem refuse_missQueue (c : Nat) (b : Line) (r : Result) (p : Report) : (refuse c b r p
    s).missQueue = s.missQueue :=
  by rw [refuse_shape]
@[simp] theorem refuse_poisonings (c : Nat) (b : Line) (r : Result) (p : Report) : (refuse c b r p
    s).poisonings = s.poisonings :=
  by rw [refuse_shape]
@[simp] theorem refuse_corrected (c : Nat) (b : Line) (r : Result) (p : Report) : (refuse c b r p
    s).corrected = s.corrected :=
  by rw [refuse_shape]
@[simp] theorem refuse_correctedLimit (c : Nat) (b : Line) (r : Result) (p : Report) : (refuse c b r p
    s).correctedLimit = s.correctedLimit :=
  by rw [refuse_shape]
@[simp] theorem refuse_firstCorrected (c : Nat) (b : Line) (r : Result) (p : Report) : (refuse c b r p
    s).firstCorrected = s.firstCorrected :=
  by rw [refuse_shape]
@[simp] theorem refuse_hold (c : Nat) (b : Line) (r : Result) (p : Report) : (refuse c b r p s).hold = s.hold :=
  by rw [refuse_shape]
@[simp] theorem refuse_poisonList (c : Nat) (b : Line) (r : Result) (p : Report) : (refuse c b r p
    s).poisonList = s.poisonList :=
  by rw [refuse_shape]
@[simp] theorem refuse_domains (c : Nat) (b : Line) (r : Result) (p : Report) : (refuse c b r p s).domains = s.domains :=
  by rw [refuse_shape]
@[simp] theorem refuse_grants (c : Nat) (b : Line) (r : Result) (p : Report) : (refuse c b r p s).grants = s.grants :=
  by rw [refuse_shape]
@[simp] theorem refuse_grantSerial (c : Nat) (b : Line) (r : Result) (p : Report) : (refuse c b r p
    s).grantSerial = s.grantSerial :=
  by rw [refuse_shape]
@[simp] theorem refuse_requests (c : Nat) (b : Line) (r : Result) (p : Report) : (refuse c b r p s).requests = s.requests :=
  by rw [refuse_shape]
@[simp] theorem refuse_running (c : Nat) (b : Line) (r : Result) (p : Report) : (refuse c b r p s).running = s.running :=
  by rw [refuse_shape]
@[simp] theorem refuse_results (c : Nat) (b : Line) (r : Result) (p : Report) : (refuse c b r p s).results = s.results :=
  by rw [refuse_shape]
@[simp] theorem refuse_warm (c : Nat) (b : Line) (r : Result) (p : Report) : (refuse c b r p s).warm = s.warm :=
  by rw [refuse_shape]
@[simp] theorem refuse_units (c : Nat) (b : Line) (r : Result) (p : Report) : (refuse c b r p s).units = s.units :=
  by rw [refuse_shape]
@[simp] theorem refuse_lastServed (c : Nat) (b : Line) (r : Result) (p : Report) : (refuse c b r p
    s).lastServed = s.lastServed :=
  by rw [refuse_shape]
@[simp] theorem refuse_slots (c : Nat) (b : Line) (r : Result) (p : Report) : (refuse c b r p s).slots = s.slots :=
  by rw [refuse_shape]
@[simp] theorem refuse_regions (c : Nat) (b : Line) (r : Result) (p : Report) : (refuse c b r p s).regions = s.regions :=
  by rw [refuse_shape]
@[simp] theorem refuse_freeze (c : Nat) (b : Line) (r : Result) (p : Report) : (refuse c b r p s).freeze = s.freeze :=
  by rw [refuse_shape]
@[simp] theorem refuse_log (c : Nat) (b : Line) (r : Result) (p : Report) : (refuse c b r p s).log = s.log :=
  by rw [refuse_shape]
@[simp] theorem refuse_pending (c : Nat) (b : Line) (r : Result) (p : Report) : (refuse c b r p s).pending = s.pending :=
  by rw [refuse_shape]
@[simp] theorem dom_refuse (c : Nat) (b : Line) (r : Result) (p : Report) (y : Nat) : dom (refuse c b r p s) y = dom s y :=
  by rw [refuse_shape]; rfl
@[simp] theorem slotOf_refuse (c : Nat) (b : Line) (r : Result) (p : Report) (y : Nat) : slotOf (refuse c b r
    p s) y = slotOf s y :=
  by rw [refuse_shape]; rfl
@[simp] theorem regionOf_refuse (c : Nat) (b : Line) (r : Result) (p : Report) (y : Nat) : regionOf (refuse c
    b r p s) y = regionOf s y :=
  by rw [refuse_shape]; rfl
@[simp] theorem resultOf_refuse (c : Nat) (b : Line) (r : Result) (p : Report) (y : Nat) : resultOf (refuse c
    b r p s) y = resultOf s y :=
  by rw [refuse_shape]; rfl
@[simp] theorem grantAt_refuse (c : Nat) (b : Line) (r : Result) (p : Report) (y : Nat) : grantAt (refuse c b
    r p s) y = grantAt s y :=
  by rw [refuse_shape]; rfl
@[simp] theorem unitOf_refuse (c : Nat) (b : Line) (r : Result) (p : Report) (y : Nat) : unitOf (refuse c b r
    p s) y = unitOf s y :=
  by rw [refuse_shape]; rfl
@[simp] theorem recordAt_refuse (c : Nat) (b : Line) (r : Result) (p : Report) (y : Nat) : recordAt (refuse c
    b r p s) y = recordAt s y :=
  by rw [refuse_shape]; rfl
@[simp] theorem findKey_refuse (c : Nat) (b : Line) (r : Result) (p : Report) (y : Nat) : findKey (refuse c b
    r p s) y = findKey s y :=
  by rw [refuse_shape]; rfl

/-! ### `completeWork` -/

theorem completeWork_shape (c : Nat) (r : Result) (p : Report) :
    completeWork c r p s = { s with
    channels := (completeWork c r p s).channels
    notices := (completeWork c r p s).notices
    warm := (completeWork c r p s).warm } := by
  unfold completeWork; split
  · rfl
  · dsimp only; split
    · rfl
    · rw [respond_shape]; rfl

@[simp] theorem completeWork_base (c : Nat) (r : Result) (p : Report) : (completeWork c r p s).base = s.base :=
  by rw [completeWork_shape]
@[simp] theorem completeWork_requested (c : Nat) (r : Result) (p : Report) : (completeWork c r p s).requested
    = s.requested :=
  by rw [completeWork_shape]
@[simp] theorem completeWork_size (c : Nat) (r : Result) (p : Report) : (completeWork c r p s).size = s.size :=
  by rw [completeWork_shape]
@[simp] theorem completeWork_mode (c : Nat) (r : Result) (p : Report) : (completeWork c r p s).mode = s.mode :=
  by rw [completeWork_shape]
@[simp] theorem completeWork_cause (c : Nat) (r : Result) (p : Report) : (completeWork c r p s).cause = s.cause :=
  by rw [completeWork_shape]
@[simp] theorem completeWork_integrityMark (c : Nat) (r : Result) (p : Report) : (completeWork c r p
    s).integrityMark = s.integrityMark :=
  by rw [completeWork_shape]
@[simp] theorem completeWork_policy (c : Nat) (r : Result) (p : Report) : (completeWork c r p s).policy = s.policy :=
  by rw [completeWork_shape]
@[simp] theorem completeWork_faultLine (c : Nat) (r : Result) (p : Report) : (completeWork c r p s).faultLine
    = s.faultLine :=
  by rw [completeWork_shape]
@[simp] theorem completeWork_warnLine (c : Nat) (r : Result) (p : Report) : (completeWork c r p s).warnLine = s.warnLine :=
  by rw [completeWork_shape]
@[simp] theorem completeWork_flush (c : Nat) (r : Result) (p : Report) : (completeWork c r p s).flush = s.flush :=
  by rw [completeWork_shape]
@[simp] theorem completeWork_tagBase (c : Nat) (r : Result) (p : Report) : (completeWork c r p s).tagBase = s.tagBase :=
  by rw [completeWork_shape]
@[simp] theorem completeWork_progress (c : Nat) (r : Result) (p : Report) : (completeWork c r p s).progress = s.progress :=
  by rw [completeWork_shape]
@[simp] theorem completeWork_upLink (c : Nat) (r : Result) (p : Report) : (completeWork c r p s).upLink = s.upLink :=
  by rw [completeWork_shape]
@[simp] theorem completeWork_tagsInUse (c : Nat) (r : Result) (p : Report) : (completeWork c r p s).tagsInUse
    = s.tagsInUse :=
  by rw [completeWork_shape]
@[simp] theorem completeWork_completions (c : Nat) (r : Result) (p : Report) : (completeWork c r p
    s).completions = s.completions :=
  by rw [completeWork_shape]
@[simp] theorem completeWork_noticeSlot (c : Nat) (r : Result) (p : Report) : (completeWork c r p
    s).noticeSlot = s.noticeSlot :=
  by rw [completeWork_shape]
@[simp] theorem completeWork_txOffered (c : Nat) (r : Result) (p : Report) : (completeWork c r p s).txOffered
    = s.txOffered :=
  by rw [completeWork_shape]
@[simp] theorem completeWork_txLast (c : Nat) (r : Result) (p : Report) : (completeWork c r p s).txLast = s.txLast :=
  by rw [completeWork_shape]
@[simp] theorem completeWork_downLink (c : Nat) (r : Result) (p : Report) : (completeWork c r p s).downLink = s.downLink :=
  by rw [completeWork_shape]
@[simp] theorem completeWork_outstanding (c : Nat) (r : Result) (p : Report) : (completeWork c r p
    s).outstanding = s.outstanding :=
  by rw [completeWork_shape]
@[simp] theorem completeWork_heldTags (c : Nat) (r : Result) (p : Report) : (completeWork c r p s).heldTags = s.heldTags :=
  by rw [completeWork_shape]
@[simp] theorem completeWork_tagWaits (c : Nat) (r : Result) (p : Report) : (completeWork c r p s).tagWaits = s.tagWaits :=
  by rw [completeWork_shape]
@[simp] theorem completeWork_produced (c : Nat) (r : Result) (p : Report) : (completeWork c r p s).produced = s.produced :=
  by rw [completeWork_shape]
@[simp] theorem completeWork_offers (c : Nat) (r : Result) (p : Report) : (completeWork c r p s).offers = s.offers :=
  by rw [completeWork_shape]
@[simp] theorem completeWork_downOffered (c : Nat) (r : Result) (p : Report) : (completeWork c r p
    s).downOffered = s.downOffered :=
  by rw [completeWork_shape]
@[simp] theorem completeWork_lastClass (c : Nat) (r : Result) (p : Report) : (completeWork c r p s).lastClass
    = s.lastClass :=
  by rw [completeWork_shape]
@[simp] theorem completeWork_stage (c : Nat) (r : Result) (p : Report) : (completeWork c r p s).stage = s.stage :=
  by rw [completeWork_shape]
@[simp] theorem completeWork_inFlight (c : Nat) (r : Result) (p : Report) : (completeWork c r p s).inFlight = s.inFlight :=
  by rw [completeWork_shape]
@[simp] theorem completeWork_drains (c : Nat) (r : Result) (p : Report) : (completeWork c r p s).drains = s.drains :=
  by rw [completeWork_shape]
@[simp] theorem completeWork_ways (c : Nat) (r : Result) (p : Report) : (completeWork c r p s).ways = s.ways :=
  by rw [completeWork_shape]
@[simp] theorem completeWork_lru (c : Nat) (r : Result) (p : Report) : (completeWork c r p s).lru = s.lru :=
  by rw [completeWork_shape]
@[simp] theorem completeWork_fills (c : Nat) (r : Result) (p : Report) : (completeWork c r p s).fills = s.fills :=
  by rw [completeWork_shape]
@[simp] theorem completeWork_fillWaits (c : Nat) (r : Result) (p : Report) : (completeWork c r p s).fillWaits
    = s.fillWaits :=
  by rw [completeWork_shape]
@[simp] theorem completeWork_fillSerial (c : Nat) (r : Result) (p : Report) : (completeWork c r p
    s).fillSerial = s.fillSerial :=
  by rw [completeWork_shape]
@[simp] theorem completeWork_missQueue (c : Nat) (r : Result) (p : Report) : (completeWork c r p s).missQueue
    = s.missQueue :=
  by rw [completeWork_shape]
@[simp] theorem completeWork_poisonings (c : Nat) (r : Result) (p : Report) : (completeWork c r p
    s).poisonings = s.poisonings :=
  by rw [completeWork_shape]
@[simp] theorem completeWork_corrected (c : Nat) (r : Result) (p : Report) : (completeWork c r p s).corrected
    = s.corrected :=
  by rw [completeWork_shape]
@[simp] theorem completeWork_correctedLimit (c : Nat) (r : Result) (p : Report) : (completeWork c r p
    s).correctedLimit = s.correctedLimit :=
  by rw [completeWork_shape]
@[simp] theorem completeWork_firstCorrected (c : Nat) (r : Result) (p : Report) : (completeWork c r p
    s).firstCorrected = s.firstCorrected :=
  by rw [completeWork_shape]
@[simp] theorem completeWork_hold (c : Nat) (r : Result) (p : Report) : (completeWork c r p s).hold = s.hold :=
  by rw [completeWork_shape]
@[simp] theorem completeWork_poisonList (c : Nat) (r : Result) (p : Report) : (completeWork c r p
    s).poisonList = s.poisonList :=
  by rw [completeWork_shape]
@[simp] theorem completeWork_domains (c : Nat) (r : Result) (p : Report) : (completeWork c r p s).domains = s.domains :=
  by rw [completeWork_shape]
@[simp] theorem completeWork_grants (c : Nat) (r : Result) (p : Report) : (completeWork c r p s).grants = s.grants :=
  by rw [completeWork_shape]
@[simp] theorem completeWork_grantSerial (c : Nat) (r : Result) (p : Report) : (completeWork c r p
    s).grantSerial = s.grantSerial :=
  by rw [completeWork_shape]
@[simp] theorem completeWork_requests (c : Nat) (r : Result) (p : Report) : (completeWork c r p s).requests = s.requests :=
  by rw [completeWork_shape]
@[simp] theorem completeWork_running (c : Nat) (r : Result) (p : Report) : (completeWork c r p s).running = s.running :=
  by rw [completeWork_shape]
@[simp] theorem completeWork_results (c : Nat) (r : Result) (p : Report) : (completeWork c r p s).results = s.results :=
  by rw [completeWork_shape]
@[simp] theorem completeWork_units (c : Nat) (r : Result) (p : Report) : (completeWork c r p s).units = s.units :=
  by rw [completeWork_shape]
@[simp] theorem completeWork_lastServed (c : Nat) (r : Result) (p : Report) : (completeWork c r p
    s).lastServed = s.lastServed :=
  by rw [completeWork_shape]
@[simp] theorem completeWork_slots (c : Nat) (r : Result) (p : Report) : (completeWork c r p s).slots = s.slots :=
  by rw [completeWork_shape]
@[simp] theorem completeWork_regions (c : Nat) (r : Result) (p : Report) : (completeWork c r p s).regions = s.regions :=
  by rw [completeWork_shape]
@[simp] theorem completeWork_freeze (c : Nat) (r : Result) (p : Report) : (completeWork c r p s).freeze = s.freeze :=
  by rw [completeWork_shape]
@[simp] theorem completeWork_log (c : Nat) (r : Result) (p : Report) : (completeWork c r p s).log = s.log :=
  by rw [completeWork_shape]
@[simp] theorem completeWork_pending (c : Nat) (r : Result) (p : Report) : (completeWork c r p s).pending = s.pending :=
  by rw [completeWork_shape]
@[simp] theorem dom_completeWork (c : Nat) (r : Result) (p : Report) (y : Nat) : dom (completeWork c r p s) y = dom s y :=
  by rw [completeWork_shape]; rfl
@[simp] theorem slotOf_completeWork (c : Nat) (r : Result) (p : Report) (y : Nat) : slotOf (completeWork c r
    p s) y = slotOf s y :=
  by rw [completeWork_shape]; rfl
@[simp] theorem regionOf_completeWork (c : Nat) (r : Result) (p : Report) (y : Nat) : regionOf (completeWork
    c r p s) y = regionOf s y :=
  by rw [completeWork_shape]; rfl
@[simp] theorem resultOf_completeWork (c : Nat) (r : Result) (p : Report) (y : Nat) : resultOf (completeWork
    c r p s) y = resultOf s y :=
  by rw [completeWork_shape]; rfl
@[simp] theorem grantAt_completeWork (c : Nat) (r : Result) (p : Report) (y : Nat) : grantAt (completeWork c
    r p s) y = grantAt s y :=
  by rw [completeWork_shape]; rfl
@[simp] theorem unitOf_completeWork (c : Nat) (r : Result) (p : Report) (y : Nat) : unitOf (completeWork c r
    p s) y = unitOf s y :=
  by rw [completeWork_shape]; rfl
@[simp] theorem recordAt_completeWork (c : Nat) (r : Result) (p : Report) (y : Nat) : recordAt (completeWork
    c r p s) y = recordAt s y :=
  by rw [completeWork_shape]; rfl
@[simp] theorem findKey_completeWork (c : Nat) (r : Result) (p : Report) (y : Nat) : findKey (completeWork c
    r p s) y = findKey s y :=
  by rw [completeWork_shape]; rfl

/-! ### `idleSlot` -/

theorem idleSlot_shape (k : Nat) :
    idleSlot k s = { s with slots := (idleSlot k s).slots, domains := (idleSlot k s).domains } := by
  unfold idleSlot; dsimp only; split <;> rfl

/-! ### `cleanUp` -/

theorem cleanUp_shape (c : Nat) (w : Work) :
    cleanUp c w s = { s with
    mode := (cleanUp c w s).mode
    tagBase := (cleanUp c w s).tagBase
    domains := (cleanUp c w s).domains
    slots := (cleanUp c w s).slots
    regions := (cleanUp c w s).regions } := by
  unfold cleanUp; split
  · rfl
  · rfl
  · split
    · rw [idleSlot_shape]
    · rfl
  · dsimp only; split <;> rfl
  · rfl
  · rfl

@[simp] theorem cleanUp_base (c : Nat) (w : Work) : (cleanUp c w s).base = s.base := by rw [cleanUp_shape]
@[simp] theorem cleanUp_requested (c : Nat) (w : Work) : (cleanUp c w s).requested = s.requested :=
  by rw [cleanUp_shape]
@[simp] theorem cleanUp_size (c : Nat) (w : Work) : (cleanUp c w s).size = s.size := by rw [cleanUp_shape]
@[simp] theorem cleanUp_cause (c : Nat) (w : Work) : (cleanUp c w s).cause = s.cause := by rw [cleanUp_shape]
@[simp] theorem cleanUp_integrityMark (c : Nat) (w : Work) : (cleanUp c w s).integrityMark = s.integrityMark :=
  by rw [cleanUp_shape]
@[simp] theorem cleanUp_policy (c : Nat) (w : Work) : (cleanUp c w s).policy = s.policy := by rw [cleanUp_shape]
@[simp] theorem cleanUp_faultLine (c : Nat) (w : Work) : (cleanUp c w s).faultLine = s.faultLine :=
  by rw [cleanUp_shape]
@[simp] theorem cleanUp_warnLine (c : Nat) (w : Work) : (cleanUp c w s).warnLine = s.warnLine :=
  by rw [cleanUp_shape]
@[simp] theorem cleanUp_flush (c : Nat) (w : Work) : (cleanUp c w s).flush = s.flush := by rw [cleanUp_shape]
@[simp] theorem cleanUp_progress (c : Nat) (w : Work) : (cleanUp c w s).progress = s.progress :=
  by rw [cleanUp_shape]
@[simp] theorem cleanUp_upLink (c : Nat) (w : Work) : (cleanUp c w s).upLink = s.upLink := by rw [cleanUp_shape]
@[simp] theorem cleanUp_tagsInUse (c : Nat) (w : Work) : (cleanUp c w s).tagsInUse = s.tagsInUse :=
  by rw [cleanUp_shape]
@[simp] theorem cleanUp_completions (c : Nat) (w : Work) : (cleanUp c w s).completions = s.completions :=
  by rw [cleanUp_shape]
@[simp] theorem cleanUp_noticeSlot (c : Nat) (w : Work) : (cleanUp c w s).noticeSlot = s.noticeSlot :=
  by rw [cleanUp_shape]
@[simp] theorem cleanUp_txOffered (c : Nat) (w : Work) : (cleanUp c w s).txOffered = s.txOffered :=
  by rw [cleanUp_shape]
@[simp] theorem cleanUp_txLast (c : Nat) (w : Work) : (cleanUp c w s).txLast = s.txLast := by rw [cleanUp_shape]
@[simp] theorem cleanUp_downLink (c : Nat) (w : Work) : (cleanUp c w s).downLink = s.downLink :=
  by rw [cleanUp_shape]
@[simp] theorem cleanUp_outstanding (c : Nat) (w : Work) : (cleanUp c w s).outstanding = s.outstanding :=
  by rw [cleanUp_shape]
@[simp] theorem cleanUp_heldTags (c : Nat) (w : Work) : (cleanUp c w s).heldTags = s.heldTags :=
  by rw [cleanUp_shape]
@[simp] theorem cleanUp_tagWaits (c : Nat) (w : Work) : (cleanUp c w s).tagWaits = s.tagWaits :=
  by rw [cleanUp_shape]
@[simp] theorem cleanUp_produced (c : Nat) (w : Work) : (cleanUp c w s).produced = s.produced :=
  by rw [cleanUp_shape]
@[simp] theorem cleanUp_offers (c : Nat) (w : Work) : (cleanUp c w s).offers = s.offers := by rw [cleanUp_shape]
@[simp] theorem cleanUp_downOffered (c : Nat) (w : Work) : (cleanUp c w s).downOffered = s.downOffered :=
  by rw [cleanUp_shape]
@[simp] theorem cleanUp_lastClass (c : Nat) (w : Work) : (cleanUp c w s).lastClass = s.lastClass :=
  by rw [cleanUp_shape]
@[simp] theorem cleanUp_stage (c : Nat) (w : Work) : (cleanUp c w s).stage = s.stage := by rw [cleanUp_shape]
@[simp] theorem cleanUp_inFlight (c : Nat) (w : Work) : (cleanUp c w s).inFlight = s.inFlight :=
  by rw [cleanUp_shape]
@[simp] theorem cleanUp_drains (c : Nat) (w : Work) : (cleanUp c w s).drains = s.drains := by rw [cleanUp_shape]
@[simp] theorem cleanUp_ways (c : Nat) (w : Work) : (cleanUp c w s).ways = s.ways := by rw [cleanUp_shape]
@[simp] theorem cleanUp_lru (c : Nat) (w : Work) : (cleanUp c w s).lru = s.lru := by rw [cleanUp_shape]
@[simp] theorem cleanUp_fills (c : Nat) (w : Work) : (cleanUp c w s).fills = s.fills := by rw [cleanUp_shape]
@[simp] theorem cleanUp_fillWaits (c : Nat) (w : Work) : (cleanUp c w s).fillWaits = s.fillWaits :=
  by rw [cleanUp_shape]
@[simp] theorem cleanUp_fillSerial (c : Nat) (w : Work) : (cleanUp c w s).fillSerial = s.fillSerial :=
  by rw [cleanUp_shape]
@[simp] theorem cleanUp_missQueue (c : Nat) (w : Work) : (cleanUp c w s).missQueue = s.missQueue :=
  by rw [cleanUp_shape]
@[simp] theorem cleanUp_poisonings (c : Nat) (w : Work) : (cleanUp c w s).poisonings = s.poisonings :=
  by rw [cleanUp_shape]
@[simp] theorem cleanUp_corrected (c : Nat) (w : Work) : (cleanUp c w s).corrected = s.corrected :=
  by rw [cleanUp_shape]
@[simp] theorem cleanUp_correctedLimit (c : Nat) (w : Work) : (cleanUp c w s).correctedLimit = s.correctedLimit :=
  by rw [cleanUp_shape]
@[simp] theorem cleanUp_firstCorrected (c : Nat) (w : Work) : (cleanUp c w s).firstCorrected = s.firstCorrected :=
  by rw [cleanUp_shape]
@[simp] theorem cleanUp_hold (c : Nat) (w : Work) : (cleanUp c w s).hold = s.hold := by rw [cleanUp_shape]
@[simp] theorem cleanUp_poisonList (c : Nat) (w : Work) : (cleanUp c w s).poisonList = s.poisonList :=
  by rw [cleanUp_shape]
@[simp] theorem cleanUp_grants (c : Nat) (w : Work) : (cleanUp c w s).grants = s.grants := by rw [cleanUp_shape]
@[simp] theorem cleanUp_grantSerial (c : Nat) (w : Work) : (cleanUp c w s).grantSerial = s.grantSerial :=
  by rw [cleanUp_shape]
@[simp] theorem cleanUp_requests (c : Nat) (w : Work) : (cleanUp c w s).requests = s.requests :=
  by rw [cleanUp_shape]
@[simp] theorem cleanUp_running (c : Nat) (w : Work) : (cleanUp c w s).running = s.running :=
  by rw [cleanUp_shape]
@[simp] theorem cleanUp_results (c : Nat) (w : Work) : (cleanUp c w s).results = s.results :=
  by rw [cleanUp_shape]
@[simp] theorem cleanUp_channels (c : Nat) (w : Work) : (cleanUp c w s).channels = s.channels :=
  by rw [cleanUp_shape]
@[simp] theorem cleanUp_warm (c : Nat) (w : Work) : (cleanUp c w s).warm = s.warm := by rw [cleanUp_shape]
@[simp] theorem cleanUp_units (c : Nat) (w : Work) : (cleanUp c w s).units = s.units := by rw [cleanUp_shape]
@[simp] theorem cleanUp_lastServed (c : Nat) (w : Work) : (cleanUp c w s).lastServed = s.lastServed :=
  by rw [cleanUp_shape]
@[simp] theorem cleanUp_freeze (c : Nat) (w : Work) : (cleanUp c w s).freeze = s.freeze := by rw [cleanUp_shape]
@[simp] theorem cleanUp_log (c : Nat) (w : Work) : (cleanUp c w s).log = s.log := by rw [cleanUp_shape]
@[simp] theorem cleanUp_notices (c : Nat) (w : Work) : (cleanUp c w s).notices = s.notices :=
  by rw [cleanUp_shape]
@[simp] theorem cleanUp_pending (c : Nat) (w : Work) : (cleanUp c w s).pending = s.pending :=
  by rw [cleanUp_shape]
@[simp] theorem chan_cleanUp (c : Nat) (w : Work) (y : Nat) : chan (cleanUp c w s) y = chan s y :=
  by rw [cleanUp_shape]; rfl
@[simp] theorem sourceOf_cleanUp (c : Nat) (w : Work) (y : Nat) : sourceOf (cleanUp c w s) y = sourceOf s y :=
  by rw [cleanUp_shape]; rfl
@[simp] theorem resultOf_cleanUp (c : Nat) (w : Work) (y : Nat) : resultOf (cleanUp c w s) y = resultOf s y :=
  by rw [cleanUp_shape]; rfl
@[simp] theorem grantAt_cleanUp (c : Nat) (w : Work) (y : Nat) : grantAt (cleanUp c w s) y = grantAt s y :=
  by rw [cleanUp_shape]; rfl
@[simp] theorem unitOf_cleanUp (c : Nat) (w : Work) (y : Nat) : unitOf (cleanUp c w s) y = unitOf s y :=
  by rw [cleanUp_shape]; rfl
@[simp] theorem recordAt_cleanUp (c : Nat) (w : Work) (y : Nat) : recordAt (cleanUp c w s) y = recordAt s y :=
  by rw [cleanUp_shape]; rfl
@[simp] theorem findKey_cleanUp (c : Nat) (w : Work) (y : Nat) : findKey (cleanUp c w s) y = findKey s y :=
  by rw [cleanUp_shape]; rfl

/-! ### `stopWork` -/

theorem stopWork_shape (c : Nat) (r : Result) :
    stopWork c r s = { s with
    mode := (stopWork c r s).mode
    tagBase := (stopWork c r s).tagBase
    domains := (stopWork c r s).domains
    slots := (stopWork c r s).slots
    regions := (stopWork c r s).regions
    channels := (stopWork c r s).channels
    notices := (stopWork c r s).notices
    warm := (stopWork c r s).warm } := by
  unfold stopWork; split
  · rfl
  · dsimp only; rw [completeWork_shape, cleanUp_shape]

@[simp] theorem stopWork_base (c : Nat) (r : Result) : (stopWork c r s).base = s.base := by rw [stopWork_shape]
@[simp] theorem stopWork_requested (c : Nat) (r : Result) : (stopWork c r s).requested = s.requested :=
  by rw [stopWork_shape]
@[simp] theorem stopWork_size (c : Nat) (r : Result) : (stopWork c r s).size = s.size := by rw [stopWork_shape]
@[simp] theorem stopWork_cause (c : Nat) (r : Result) : (stopWork c r s).cause = s.cause := by rw [stopWork_shape]
@[simp] theorem stopWork_integrityMark (c : Nat) (r : Result) : (stopWork c r s).integrityMark = s.integrityMark :=
  by rw [stopWork_shape]
@[simp] theorem stopWork_policy (c : Nat) (r : Result) : (stopWork c r s).policy = s.policy :=
  by rw [stopWork_shape]
@[simp] theorem stopWork_faultLine (c : Nat) (r : Result) : (stopWork c r s).faultLine = s.faultLine :=
  by rw [stopWork_shape]
@[simp] theorem stopWork_warnLine (c : Nat) (r : Result) : (stopWork c r s).warnLine = s.warnLine :=
  by rw [stopWork_shape]
@[simp] theorem stopWork_flush (c : Nat) (r : Result) : (stopWork c r s).flush = s.flush := by rw [stopWork_shape]
@[simp] theorem stopWork_progress (c : Nat) (r : Result) : (stopWork c r s).progress = s.progress :=
  by rw [stopWork_shape]
@[simp] theorem stopWork_upLink (c : Nat) (r : Result) : (stopWork c r s).upLink = s.upLink :=
  by rw [stopWork_shape]
@[simp] theorem stopWork_tagsInUse (c : Nat) (r : Result) : (stopWork c r s).tagsInUse = s.tagsInUse :=
  by rw [stopWork_shape]
@[simp] theorem stopWork_completions (c : Nat) (r : Result) : (stopWork c r s).completions = s.completions :=
  by rw [stopWork_shape]
@[simp] theorem stopWork_noticeSlot (c : Nat) (r : Result) : (stopWork c r s).noticeSlot = s.noticeSlot :=
  by rw [stopWork_shape]
@[simp] theorem stopWork_txOffered (c : Nat) (r : Result) : (stopWork c r s).txOffered = s.txOffered :=
  by rw [stopWork_shape]
@[simp] theorem stopWork_txLast (c : Nat) (r : Result) : (stopWork c r s).txLast = s.txLast :=
  by rw [stopWork_shape]
@[simp] theorem stopWork_downLink (c : Nat) (r : Result) : (stopWork c r s).downLink = s.downLink :=
  by rw [stopWork_shape]
@[simp] theorem stopWork_outstanding (c : Nat) (r : Result) : (stopWork c r s).outstanding = s.outstanding :=
  by rw [stopWork_shape]
@[simp] theorem stopWork_heldTags (c : Nat) (r : Result) : (stopWork c r s).heldTags = s.heldTags :=
  by rw [stopWork_shape]
@[simp] theorem stopWork_tagWaits (c : Nat) (r : Result) : (stopWork c r s).tagWaits = s.tagWaits :=
  by rw [stopWork_shape]
@[simp] theorem stopWork_produced (c : Nat) (r : Result) : (stopWork c r s).produced = s.produced :=
  by rw [stopWork_shape]
@[simp] theorem stopWork_offers (c : Nat) (r : Result) : (stopWork c r s).offers = s.offers :=
  by rw [stopWork_shape]
@[simp] theorem stopWork_downOffered (c : Nat) (r : Result) : (stopWork c r s).downOffered = s.downOffered :=
  by rw [stopWork_shape]
@[simp] theorem stopWork_lastClass (c : Nat) (r : Result) : (stopWork c r s).lastClass = s.lastClass :=
  by rw [stopWork_shape]
@[simp] theorem stopWork_stage (c : Nat) (r : Result) : (stopWork c r s).stage = s.stage := by rw [stopWork_shape]
@[simp] theorem stopWork_inFlight (c : Nat) (r : Result) : (stopWork c r s).inFlight = s.inFlight :=
  by rw [stopWork_shape]
@[simp] theorem stopWork_drains (c : Nat) (r : Result) : (stopWork c r s).drains = s.drains :=
  by rw [stopWork_shape]
@[simp] theorem stopWork_ways (c : Nat) (r : Result) : (stopWork c r s).ways = s.ways := by rw [stopWork_shape]
@[simp] theorem stopWork_lru (c : Nat) (r : Result) : (stopWork c r s).lru = s.lru := by rw [stopWork_shape]
@[simp] theorem stopWork_fills (c : Nat) (r : Result) : (stopWork c r s).fills = s.fills := by rw [stopWork_shape]
@[simp] theorem stopWork_fillWaits (c : Nat) (r : Result) : (stopWork c r s).fillWaits = s.fillWaits :=
  by rw [stopWork_shape]
@[simp] theorem stopWork_fillSerial (c : Nat) (r : Result) : (stopWork c r s).fillSerial = s.fillSerial :=
  by rw [stopWork_shape]
@[simp] theorem stopWork_missQueue (c : Nat) (r : Result) : (stopWork c r s).missQueue = s.missQueue :=
  by rw [stopWork_shape]
@[simp] theorem stopWork_poisonings (c : Nat) (r : Result) : (stopWork c r s).poisonings = s.poisonings :=
  by rw [stopWork_shape]
@[simp] theorem stopWork_corrected (c : Nat) (r : Result) : (stopWork c r s).corrected = s.corrected :=
  by rw [stopWork_shape]
@[simp] theorem stopWork_correctedLimit (c : Nat) (r : Result) : (stopWork c r s).correctedLimit = s.correctedLimit :=
  by rw [stopWork_shape]
@[simp] theorem stopWork_firstCorrected (c : Nat) (r : Result) : (stopWork c r s).firstCorrected = s.firstCorrected :=
  by rw [stopWork_shape]
@[simp] theorem stopWork_hold (c : Nat) (r : Result) : (stopWork c r s).hold = s.hold := by rw [stopWork_shape]
@[simp] theorem stopWork_poisonList (c : Nat) (r : Result) : (stopWork c r s).poisonList = s.poisonList :=
  by rw [stopWork_shape]
@[simp] theorem stopWork_grants (c : Nat) (r : Result) : (stopWork c r s).grants = s.grants :=
  by rw [stopWork_shape]
@[simp] theorem stopWork_grantSerial (c : Nat) (r : Result) : (stopWork c r s).grantSerial = s.grantSerial :=
  by rw [stopWork_shape]
@[simp] theorem stopWork_requests (c : Nat) (r : Result) : (stopWork c r s).requests = s.requests :=
  by rw [stopWork_shape]
@[simp] theorem stopWork_running (c : Nat) (r : Result) : (stopWork c r s).running = s.running :=
  by rw [stopWork_shape]
@[simp] theorem stopWork_results (c : Nat) (r : Result) : (stopWork c r s).results = s.results :=
  by rw [stopWork_shape]
@[simp] theorem stopWork_units (c : Nat) (r : Result) : (stopWork c r s).units = s.units := by rw [stopWork_shape]
@[simp] theorem stopWork_lastServed (c : Nat) (r : Result) : (stopWork c r s).lastServed = s.lastServed :=
  by rw [stopWork_shape]
@[simp] theorem stopWork_freeze (c : Nat) (r : Result) : (stopWork c r s).freeze = s.freeze :=
  by rw [stopWork_shape]
@[simp] theorem stopWork_log (c : Nat) (r : Result) : (stopWork c r s).log = s.log := by rw [stopWork_shape]
@[simp] theorem stopWork_pending (c : Nat) (r : Result) : (stopWork c r s).pending = s.pending :=
  by rw [stopWork_shape]
@[simp] theorem resultOf_stopWork (c : Nat) (r : Result) (y : Nat) : resultOf (stopWork c r s) y = resultOf s y :=
  by rw [stopWork_shape]; rfl
@[simp] theorem grantAt_stopWork (c : Nat) (r : Result) (y : Nat) : grantAt (stopWork c r s) y = grantAt s y :=
  by rw [stopWork_shape]; rfl
@[simp] theorem unitOf_stopWork (c : Nat) (r : Result) (y : Nat) : unitOf (stopWork c r s) y = unitOf s y :=
  by rw [stopWork_shape]; rfl
@[simp] theorem recordAt_stopWork (c : Nat) (r : Result) (y : Nat) : recordAt (stopWork c r s) y = recordAt s y :=
  by rw [stopWork_shape]; rfl
@[simp] theorem findKey_stopWork (c : Nat) (r : Result) (y : Nat) : findKey (stopWork c r s) y = findKey s y :=
  by rw [stopWork_shape]; rfl

/-! ### `doneWork` -/

theorem doneWork_shape (c : Nat) :
    doneWork c s = { s with
    channels := (doneWork c s).channels
    notices := (doneWork c s).notices
    warm := (doneWork c s).warm } := by
  unfold doneWork; split
  · rfl
  · rw [completeWork_shape]

@[simp] theorem doneWork_base (c : Nat) : (doneWork c s).base = s.base := by rw [doneWork_shape]
@[simp] theorem doneWork_requested (c : Nat) : (doneWork c s).requested = s.requested := by rw [doneWork_shape]
@[simp] theorem doneWork_size (c : Nat) : (doneWork c s).size = s.size := by rw [doneWork_shape]
@[simp] theorem doneWork_mode (c : Nat) : (doneWork c s).mode = s.mode := by rw [doneWork_shape]
@[simp] theorem doneWork_cause (c : Nat) : (doneWork c s).cause = s.cause := by rw [doneWork_shape]
@[simp] theorem doneWork_integrityMark (c : Nat) : (doneWork c s).integrityMark = s.integrityMark :=
  by rw [doneWork_shape]
@[simp] theorem doneWork_policy (c : Nat) : (doneWork c s).policy = s.policy := by rw [doneWork_shape]
@[simp] theorem doneWork_faultLine (c : Nat) : (doneWork c s).faultLine = s.faultLine := by rw [doneWork_shape]
@[simp] theorem doneWork_warnLine (c : Nat) : (doneWork c s).warnLine = s.warnLine := by rw [doneWork_shape]
@[simp] theorem doneWork_flush (c : Nat) : (doneWork c s).flush = s.flush := by rw [doneWork_shape]
@[simp] theorem doneWork_tagBase (c : Nat) : (doneWork c s).tagBase = s.tagBase := by rw [doneWork_shape]
@[simp] theorem doneWork_progress (c : Nat) : (doneWork c s).progress = s.progress := by rw [doneWork_shape]
@[simp] theorem doneWork_upLink (c : Nat) : (doneWork c s).upLink = s.upLink := by rw [doneWork_shape]
@[simp] theorem doneWork_tagsInUse (c : Nat) : (doneWork c s).tagsInUse = s.tagsInUse := by rw [doneWork_shape]
@[simp] theorem doneWork_completions (c : Nat) : (doneWork c s).completions = s.completions :=
  by rw [doneWork_shape]
@[simp] theorem doneWork_noticeSlot (c : Nat) : (doneWork c s).noticeSlot = s.noticeSlot := by rw [doneWork_shape]
@[simp] theorem doneWork_txOffered (c : Nat) : (doneWork c s).txOffered = s.txOffered := by rw [doneWork_shape]
@[simp] theorem doneWork_txLast (c : Nat) : (doneWork c s).txLast = s.txLast := by rw [doneWork_shape]
@[simp] theorem doneWork_downLink (c : Nat) : (doneWork c s).downLink = s.downLink := by rw [doneWork_shape]
@[simp] theorem doneWork_outstanding (c : Nat) : (doneWork c s).outstanding = s.outstanding :=
  by rw [doneWork_shape]
@[simp] theorem doneWork_heldTags (c : Nat) : (doneWork c s).heldTags = s.heldTags := by rw [doneWork_shape]
@[simp] theorem doneWork_tagWaits (c : Nat) : (doneWork c s).tagWaits = s.tagWaits := by rw [doneWork_shape]
@[simp] theorem doneWork_produced (c : Nat) : (doneWork c s).produced = s.produced := by rw [doneWork_shape]
@[simp] theorem doneWork_offers (c : Nat) : (doneWork c s).offers = s.offers := by rw [doneWork_shape]
@[simp] theorem doneWork_downOffered (c : Nat) : (doneWork c s).downOffered = s.downOffered :=
  by rw [doneWork_shape]
@[simp] theorem doneWork_lastClass (c : Nat) : (doneWork c s).lastClass = s.lastClass := by rw [doneWork_shape]
@[simp] theorem doneWork_stage (c : Nat) : (doneWork c s).stage = s.stage := by rw [doneWork_shape]
@[simp] theorem doneWork_inFlight (c : Nat) : (doneWork c s).inFlight = s.inFlight := by rw [doneWork_shape]
@[simp] theorem doneWork_drains (c : Nat) : (doneWork c s).drains = s.drains := by rw [doneWork_shape]
@[simp] theorem doneWork_ways (c : Nat) : (doneWork c s).ways = s.ways := by rw [doneWork_shape]
@[simp] theorem doneWork_lru (c : Nat) : (doneWork c s).lru = s.lru := by rw [doneWork_shape]
@[simp] theorem doneWork_fills (c : Nat) : (doneWork c s).fills = s.fills := by rw [doneWork_shape]
@[simp] theorem doneWork_fillWaits (c : Nat) : (doneWork c s).fillWaits = s.fillWaits := by rw [doneWork_shape]
@[simp] theorem doneWork_fillSerial (c : Nat) : (doneWork c s).fillSerial = s.fillSerial := by rw [doneWork_shape]
@[simp] theorem doneWork_missQueue (c : Nat) : (doneWork c s).missQueue = s.missQueue := by rw [doneWork_shape]
@[simp] theorem doneWork_poisonings (c : Nat) : (doneWork c s).poisonings = s.poisonings := by rw [doneWork_shape]
@[simp] theorem doneWork_corrected (c : Nat) : (doneWork c s).corrected = s.corrected := by rw [doneWork_shape]
@[simp] theorem doneWork_correctedLimit (c : Nat) : (doneWork c s).correctedLimit = s.correctedLimit :=
  by rw [doneWork_shape]
@[simp] theorem doneWork_firstCorrected (c : Nat) : (doneWork c s).firstCorrected = s.firstCorrected :=
  by rw [doneWork_shape]
@[simp] theorem doneWork_hold (c : Nat) : (doneWork c s).hold = s.hold := by rw [doneWork_shape]
@[simp] theorem doneWork_poisonList (c : Nat) : (doneWork c s).poisonList = s.poisonList := by rw [doneWork_shape]
@[simp] theorem doneWork_domains (c : Nat) : (doneWork c s).domains = s.domains := by rw [doneWork_shape]
@[simp] theorem doneWork_grants (c : Nat) : (doneWork c s).grants = s.grants := by rw [doneWork_shape]
@[simp] theorem doneWork_grantSerial (c : Nat) : (doneWork c s).grantSerial = s.grantSerial :=
  by rw [doneWork_shape]
@[simp] theorem doneWork_requests (c : Nat) : (doneWork c s).requests = s.requests := by rw [doneWork_shape]
@[simp] theorem doneWork_running (c : Nat) : (doneWork c s).running = s.running := by rw [doneWork_shape]
@[simp] theorem doneWork_results (c : Nat) : (doneWork c s).results = s.results := by rw [doneWork_shape]
@[simp] theorem doneWork_units (c : Nat) : (doneWork c s).units = s.units := by rw [doneWork_shape]
@[simp] theorem doneWork_lastServed (c : Nat) : (doneWork c s).lastServed = s.lastServed := by rw [doneWork_shape]
@[simp] theorem doneWork_slots (c : Nat) : (doneWork c s).slots = s.slots := by rw [doneWork_shape]
@[simp] theorem doneWork_regions (c : Nat) : (doneWork c s).regions = s.regions := by rw [doneWork_shape]
@[simp] theorem doneWork_freeze (c : Nat) : (doneWork c s).freeze = s.freeze := by rw [doneWork_shape]
@[simp] theorem doneWork_log (c : Nat) : (doneWork c s).log = s.log := by rw [doneWork_shape]
@[simp] theorem doneWork_pending (c : Nat) : (doneWork c s).pending = s.pending := by rw [doneWork_shape]
@[simp] theorem dom_doneWork (c : Nat) (y : Nat) : dom (doneWork c s) y = dom s y := by rw [doneWork_shape]; rfl
@[simp] theorem slotOf_doneWork (c : Nat) (y : Nat) : slotOf (doneWork c s) y = slotOf s y :=
  by rw [doneWork_shape]; rfl
@[simp] theorem regionOf_doneWork (c : Nat) (y : Nat) : regionOf (doneWork c s) y = regionOf s y :=
  by rw [doneWork_shape]; rfl
@[simp] theorem resultOf_doneWork (c : Nat) (y : Nat) : resultOf (doneWork c s) y = resultOf s y :=
  by rw [doneWork_shape]; rfl
@[simp] theorem grantAt_doneWork (c : Nat) (y : Nat) : grantAt (doneWork c s) y = grantAt s y :=
  by rw [doneWork_shape]; rfl
@[simp] theorem unitOf_doneWork (c : Nat) (y : Nat) : unitOf (doneWork c s) y = unitOf s y :=
  by rw [doneWork_shape]; rfl
@[simp] theorem recordAt_doneWork (c : Nat) (y : Nat) : recordAt (doneWork c s) y = recordAt s y :=
  by rw [doneWork_shape]; rfl
@[simp] theorem findKey_doneWork (c : Nat) (y : Nat) : findKey (doneWork c s) y = findKey s y :=
  by rw [doneWork_shape]; rfl

/-! ### `dropGrant` -/

theorem dropGrant_shape (i : Nat) :
    dropGrant i s = { s with grants := (dropGrant i s).grants, domains := (dropGrant i s).domains } := by
  unfold dropGrant; split <;> rfl

@[simp] theorem dropGrant_base (i : Nat) : (dropGrant i s).base = s.base := by rw [dropGrant_shape]
@[simp] theorem dropGrant_requested (i : Nat) : (dropGrant i s).requested = s.requested := by rw [dropGrant_shape]
@[simp] theorem dropGrant_size (i : Nat) : (dropGrant i s).size = s.size := by rw [dropGrant_shape]
@[simp] theorem dropGrant_mode (i : Nat) : (dropGrant i s).mode = s.mode := by rw [dropGrant_shape]
@[simp] theorem dropGrant_cause (i : Nat) : (dropGrant i s).cause = s.cause := by rw [dropGrant_shape]
@[simp] theorem dropGrant_integrityMark (i : Nat) : (dropGrant i s).integrityMark = s.integrityMark :=
  by rw [dropGrant_shape]
@[simp] theorem dropGrant_policy (i : Nat) : (dropGrant i s).policy = s.policy := by rw [dropGrant_shape]
@[simp] theorem dropGrant_faultLine (i : Nat) : (dropGrant i s).faultLine = s.faultLine := by rw [dropGrant_shape]
@[simp] theorem dropGrant_warnLine (i : Nat) : (dropGrant i s).warnLine = s.warnLine := by rw [dropGrant_shape]
@[simp] theorem dropGrant_flush (i : Nat) : (dropGrant i s).flush = s.flush := by rw [dropGrant_shape]
@[simp] theorem dropGrant_tagBase (i : Nat) : (dropGrant i s).tagBase = s.tagBase := by rw [dropGrant_shape]
@[simp] theorem dropGrant_progress (i : Nat) : (dropGrant i s).progress = s.progress := by rw [dropGrant_shape]
@[simp] theorem dropGrant_upLink (i : Nat) : (dropGrant i s).upLink = s.upLink := by rw [dropGrant_shape]
@[simp] theorem dropGrant_tagsInUse (i : Nat) : (dropGrant i s).tagsInUse = s.tagsInUse := by rw [dropGrant_shape]
@[simp] theorem dropGrant_completions (i : Nat) : (dropGrant i s).completions = s.completions :=
  by rw [dropGrant_shape]
@[simp] theorem dropGrant_noticeSlot (i : Nat) : (dropGrant i s).noticeSlot = s.noticeSlot :=
  by rw [dropGrant_shape]
@[simp] theorem dropGrant_txOffered (i : Nat) : (dropGrant i s).txOffered = s.txOffered := by rw [dropGrant_shape]
@[simp] theorem dropGrant_txLast (i : Nat) : (dropGrant i s).txLast = s.txLast := by rw [dropGrant_shape]
@[simp] theorem dropGrant_downLink (i : Nat) : (dropGrant i s).downLink = s.downLink := by rw [dropGrant_shape]
@[simp] theorem dropGrant_outstanding (i : Nat) : (dropGrant i s).outstanding = s.outstanding :=
  by rw [dropGrant_shape]
@[simp] theorem dropGrant_heldTags (i : Nat) : (dropGrant i s).heldTags = s.heldTags := by rw [dropGrant_shape]
@[simp] theorem dropGrant_tagWaits (i : Nat) : (dropGrant i s).tagWaits = s.tagWaits := by rw [dropGrant_shape]
@[simp] theorem dropGrant_produced (i : Nat) : (dropGrant i s).produced = s.produced := by rw [dropGrant_shape]
@[simp] theorem dropGrant_offers (i : Nat) : (dropGrant i s).offers = s.offers := by rw [dropGrant_shape]
@[simp] theorem dropGrant_downOffered (i : Nat) : (dropGrant i s).downOffered = s.downOffered :=
  by rw [dropGrant_shape]
@[simp] theorem dropGrant_lastClass (i : Nat) : (dropGrant i s).lastClass = s.lastClass := by rw [dropGrant_shape]
@[simp] theorem dropGrant_stage (i : Nat) : (dropGrant i s).stage = s.stage := by rw [dropGrant_shape]
@[simp] theorem dropGrant_inFlight (i : Nat) : (dropGrant i s).inFlight = s.inFlight := by rw [dropGrant_shape]
@[simp] theorem dropGrant_drains (i : Nat) : (dropGrant i s).drains = s.drains := by rw [dropGrant_shape]
@[simp] theorem dropGrant_ways (i : Nat) : (dropGrant i s).ways = s.ways := by rw [dropGrant_shape]
@[simp] theorem dropGrant_lru (i : Nat) : (dropGrant i s).lru = s.lru := by rw [dropGrant_shape]
@[simp] theorem dropGrant_fills (i : Nat) : (dropGrant i s).fills = s.fills := by rw [dropGrant_shape]
@[simp] theorem dropGrant_fillWaits (i : Nat) : (dropGrant i s).fillWaits = s.fillWaits := by rw [dropGrant_shape]
@[simp] theorem dropGrant_fillSerial (i : Nat) : (dropGrant i s).fillSerial = s.fillSerial :=
  by rw [dropGrant_shape]
@[simp] theorem dropGrant_missQueue (i : Nat) : (dropGrant i s).missQueue = s.missQueue := by rw [dropGrant_shape]
@[simp] theorem dropGrant_poisonings (i : Nat) : (dropGrant i s).poisonings = s.poisonings :=
  by rw [dropGrant_shape]
@[simp] theorem dropGrant_corrected (i : Nat) : (dropGrant i s).corrected = s.corrected := by rw [dropGrant_shape]
@[simp] theorem dropGrant_correctedLimit (i : Nat) : (dropGrant i s).correctedLimit = s.correctedLimit :=
  by rw [dropGrant_shape]
@[simp] theorem dropGrant_firstCorrected (i : Nat) : (dropGrant i s).firstCorrected = s.firstCorrected :=
  by rw [dropGrant_shape]
@[simp] theorem dropGrant_hold (i : Nat) : (dropGrant i s).hold = s.hold := by rw [dropGrant_shape]
@[simp] theorem dropGrant_poisonList (i : Nat) : (dropGrant i s).poisonList = s.poisonList :=
  by rw [dropGrant_shape]
@[simp] theorem dropGrant_grantSerial (i : Nat) : (dropGrant i s).grantSerial = s.grantSerial :=
  by rw [dropGrant_shape]
@[simp] theorem dropGrant_requests (i : Nat) : (dropGrant i s).requests = s.requests := by rw [dropGrant_shape]
@[simp] theorem dropGrant_running (i : Nat) : (dropGrant i s).running = s.running := by rw [dropGrant_shape]
@[simp] theorem dropGrant_results (i : Nat) : (dropGrant i s).results = s.results := by rw [dropGrant_shape]
@[simp] theorem dropGrant_channels (i : Nat) : (dropGrant i s).channels = s.channels := by rw [dropGrant_shape]
@[simp] theorem dropGrant_warm (i : Nat) : (dropGrant i s).warm = s.warm := by rw [dropGrant_shape]
@[simp] theorem dropGrant_units (i : Nat) : (dropGrant i s).units = s.units := by rw [dropGrant_shape]
@[simp] theorem dropGrant_lastServed (i : Nat) : (dropGrant i s).lastServed = s.lastServed :=
  by rw [dropGrant_shape]
@[simp] theorem dropGrant_slots (i : Nat) : (dropGrant i s).slots = s.slots := by rw [dropGrant_shape]
@[simp] theorem dropGrant_regions (i : Nat) : (dropGrant i s).regions = s.regions := by rw [dropGrant_shape]
@[simp] theorem dropGrant_freeze (i : Nat) : (dropGrant i s).freeze = s.freeze := by rw [dropGrant_shape]
@[simp] theorem dropGrant_log (i : Nat) : (dropGrant i s).log = s.log := by rw [dropGrant_shape]
@[simp] theorem dropGrant_notices (i : Nat) : (dropGrant i s).notices = s.notices := by rw [dropGrant_shape]
@[simp] theorem dropGrant_pending (i : Nat) : (dropGrant i s).pending = s.pending := by rw [dropGrant_shape]
@[simp] theorem chan_dropGrant (i : Nat) (y : Nat) : chan (dropGrant i s) y = chan s y :=
  by rw [dropGrant_shape]; rfl
@[simp] theorem slotOf_dropGrant (i : Nat) (y : Nat) : slotOf (dropGrant i s) y = slotOf s y :=
  by rw [dropGrant_shape]; rfl
@[simp] theorem regionOf_dropGrant (i : Nat) (y : Nat) : regionOf (dropGrant i s) y = regionOf s y :=
  by rw [dropGrant_shape]; rfl
@[simp] theorem sourceOf_dropGrant (i : Nat) (y : Nat) : sourceOf (dropGrant i s) y = sourceOf s y :=
  by rw [dropGrant_shape]; rfl
@[simp] theorem resultOf_dropGrant (i : Nat) (y : Nat) : resultOf (dropGrant i s) y = resultOf s y :=
  by rw [dropGrant_shape]; rfl
@[simp] theorem unitOf_dropGrant (i : Nat) (y : Nat) : unitOf (dropGrant i s) y = unitOf s y :=
  by rw [dropGrant_shape]; rfl
@[simp] theorem recordAt_dropGrant (i : Nat) (y : Nat) : recordAt (dropGrant i s) y = recordAt s y :=
  by rw [dropGrant_shape]; rfl
@[simp] theorem findKey_dropGrant (i : Nat) (y : Nat) : findKey (dropGrant i s) y = findKey s y :=
  by rw [dropGrant_shape]; rfl

/-! ### `removeGrant` -/

theorem removeGrant_shape (i : Nat) (g : Grant) (r : TagRecord) :
    removeGrant i g r s = { s with
    grants := (removeGrant i g r s).grants
    domains := (removeGrant i g r s).domains
    ways := (removeGrant i g r s).ways
    outstanding := (removeGrant i g r s).outstanding } := by
  unfold removeGrant; rw [dropGrant_shape, putRecord_shape]

@[simp] theorem removeGrant_base (i : Nat) (g : Grant) (r : TagRecord) : (removeGrant i g r s).base = s.base :=
  by rw [removeGrant_shape]
@[simp] theorem removeGrant_requested (i : Nat) (g : Grant) (r : TagRecord) : (removeGrant i g r s).requested
    = s.requested :=
  by rw [removeGrant_shape]
@[simp] theorem removeGrant_size (i : Nat) (g : Grant) (r : TagRecord) : (removeGrant i g r s).size = s.size :=
  by rw [removeGrant_shape]
@[simp] theorem removeGrant_mode (i : Nat) (g : Grant) (r : TagRecord) : (removeGrant i g r s).mode = s.mode :=
  by rw [removeGrant_shape]
@[simp] theorem removeGrant_cause (i : Nat) (g : Grant) (r : TagRecord) : (removeGrant i g r s).cause = s.cause :=
  by rw [removeGrant_shape]
@[simp] theorem removeGrant_integrityMark (i : Nat) (g : Grant) (r : TagRecord) : (removeGrant i g r
    s).integrityMark = s.integrityMark :=
  by rw [removeGrant_shape]
@[simp] theorem removeGrant_policy (i : Nat) (g : Grant) (r : TagRecord) : (removeGrant i g r s).policy = s.policy :=
  by rw [removeGrant_shape]
@[simp] theorem removeGrant_faultLine (i : Nat) (g : Grant) (r : TagRecord) : (removeGrant i g r s).faultLine
    = s.faultLine :=
  by rw [removeGrant_shape]
@[simp] theorem removeGrant_warnLine (i : Nat) (g : Grant) (r : TagRecord) : (removeGrant i g r s).warnLine = s.warnLine :=
  by rw [removeGrant_shape]
@[simp] theorem removeGrant_flush (i : Nat) (g : Grant) (r : TagRecord) : (removeGrant i g r s).flush = s.flush :=
  by rw [removeGrant_shape]
@[simp] theorem removeGrant_tagBase (i : Nat) (g : Grant) (r : TagRecord) : (removeGrant i g r s).tagBase = s.tagBase :=
  by rw [removeGrant_shape]
@[simp] theorem removeGrant_progress (i : Nat) (g : Grant) (r : TagRecord) : (removeGrant i g r s).progress = s.progress :=
  by rw [removeGrant_shape]
@[simp] theorem removeGrant_upLink (i : Nat) (g : Grant) (r : TagRecord) : (removeGrant i g r s).upLink = s.upLink :=
  by rw [removeGrant_shape]
@[simp] theorem removeGrant_tagsInUse (i : Nat) (g : Grant) (r : TagRecord) : (removeGrant i g r s).tagsInUse
    = s.tagsInUse :=
  by rw [removeGrant_shape]
@[simp] theorem removeGrant_completions (i : Nat) (g : Grant) (r : TagRecord) : (removeGrant i g r
    s).completions = s.completions :=
  by rw [removeGrant_shape]
@[simp] theorem removeGrant_noticeSlot (i : Nat) (g : Grant) (r : TagRecord) : (removeGrant i g r
    s).noticeSlot = s.noticeSlot :=
  by rw [removeGrant_shape]
@[simp] theorem removeGrant_txOffered (i : Nat) (g : Grant) (r : TagRecord) : (removeGrant i g r s).txOffered
    = s.txOffered :=
  by rw [removeGrant_shape]
@[simp] theorem removeGrant_txLast (i : Nat) (g : Grant) (r : TagRecord) : (removeGrant i g r s).txLast = s.txLast :=
  by rw [removeGrant_shape]
@[simp] theorem removeGrant_downLink (i : Nat) (g : Grant) (r : TagRecord) : (removeGrant i g r s).downLink = s.downLink :=
  by rw [removeGrant_shape]
@[simp] theorem removeGrant_heldTags (i : Nat) (g : Grant) (r : TagRecord) : (removeGrant i g r s).heldTags = s.heldTags :=
  by rw [removeGrant_shape]
@[simp] theorem removeGrant_tagWaits (i : Nat) (g : Grant) (r : TagRecord) : (removeGrant i g r s).tagWaits = s.tagWaits :=
  by rw [removeGrant_shape]
@[simp] theorem removeGrant_produced (i : Nat) (g : Grant) (r : TagRecord) : (removeGrant i g r s).produced = s.produced :=
  by rw [removeGrant_shape]
@[simp] theorem removeGrant_offers (i : Nat) (g : Grant) (r : TagRecord) : (removeGrant i g r s).offers = s.offers :=
  by rw [removeGrant_shape]
@[simp] theorem removeGrant_downOffered (i : Nat) (g : Grant) (r : TagRecord) : (removeGrant i g r
    s).downOffered = s.downOffered :=
  by rw [removeGrant_shape]
@[simp] theorem removeGrant_lastClass (i : Nat) (g : Grant) (r : TagRecord) : (removeGrant i g r s).lastClass
    = s.lastClass :=
  by rw [removeGrant_shape]
@[simp] theorem removeGrant_stage (i : Nat) (g : Grant) (r : TagRecord) : (removeGrant i g r s).stage = s.stage :=
  by rw [removeGrant_shape]
@[simp] theorem removeGrant_inFlight (i : Nat) (g : Grant) (r : TagRecord) : (removeGrant i g r s).inFlight = s.inFlight :=
  by rw [removeGrant_shape]
@[simp] theorem removeGrant_drains (i : Nat) (g : Grant) (r : TagRecord) : (removeGrant i g r s).drains = s.drains :=
  by rw [removeGrant_shape]
@[simp] theorem removeGrant_lru (i : Nat) (g : Grant) (r : TagRecord) : (removeGrant i g r s).lru = s.lru :=
  by rw [removeGrant_shape]
@[simp] theorem removeGrant_fills (i : Nat) (g : Grant) (r : TagRecord) : (removeGrant i g r s).fills = s.fills :=
  by rw [removeGrant_shape]
@[simp] theorem removeGrant_fillWaits (i : Nat) (g : Grant) (r : TagRecord) : (removeGrant i g r s).fillWaits
    = s.fillWaits :=
  by rw [removeGrant_shape]
@[simp] theorem removeGrant_fillSerial (i : Nat) (g : Grant) (r : TagRecord) : (removeGrant i g r
    s).fillSerial = s.fillSerial :=
  by rw [removeGrant_shape]
@[simp] theorem removeGrant_missQueue (i : Nat) (g : Grant) (r : TagRecord) : (removeGrant i g r s).missQueue
    = s.missQueue :=
  by rw [removeGrant_shape]
@[simp] theorem removeGrant_poisonings (i : Nat) (g : Grant) (r : TagRecord) : (removeGrant i g r
    s).poisonings = s.poisonings :=
  by rw [removeGrant_shape]
@[simp] theorem removeGrant_corrected (i : Nat) (g : Grant) (r : TagRecord) : (removeGrant i g r s).corrected
    = s.corrected :=
  by rw [removeGrant_shape]
@[simp] theorem removeGrant_correctedLimit (i : Nat) (g : Grant) (r : TagRecord) : (removeGrant i g r
    s).correctedLimit = s.correctedLimit :=
  by rw [removeGrant_shape]
@[simp] theorem removeGrant_firstCorrected (i : Nat) (g : Grant) (r : TagRecord) : (removeGrant i g r
    s).firstCorrected = s.firstCorrected :=
  by rw [removeGrant_shape]
@[simp] theorem removeGrant_hold (i : Nat) (g : Grant) (r : TagRecord) : (removeGrant i g r s).hold = s.hold :=
  by rw [removeGrant_shape]
@[simp] theorem removeGrant_poisonList (i : Nat) (g : Grant) (r : TagRecord) : (removeGrant i g r
    s).poisonList = s.poisonList :=
  by rw [removeGrant_shape]
@[simp] theorem removeGrant_grantSerial (i : Nat) (g : Grant) (r : TagRecord) : (removeGrant i g r
    s).grantSerial = s.grantSerial :=
  by rw [removeGrant_shape]
@[simp] theorem removeGrant_requests (i : Nat) (g : Grant) (r : TagRecord) : (removeGrant i g r s).requests = s.requests :=
  by rw [removeGrant_shape]
@[simp] theorem removeGrant_running (i : Nat) (g : Grant) (r : TagRecord) : (removeGrant i g r s).running = s.running :=
  by rw [removeGrant_shape]
@[simp] theorem removeGrant_results (i : Nat) (g : Grant) (r : TagRecord) : (removeGrant i g r s).results = s.results :=
  by rw [removeGrant_shape]
@[simp] theorem removeGrant_channels (i : Nat) (g : Grant) (r : TagRecord) : (removeGrant i g r s).channels = s.channels :=
  by rw [removeGrant_shape]
@[simp] theorem removeGrant_warm (i : Nat) (g : Grant) (r : TagRecord) : (removeGrant i g r s).warm = s.warm :=
  by rw [removeGrant_shape]
@[simp] theorem removeGrant_units (i : Nat) (g : Grant) (r : TagRecord) : (removeGrant i g r s).units = s.units :=
  by rw [removeGrant_shape]
@[simp] theorem removeGrant_lastServed (i : Nat) (g : Grant) (r : TagRecord) : (removeGrant i g r
    s).lastServed = s.lastServed :=
  by rw [removeGrant_shape]
@[simp] theorem removeGrant_slots (i : Nat) (g : Grant) (r : TagRecord) : (removeGrant i g r s).slots = s.slots :=
  by rw [removeGrant_shape]
@[simp] theorem removeGrant_regions (i : Nat) (g : Grant) (r : TagRecord) : (removeGrant i g r s).regions = s.regions :=
  by rw [removeGrant_shape]
@[simp] theorem removeGrant_freeze (i : Nat) (g : Grant) (r : TagRecord) : (removeGrant i g r s).freeze = s.freeze :=
  by rw [removeGrant_shape]
@[simp] theorem removeGrant_log (i : Nat) (g : Grant) (r : TagRecord) : (removeGrant i g r s).log = s.log :=
  by rw [removeGrant_shape]
@[simp] theorem removeGrant_notices (i : Nat) (g : Grant) (r : TagRecord) : (removeGrant i g r s).notices = s.notices :=
  by rw [removeGrant_shape]
@[simp] theorem removeGrant_pending (i : Nat) (g : Grant) (r : TagRecord) : (removeGrant i g r s).pending = s.pending :=
  by rw [removeGrant_shape]
@[simp] theorem chan_removeGrant (i : Nat) (g : Grant) (r : TagRecord) (y : Nat) : chan (removeGrant i g r s)
    y = chan s y :=
  by rw [removeGrant_shape]; rfl
@[simp] theorem slotOf_removeGrant (i : Nat) (g : Grant) (r : TagRecord) (y : Nat) : slotOf (removeGrant i g
    r s) y = slotOf s y :=
  by rw [removeGrant_shape]; rfl
@[simp] theorem regionOf_removeGrant (i : Nat) (g : Grant) (r : TagRecord) (y : Nat) : regionOf (removeGrant
    i g r s) y = regionOf s y :=
  by rw [removeGrant_shape]; rfl
@[simp] theorem sourceOf_removeGrant (i : Nat) (g : Grant) (r : TagRecord) (y : Nat) : sourceOf (removeGrant
    i g r s) y = sourceOf s y :=
  by rw [removeGrant_shape]; rfl
@[simp] theorem resultOf_removeGrant (i : Nat) (g : Grant) (r : TagRecord) (y : Nat) : resultOf (removeGrant
    i g r s) y = resultOf s y :=
  by rw [removeGrant_shape]; rfl
@[simp] theorem unitOf_removeGrant (i : Nat) (g : Grant) (r : TagRecord) (y : Nat) : unitOf (removeGrant i g
    r s) y = unitOf s y :=
  by rw [removeGrant_shape]; rfl

/-! ### `finishRequest` -/

theorem finishRequest_shape (r : Result) (g : Option Nat) (q : QueryPart) :
    finishRequest r g q s = { s with
    requests := (finishRequest r g q s).requests
    running := (finishRequest r g q s).running
    results := (finishRequest r g q s).results } := by
  unfold finishRequest; split <;> rfl

@[simp] theorem finishRequest_base (r : Result) (g : Option Nat) (q : QueryPart) : (finishRequest r g q s).base = s.base :=
  by rw [finishRequest_shape]
@[simp] theorem finishRequest_requested (r : Result) (g : Option Nat) (q : QueryPart) : (finishRequest r g q
    s).requested = s.requested :=
  by rw [finishRequest_shape]
@[simp] theorem finishRequest_size (r : Result) (g : Option Nat) (q : QueryPart) : (finishRequest r g q s).size = s.size :=
  by rw [finishRequest_shape]
@[simp] theorem finishRequest_mode (r : Result) (g : Option Nat) (q : QueryPart) : (finishRequest r g q s).mode = s.mode :=
  by rw [finishRequest_shape]
@[simp] theorem finishRequest_cause (r : Result) (g : Option Nat) (q : QueryPart) : (finishRequest r g q
    s).cause = s.cause :=
  by rw [finishRequest_shape]
@[simp] theorem finishRequest_integrityMark (r : Result) (g : Option Nat) (q : QueryPart) : (finishRequest r
    g q s).integrityMark = s.integrityMark :=
  by rw [finishRequest_shape]
@[simp] theorem finishRequest_policy (r : Result) (g : Option Nat) (q : QueryPart) : (finishRequest r g q
    s).policy = s.policy :=
  by rw [finishRequest_shape]
@[simp] theorem finishRequest_faultLine (r : Result) (g : Option Nat) (q : QueryPart) : (finishRequest r g q
    s).faultLine = s.faultLine :=
  by rw [finishRequest_shape]
@[simp] theorem finishRequest_warnLine (r : Result) (g : Option Nat) (q : QueryPart) : (finishRequest r g q
    s).warnLine = s.warnLine :=
  by rw [finishRequest_shape]
@[simp] theorem finishRequest_flush (r : Result) (g : Option Nat) (q : QueryPart) : (finishRequest r g q
    s).flush = s.flush :=
  by rw [finishRequest_shape]
@[simp] theorem finishRequest_tagBase (r : Result) (g : Option Nat) (q : QueryPart) : (finishRequest r g q
    s).tagBase = s.tagBase :=
  by rw [finishRequest_shape]
@[simp] theorem finishRequest_progress (r : Result) (g : Option Nat) (q : QueryPart) : (finishRequest r g q
    s).progress = s.progress :=
  by rw [finishRequest_shape]
@[simp] theorem finishRequest_upLink (r : Result) (g : Option Nat) (q : QueryPart) : (finishRequest r g q
    s).upLink = s.upLink :=
  by rw [finishRequest_shape]
@[simp] theorem finishRequest_tagsInUse (r : Result) (g : Option Nat) (q : QueryPart) : (finishRequest r g q
    s).tagsInUse = s.tagsInUse :=
  by rw [finishRequest_shape]
@[simp] theorem finishRequest_completions (r : Result) (g : Option Nat) (q : QueryPart) : (finishRequest r g
    q s).completions = s.completions :=
  by rw [finishRequest_shape]
@[simp] theorem finishRequest_noticeSlot (r : Result) (g : Option Nat) (q : QueryPart) : (finishRequest r g q
    s).noticeSlot = s.noticeSlot :=
  by rw [finishRequest_shape]
@[simp] theorem finishRequest_txOffered (r : Result) (g : Option Nat) (q : QueryPart) : (finishRequest r g q
    s).txOffered = s.txOffered :=
  by rw [finishRequest_shape]
@[simp] theorem finishRequest_txLast (r : Result) (g : Option Nat) (q : QueryPart) : (finishRequest r g q
    s).txLast = s.txLast :=
  by rw [finishRequest_shape]
@[simp] theorem finishRequest_downLink (r : Result) (g : Option Nat) (q : QueryPart) : (finishRequest r g q
    s).downLink = s.downLink :=
  by rw [finishRequest_shape]
@[simp] theorem finishRequest_outstanding (r : Result) (g : Option Nat) (q : QueryPart) : (finishRequest r g
    q s).outstanding = s.outstanding :=
  by rw [finishRequest_shape]
@[simp] theorem finishRequest_heldTags (r : Result) (g : Option Nat) (q : QueryPart) : (finishRequest r g q
    s).heldTags = s.heldTags :=
  by rw [finishRequest_shape]
@[simp] theorem finishRequest_tagWaits (r : Result) (g : Option Nat) (q : QueryPart) : (finishRequest r g q
    s).tagWaits = s.tagWaits :=
  by rw [finishRequest_shape]
@[simp] theorem finishRequest_produced (r : Result) (g : Option Nat) (q : QueryPart) : (finishRequest r g q
    s).produced = s.produced :=
  by rw [finishRequest_shape]
@[simp] theorem finishRequest_offers (r : Result) (g : Option Nat) (q : QueryPart) : (finishRequest r g q
    s).offers = s.offers :=
  by rw [finishRequest_shape]
@[simp] theorem finishRequest_downOffered (r : Result) (g : Option Nat) (q : QueryPart) : (finishRequest r g
    q s).downOffered = s.downOffered :=
  by rw [finishRequest_shape]
@[simp] theorem finishRequest_lastClass (r : Result) (g : Option Nat) (q : QueryPart) : (finishRequest r g q
    s).lastClass = s.lastClass :=
  by rw [finishRequest_shape]
@[simp] theorem finishRequest_stage (r : Result) (g : Option Nat) (q : QueryPart) : (finishRequest r g q
    s).stage = s.stage :=
  by rw [finishRequest_shape]
@[simp] theorem finishRequest_inFlight (r : Result) (g : Option Nat) (q : QueryPart) : (finishRequest r g q
    s).inFlight = s.inFlight :=
  by rw [finishRequest_shape]
@[simp] theorem finishRequest_drains (r : Result) (g : Option Nat) (q : QueryPart) : (finishRequest r g q
    s).drains = s.drains :=
  by rw [finishRequest_shape]
@[simp] theorem finishRequest_ways (r : Result) (g : Option Nat) (q : QueryPart) : (finishRequest r g q s).ways = s.ways :=
  by rw [finishRequest_shape]
@[simp] theorem finishRequest_lru (r : Result) (g : Option Nat) (q : QueryPart) : (finishRequest r g q s).lru = s.lru :=
  by rw [finishRequest_shape]
@[simp] theorem finishRequest_fills (r : Result) (g : Option Nat) (q : QueryPart) : (finishRequest r g q
    s).fills = s.fills :=
  by rw [finishRequest_shape]
@[simp] theorem finishRequest_fillWaits (r : Result) (g : Option Nat) (q : QueryPart) : (finishRequest r g q
    s).fillWaits = s.fillWaits :=
  by rw [finishRequest_shape]
@[simp] theorem finishRequest_fillSerial (r : Result) (g : Option Nat) (q : QueryPart) : (finishRequest r g q
    s).fillSerial = s.fillSerial :=
  by rw [finishRequest_shape]
@[simp] theorem finishRequest_missQueue (r : Result) (g : Option Nat) (q : QueryPart) : (finishRequest r g q
    s).missQueue = s.missQueue :=
  by rw [finishRequest_shape]
@[simp] theorem finishRequest_poisonings (r : Result) (g : Option Nat) (q : QueryPart) : (finishRequest r g q
    s).poisonings = s.poisonings :=
  by rw [finishRequest_shape]
@[simp] theorem finishRequest_corrected (r : Result) (g : Option Nat) (q : QueryPart) : (finishRequest r g q
    s).corrected = s.corrected :=
  by rw [finishRequest_shape]
@[simp] theorem finishRequest_correctedLimit (r : Result) (g : Option Nat) (q : QueryPart) : (finishRequest r
    g q s).correctedLimit = s.correctedLimit :=
  by rw [finishRequest_shape]
@[simp] theorem finishRequest_firstCorrected (r : Result) (g : Option Nat) (q : QueryPart) : (finishRequest r
    g q s).firstCorrected = s.firstCorrected :=
  by rw [finishRequest_shape]
@[simp] theorem finishRequest_hold (r : Result) (g : Option Nat) (q : QueryPart) : (finishRequest r g q s).hold = s.hold :=
  by rw [finishRequest_shape]
@[simp] theorem finishRequest_poisonList (r : Result) (g : Option Nat) (q : QueryPart) : (finishRequest r g q
    s).poisonList = s.poisonList :=
  by rw [finishRequest_shape]
@[simp] theorem finishRequest_domains (r : Result) (g : Option Nat) (q : QueryPart) : (finishRequest r g q
    s).domains = s.domains :=
  by rw [finishRequest_shape]
@[simp] theorem finishRequest_grants (r : Result) (g : Option Nat) (q : QueryPart) : (finishRequest r g q
    s).grants = s.grants :=
  by rw [finishRequest_shape]
@[simp] theorem finishRequest_grantSerial (r : Result) (g : Option Nat) (q : QueryPart) : (finishRequest r g
    q s).grantSerial = s.grantSerial :=
  by rw [finishRequest_shape]
@[simp] theorem finishRequest_channels (r : Result) (g : Option Nat) (q : QueryPart) : (finishRequest r g q
    s).channels = s.channels :=
  by rw [finishRequest_shape]
@[simp] theorem finishRequest_warm (r : Result) (g : Option Nat) (q : QueryPart) : (finishRequest r g q s).warm = s.warm :=
  by rw [finishRequest_shape]
@[simp] theorem finishRequest_units (r : Result) (g : Option Nat) (q : QueryPart) : (finishRequest r g q
    s).units = s.units :=
  by rw [finishRequest_shape]
@[simp] theorem finishRequest_lastServed (r : Result) (g : Option Nat) (q : QueryPart) : (finishRequest r g q
    s).lastServed = s.lastServed :=
  by rw [finishRequest_shape]
@[simp] theorem finishRequest_slots (r : Result) (g : Option Nat) (q : QueryPart) : (finishRequest r g q
    s).slots = s.slots :=
  by rw [finishRequest_shape]
@[simp] theorem finishRequest_regions (r : Result) (g : Option Nat) (q : QueryPart) : (finishRequest r g q
    s).regions = s.regions :=
  by rw [finishRequest_shape]
@[simp] theorem finishRequest_freeze (r : Result) (g : Option Nat) (q : QueryPart) : (finishRequest r g q
    s).freeze = s.freeze :=
  by rw [finishRequest_shape]
@[simp] theorem finishRequest_log (r : Result) (g : Option Nat) (q : QueryPart) : (finishRequest r g q s).log = s.log :=
  by rw [finishRequest_shape]
@[simp] theorem finishRequest_notices (r : Result) (g : Option Nat) (q : QueryPart) : (finishRequest r g q
    s).notices = s.notices :=
  by rw [finishRequest_shape]
@[simp] theorem finishRequest_pending (r : Result) (g : Option Nat) (q : QueryPart) : (finishRequest r g q
    s).pending = s.pending :=
  by rw [finishRequest_shape]
@[simp] theorem dom_finishRequest (r : Result) (g : Option Nat) (q : QueryPart) (y : Nat) : dom
    (finishRequest r g q s) y = dom s y :=
  by rw [finishRequest_shape]; rfl
@[simp] theorem chan_finishRequest (r : Result) (g : Option Nat) (q : QueryPart) (y : Nat) : chan
    (finishRequest r g q s) y = chan s y :=
  by rw [finishRequest_shape]; rfl
@[simp] theorem slotOf_finishRequest (r : Result) (g : Option Nat) (q : QueryPart) (y : Nat) : slotOf
    (finishRequest r g q s) y = slotOf s y :=
  by rw [finishRequest_shape]; rfl
@[simp] theorem regionOf_finishRequest (r : Result) (g : Option Nat) (q : QueryPart) (y : Nat) : regionOf
    (finishRequest r g q s) y = regionOf s y :=
  by rw [finishRequest_shape]; rfl
@[simp] theorem sourceOf_finishRequest (r : Result) (g : Option Nat) (q : QueryPart) (y : Nat) : sourceOf
    (finishRequest r g q s) y = sourceOf s y :=
  by rw [finishRequest_shape]; rfl
@[simp] theorem grantAt_finishRequest (r : Result) (g : Option Nat) (q : QueryPart) (y : Nat) : grantAt
    (finishRequest r g q s) y = grantAt s y :=
  by rw [finishRequest_shape]; rfl
@[simp] theorem unitOf_finishRequest (r : Result) (g : Option Nat) (q : QueryPart) (y : Nat) : unitOf
    (finishRequest r g q s) y = unitOf s y :=
  by rw [finishRequest_shape]; rfl
@[simp] theorem recordAt_finishRequest (r : Result) (g : Option Nat) (q : QueryPart) (y : Nat) : recordAt
    (finishRequest r g q s) y = recordAt s y :=
  by rw [finishRequest_shape]; rfl
@[simp] theorem findKey_finishRequest (r : Result) (g : Option Nat) (q : QueryPart) (y : Nat) : findKey
    (finishRequest r g q s) y = findKey s y :=
  by rw [finishRequest_shape]; rfl

/-! ### `requestWait` -/

theorem requestWait_shape (w : Wait) :
    requestWait w s = { s with running := (requestWait w s).running } := rfl

@[simp] theorem requestWait_base (w : Wait) : (requestWait w s).base = s.base := rfl
@[simp] theorem requestWait_requested (w : Wait) : (requestWait w s).requested = s.requested := rfl
@[simp] theorem requestWait_size (w : Wait) : (requestWait w s).size = s.size := rfl
@[simp] theorem requestWait_mode (w : Wait) : (requestWait w s).mode = s.mode := rfl
@[simp] theorem requestWait_cause (w : Wait) : (requestWait w s).cause = s.cause := rfl
@[simp] theorem requestWait_integrityMark (w : Wait) : (requestWait w s).integrityMark = s.integrityMark := rfl
@[simp] theorem requestWait_policy (w : Wait) : (requestWait w s).policy = s.policy := rfl
@[simp] theorem requestWait_faultLine (w : Wait) : (requestWait w s).faultLine = s.faultLine := rfl
@[simp] theorem requestWait_warnLine (w : Wait) : (requestWait w s).warnLine = s.warnLine := rfl
@[simp] theorem requestWait_flush (w : Wait) : (requestWait w s).flush = s.flush := rfl
@[simp] theorem requestWait_tagBase (w : Wait) : (requestWait w s).tagBase = s.tagBase := rfl
@[simp] theorem requestWait_progress (w : Wait) : (requestWait w s).progress = s.progress := rfl
@[simp] theorem requestWait_upLink (w : Wait) : (requestWait w s).upLink = s.upLink := rfl
@[simp] theorem requestWait_tagsInUse (w : Wait) : (requestWait w s).tagsInUse = s.tagsInUse := rfl
@[simp] theorem requestWait_completions (w : Wait) : (requestWait w s).completions = s.completions := rfl
@[simp] theorem requestWait_noticeSlot (w : Wait) : (requestWait w s).noticeSlot = s.noticeSlot := rfl
@[simp] theorem requestWait_txOffered (w : Wait) : (requestWait w s).txOffered = s.txOffered := rfl
@[simp] theorem requestWait_txLast (w : Wait) : (requestWait w s).txLast = s.txLast := rfl
@[simp] theorem requestWait_downLink (w : Wait) : (requestWait w s).downLink = s.downLink := rfl
@[simp] theorem requestWait_outstanding (w : Wait) : (requestWait w s).outstanding = s.outstanding := rfl
@[simp] theorem requestWait_heldTags (w : Wait) : (requestWait w s).heldTags = s.heldTags := rfl
@[simp] theorem requestWait_tagWaits (w : Wait) : (requestWait w s).tagWaits = s.tagWaits := rfl
@[simp] theorem requestWait_produced (w : Wait) : (requestWait w s).produced = s.produced := rfl
@[simp] theorem requestWait_offers (w : Wait) : (requestWait w s).offers = s.offers := rfl
@[simp] theorem requestWait_downOffered (w : Wait) : (requestWait w s).downOffered = s.downOffered := rfl
@[simp] theorem requestWait_lastClass (w : Wait) : (requestWait w s).lastClass = s.lastClass := rfl
@[simp] theorem requestWait_stage (w : Wait) : (requestWait w s).stage = s.stage := rfl
@[simp] theorem requestWait_inFlight (w : Wait) : (requestWait w s).inFlight = s.inFlight := rfl
@[simp] theorem requestWait_drains (w : Wait) : (requestWait w s).drains = s.drains := rfl
@[simp] theorem requestWait_ways (w : Wait) : (requestWait w s).ways = s.ways := rfl
@[simp] theorem requestWait_lru (w : Wait) : (requestWait w s).lru = s.lru := rfl
@[simp] theorem requestWait_fills (w : Wait) : (requestWait w s).fills = s.fills := rfl
@[simp] theorem requestWait_fillWaits (w : Wait) : (requestWait w s).fillWaits = s.fillWaits := rfl
@[simp] theorem requestWait_fillSerial (w : Wait) : (requestWait w s).fillSerial = s.fillSerial := rfl
@[simp] theorem requestWait_missQueue (w : Wait) : (requestWait w s).missQueue = s.missQueue := rfl
@[simp] theorem requestWait_poisonings (w : Wait) : (requestWait w s).poisonings = s.poisonings := rfl
@[simp] theorem requestWait_corrected (w : Wait) : (requestWait w s).corrected = s.corrected := rfl
@[simp] theorem requestWait_correctedLimit (w : Wait) : (requestWait w s).correctedLimit = s.correctedLimit := rfl
@[simp] theorem requestWait_firstCorrected (w : Wait) : (requestWait w s).firstCorrected = s.firstCorrected := rfl
@[simp] theorem requestWait_hold (w : Wait) : (requestWait w s).hold = s.hold := rfl
@[simp] theorem requestWait_poisonList (w : Wait) : (requestWait w s).poisonList = s.poisonList := rfl
@[simp] theorem requestWait_domains (w : Wait) : (requestWait w s).domains = s.domains := rfl
@[simp] theorem requestWait_grants (w : Wait) : (requestWait w s).grants = s.grants := rfl
@[simp] theorem requestWait_grantSerial (w : Wait) : (requestWait w s).grantSerial = s.grantSerial := rfl
@[simp] theorem requestWait_requests (w : Wait) : (requestWait w s).requests = s.requests := rfl
@[simp] theorem requestWait_results (w : Wait) : (requestWait w s).results = s.results := rfl
@[simp] theorem requestWait_channels (w : Wait) : (requestWait w s).channels = s.channels := rfl
@[simp] theorem requestWait_warm (w : Wait) : (requestWait w s).warm = s.warm := rfl
@[simp] theorem requestWait_units (w : Wait) : (requestWait w s).units = s.units := rfl
@[simp] theorem requestWait_lastServed (w : Wait) : (requestWait w s).lastServed = s.lastServed := rfl
@[simp] theorem requestWait_slots (w : Wait) : (requestWait w s).slots = s.slots := rfl
@[simp] theorem requestWait_regions (w : Wait) : (requestWait w s).regions = s.regions := rfl
@[simp] theorem requestWait_freeze (w : Wait) : (requestWait w s).freeze = s.freeze := rfl
@[simp] theorem requestWait_log (w : Wait) : (requestWait w s).log = s.log := rfl
@[simp] theorem requestWait_notices (w : Wait) : (requestWait w s).notices = s.notices := rfl
@[simp] theorem requestWait_pending (w : Wait) : (requestWait w s).pending = s.pending := rfl
@[simp] theorem dom_requestWait (w : Wait) (y : Nat) : dom (requestWait w s) y = dom s y := rfl
@[simp] theorem chan_requestWait (w : Wait) (y : Nat) : chan (requestWait w s) y = chan s y := rfl
@[simp] theorem slotOf_requestWait (w : Wait) (y : Nat) : slotOf (requestWait w s) y = slotOf s y := rfl
@[simp] theorem regionOf_requestWait (w : Wait) (y : Nat) : regionOf (requestWait w s) y = regionOf s y := rfl
@[simp] theorem sourceOf_requestWait (w : Wait) (y : Nat) : sourceOf (requestWait w s) y = sourceOf s y := rfl
@[simp] theorem resultOf_requestWait (w : Wait) (y : Nat) : resultOf (requestWait w s) y = resultOf s y := rfl
@[simp] theorem grantAt_requestWait (w : Wait) (y : Nat) : grantAt (requestWait w s) y = grantAt s y := rfl
@[simp] theorem unitOf_requestWait (w : Wait) (y : Nat) : unitOf (requestWait w s) y = unitOf s y := rfl
@[simp] theorem recordAt_requestWait (w : Wait) (y : Nat) : recordAt (requestWait w s) y = recordAt s y := rfl
@[simp] theorem findKey_requestWait (w : Wait) (y : Nat) : findKey (requestWait w s) y = findKey s y := rfl

/-! ### `withdrawOffer` -/

theorem withdrawOffer_shape (x : Nat) :
    withdrawOffer x s = { s with
    offers := (withdrawOffer x s).offers
    downOffered := (withdrawOffer x s).downOffered } := rfl

@[simp] theorem withdrawOffer_base (x : Nat) : (withdrawOffer x s).base = s.base := rfl
@[simp] theorem withdrawOffer_requested (x : Nat) : (withdrawOffer x s).requested = s.requested := rfl
@[simp] theorem withdrawOffer_size (x : Nat) : (withdrawOffer x s).size = s.size := rfl
@[simp] theorem withdrawOffer_mode (x : Nat) : (withdrawOffer x s).mode = s.mode := rfl
@[simp] theorem withdrawOffer_cause (x : Nat) : (withdrawOffer x s).cause = s.cause := rfl
@[simp] theorem withdrawOffer_integrityMark (x : Nat) : (withdrawOffer x s).integrityMark = s.integrityMark := rfl
@[simp] theorem withdrawOffer_policy (x : Nat) : (withdrawOffer x s).policy = s.policy := rfl
@[simp] theorem withdrawOffer_faultLine (x : Nat) : (withdrawOffer x s).faultLine = s.faultLine := rfl
@[simp] theorem withdrawOffer_warnLine (x : Nat) : (withdrawOffer x s).warnLine = s.warnLine := rfl
@[simp] theorem withdrawOffer_flush (x : Nat) : (withdrawOffer x s).flush = s.flush := rfl
@[simp] theorem withdrawOffer_tagBase (x : Nat) : (withdrawOffer x s).tagBase = s.tagBase := rfl
@[simp] theorem withdrawOffer_progress (x : Nat) : (withdrawOffer x s).progress = s.progress := rfl
@[simp] theorem withdrawOffer_upLink (x : Nat) : (withdrawOffer x s).upLink = s.upLink := rfl
@[simp] theorem withdrawOffer_tagsInUse (x : Nat) : (withdrawOffer x s).tagsInUse = s.tagsInUse := rfl
@[simp] theorem withdrawOffer_completions (x : Nat) : (withdrawOffer x s).completions = s.completions := rfl
@[simp] theorem withdrawOffer_noticeSlot (x : Nat) : (withdrawOffer x s).noticeSlot = s.noticeSlot := rfl
@[simp] theorem withdrawOffer_txOffered (x : Nat) : (withdrawOffer x s).txOffered = s.txOffered := rfl
@[simp] theorem withdrawOffer_txLast (x : Nat) : (withdrawOffer x s).txLast = s.txLast := rfl
@[simp] theorem withdrawOffer_downLink (x : Nat) : (withdrawOffer x s).downLink = s.downLink := rfl
@[simp] theorem withdrawOffer_outstanding (x : Nat) : (withdrawOffer x s).outstanding = s.outstanding := rfl
@[simp] theorem withdrawOffer_heldTags (x : Nat) : (withdrawOffer x s).heldTags = s.heldTags := rfl
@[simp] theorem withdrawOffer_tagWaits (x : Nat) : (withdrawOffer x s).tagWaits = s.tagWaits := rfl
@[simp] theorem withdrawOffer_produced (x : Nat) : (withdrawOffer x s).produced = s.produced := rfl
@[simp] theorem withdrawOffer_lastClass (x : Nat) : (withdrawOffer x s).lastClass = s.lastClass := rfl
@[simp] theorem withdrawOffer_stage (x : Nat) : (withdrawOffer x s).stage = s.stage := rfl
@[simp] theorem withdrawOffer_inFlight (x : Nat) : (withdrawOffer x s).inFlight = s.inFlight := rfl
@[simp] theorem withdrawOffer_drains (x : Nat) : (withdrawOffer x s).drains = s.drains := rfl
@[simp] theorem withdrawOffer_ways (x : Nat) : (withdrawOffer x s).ways = s.ways := rfl
@[simp] theorem withdrawOffer_lru (x : Nat) : (withdrawOffer x s).lru = s.lru := rfl
@[simp] theorem withdrawOffer_fills (x : Nat) : (withdrawOffer x s).fills = s.fills := rfl
@[simp] theorem withdrawOffer_fillWaits (x : Nat) : (withdrawOffer x s).fillWaits = s.fillWaits := rfl
@[simp] theorem withdrawOffer_fillSerial (x : Nat) : (withdrawOffer x s).fillSerial = s.fillSerial := rfl
@[simp] theorem withdrawOffer_missQueue (x : Nat) : (withdrawOffer x s).missQueue = s.missQueue := rfl
@[simp] theorem withdrawOffer_poisonings (x : Nat) : (withdrawOffer x s).poisonings = s.poisonings := rfl
@[simp] theorem withdrawOffer_corrected (x : Nat) : (withdrawOffer x s).corrected = s.corrected := rfl
@[simp] theorem withdrawOffer_correctedLimit (x : Nat) : (withdrawOffer x s).correctedLimit = s.correctedLimit :=
  rfl
@[simp] theorem withdrawOffer_firstCorrected (x : Nat) : (withdrawOffer x s).firstCorrected = s.firstCorrected :=
  rfl
@[simp] theorem withdrawOffer_hold (x : Nat) : (withdrawOffer x s).hold = s.hold := rfl
@[simp] theorem withdrawOffer_poisonList (x : Nat) : (withdrawOffer x s).poisonList = s.poisonList := rfl
@[simp] theorem withdrawOffer_domains (x : Nat) : (withdrawOffer x s).domains = s.domains := rfl
@[simp] theorem withdrawOffer_grants (x : Nat) : (withdrawOffer x s).grants = s.grants := rfl
@[simp] theorem withdrawOffer_grantSerial (x : Nat) : (withdrawOffer x s).grantSerial = s.grantSerial := rfl
@[simp] theorem withdrawOffer_requests (x : Nat) : (withdrawOffer x s).requests = s.requests := rfl
@[simp] theorem withdrawOffer_running (x : Nat) : (withdrawOffer x s).running = s.running := rfl
@[simp] theorem withdrawOffer_results (x : Nat) : (withdrawOffer x s).results = s.results := rfl
@[simp] theorem withdrawOffer_channels (x : Nat) : (withdrawOffer x s).channels = s.channels := rfl
@[simp] theorem withdrawOffer_warm (x : Nat) : (withdrawOffer x s).warm = s.warm := rfl
@[simp] theorem withdrawOffer_units (x : Nat) : (withdrawOffer x s).units = s.units := rfl
@[simp] theorem withdrawOffer_lastServed (x : Nat) : (withdrawOffer x s).lastServed = s.lastServed := rfl
@[simp] theorem withdrawOffer_slots (x : Nat) : (withdrawOffer x s).slots = s.slots := rfl
@[simp] theorem withdrawOffer_regions (x : Nat) : (withdrawOffer x s).regions = s.regions := rfl
@[simp] theorem withdrawOffer_freeze (x : Nat) : (withdrawOffer x s).freeze = s.freeze := rfl
@[simp] theorem withdrawOffer_log (x : Nat) : (withdrawOffer x s).log = s.log := rfl
@[simp] theorem withdrawOffer_notices (x : Nat) : (withdrawOffer x s).notices = s.notices := rfl
@[simp] theorem withdrawOffer_pending (x : Nat) : (withdrawOffer x s).pending = s.pending := rfl
@[simp] theorem dom_withdrawOffer (x : Nat) (y : Nat) : dom (withdrawOffer x s) y = dom s y := rfl
@[simp] theorem chan_withdrawOffer (x : Nat) (y : Nat) : chan (withdrawOffer x s) y = chan s y := rfl
@[simp] theorem slotOf_withdrawOffer (x : Nat) (y : Nat) : slotOf (withdrawOffer x s) y = slotOf s y := rfl
@[simp] theorem regionOf_withdrawOffer (x : Nat) (y : Nat) : regionOf (withdrawOffer x s) y = regionOf s y := rfl
@[simp] theorem sourceOf_withdrawOffer (x : Nat) (y : Nat) : sourceOf (withdrawOffer x s) y = sourceOf s y := rfl
@[simp] theorem resultOf_withdrawOffer (x : Nat) (y : Nat) : resultOf (withdrawOffer x s) y = resultOf s y := rfl
@[simp] theorem grantAt_withdrawOffer (x : Nat) (y : Nat) : grantAt (withdrawOffer x s) y = grantAt s y := rfl
@[simp] theorem unitOf_withdrawOffer (x : Nat) (y : Nat) : unitOf (withdrawOffer x s) y = unitOf s y := rfl
@[simp] theorem recordAt_withdrawOffer (x : Nat) (y : Nat) : recordAt (withdrawOffer x s) y = recordAt s y := rfl
@[simp] theorem findKey_withdrawOffer (x : Nat) (y : Nat) : findKey (withdrawOffer x s) y = findKey s y := rfl

/-! ### `retireTag` -/

theorem retireTag_shape (x : Nat) :
    retireTag x s = { s with
    offers := (retireTag x s).offers
    downOffered := (retireTag x s).downOffered
    outstanding := (retireTag x s).outstanding } := rfl

@[simp] theorem retireTag_base (x : Nat) : (retireTag x s).base = s.base := rfl
@[simp] theorem retireTag_requested (x : Nat) : (retireTag x s).requested = s.requested := rfl
@[simp] theorem retireTag_size (x : Nat) : (retireTag x s).size = s.size := rfl
@[simp] theorem retireTag_mode (x : Nat) : (retireTag x s).mode = s.mode := rfl
@[simp] theorem retireTag_cause (x : Nat) : (retireTag x s).cause = s.cause := rfl
@[simp] theorem retireTag_integrityMark (x : Nat) : (retireTag x s).integrityMark = s.integrityMark := rfl
@[simp] theorem retireTag_policy (x : Nat) : (retireTag x s).policy = s.policy := rfl
@[simp] theorem retireTag_faultLine (x : Nat) : (retireTag x s).faultLine = s.faultLine := rfl
@[simp] theorem retireTag_warnLine (x : Nat) : (retireTag x s).warnLine = s.warnLine := rfl
@[simp] theorem retireTag_flush (x : Nat) : (retireTag x s).flush = s.flush := rfl
@[simp] theorem retireTag_tagBase (x : Nat) : (retireTag x s).tagBase = s.tagBase := rfl
@[simp] theorem retireTag_progress (x : Nat) : (retireTag x s).progress = s.progress := rfl
@[simp] theorem retireTag_upLink (x : Nat) : (retireTag x s).upLink = s.upLink := rfl
@[simp] theorem retireTag_tagsInUse (x : Nat) : (retireTag x s).tagsInUse = s.tagsInUse := rfl
@[simp] theorem retireTag_completions (x : Nat) : (retireTag x s).completions = s.completions := rfl
@[simp] theorem retireTag_noticeSlot (x : Nat) : (retireTag x s).noticeSlot = s.noticeSlot := rfl
@[simp] theorem retireTag_txOffered (x : Nat) : (retireTag x s).txOffered = s.txOffered := rfl
@[simp] theorem retireTag_txLast (x : Nat) : (retireTag x s).txLast = s.txLast := rfl
@[simp] theorem retireTag_downLink (x : Nat) : (retireTag x s).downLink = s.downLink := rfl
@[simp] theorem retireTag_heldTags (x : Nat) : (retireTag x s).heldTags = s.heldTags := rfl
@[simp] theorem retireTag_tagWaits (x : Nat) : (retireTag x s).tagWaits = s.tagWaits := rfl
@[simp] theorem retireTag_produced (x : Nat) : (retireTag x s).produced = s.produced := rfl
@[simp] theorem retireTag_lastClass (x : Nat) : (retireTag x s).lastClass = s.lastClass := rfl
@[simp] theorem retireTag_stage (x : Nat) : (retireTag x s).stage = s.stage := rfl
@[simp] theorem retireTag_inFlight (x : Nat) : (retireTag x s).inFlight = s.inFlight := rfl
@[simp] theorem retireTag_drains (x : Nat) : (retireTag x s).drains = s.drains := rfl
@[simp] theorem retireTag_ways (x : Nat) : (retireTag x s).ways = s.ways := rfl
@[simp] theorem retireTag_lru (x : Nat) : (retireTag x s).lru = s.lru := rfl
@[simp] theorem retireTag_fills (x : Nat) : (retireTag x s).fills = s.fills := rfl
@[simp] theorem retireTag_fillWaits (x : Nat) : (retireTag x s).fillWaits = s.fillWaits := rfl
@[simp] theorem retireTag_fillSerial (x : Nat) : (retireTag x s).fillSerial = s.fillSerial := rfl
@[simp] theorem retireTag_missQueue (x : Nat) : (retireTag x s).missQueue = s.missQueue := rfl
@[simp] theorem retireTag_poisonings (x : Nat) : (retireTag x s).poisonings = s.poisonings := rfl
@[simp] theorem retireTag_corrected (x : Nat) : (retireTag x s).corrected = s.corrected := rfl
@[simp] theorem retireTag_correctedLimit (x : Nat) : (retireTag x s).correctedLimit = s.correctedLimit := rfl
@[simp] theorem retireTag_firstCorrected (x : Nat) : (retireTag x s).firstCorrected = s.firstCorrected := rfl
@[simp] theorem retireTag_hold (x : Nat) : (retireTag x s).hold = s.hold := rfl
@[simp] theorem retireTag_poisonList (x : Nat) : (retireTag x s).poisonList = s.poisonList := rfl
@[simp] theorem retireTag_domains (x : Nat) : (retireTag x s).domains = s.domains := rfl
@[simp] theorem retireTag_grants (x : Nat) : (retireTag x s).grants = s.grants := rfl
@[simp] theorem retireTag_grantSerial (x : Nat) : (retireTag x s).grantSerial = s.grantSerial := rfl
@[simp] theorem retireTag_requests (x : Nat) : (retireTag x s).requests = s.requests := rfl
@[simp] theorem retireTag_running (x : Nat) : (retireTag x s).running = s.running := rfl
@[simp] theorem retireTag_results (x : Nat) : (retireTag x s).results = s.results := rfl
@[simp] theorem retireTag_channels (x : Nat) : (retireTag x s).channels = s.channels := rfl
@[simp] theorem retireTag_warm (x : Nat) : (retireTag x s).warm = s.warm := rfl
@[simp] theorem retireTag_units (x : Nat) : (retireTag x s).units = s.units := rfl
@[simp] theorem retireTag_lastServed (x : Nat) : (retireTag x s).lastServed = s.lastServed := rfl
@[simp] theorem retireTag_slots (x : Nat) : (retireTag x s).slots = s.slots := rfl
@[simp] theorem retireTag_regions (x : Nat) : (retireTag x s).regions = s.regions := rfl
@[simp] theorem retireTag_freeze (x : Nat) : (retireTag x s).freeze = s.freeze := rfl
@[simp] theorem retireTag_log (x : Nat) : (retireTag x s).log = s.log := rfl
@[simp] theorem retireTag_notices (x : Nat) : (retireTag x s).notices = s.notices := rfl
@[simp] theorem retireTag_pending (x : Nat) : (retireTag x s).pending = s.pending := rfl
@[simp] theorem dom_retireTag (x : Nat) (y : Nat) : dom (retireTag x s) y = dom s y := rfl
@[simp] theorem chan_retireTag (x : Nat) (y : Nat) : chan (retireTag x s) y = chan s y := rfl
@[simp] theorem slotOf_retireTag (x : Nat) (y : Nat) : slotOf (retireTag x s) y = slotOf s y := rfl
@[simp] theorem regionOf_retireTag (x : Nat) (y : Nat) : regionOf (retireTag x s) y = regionOf s y := rfl
@[simp] theorem sourceOf_retireTag (x : Nat) (y : Nat) : sourceOf (retireTag x s) y = sourceOf s y := rfl
@[simp] theorem resultOf_retireTag (x : Nat) (y : Nat) : resultOf (retireTag x s) y = resultOf s y := rfl
@[simp] theorem grantAt_retireTag (x : Nat) (y : Nat) : grantAt (retireTag x s) y = grantAt s y := rfl
@[simp] theorem unitOf_retireTag (x : Nat) (y : Nat) : unitOf (retireTag x s) y = unitOf s y := rfl
@[simp] theorem recordAt_retireTag (x : Nat) (y : Nat) : recordAt (retireTag x s) y = recordAt s y := rfl
@[simp] theorem findKey_retireTag (x : Nat) (y : Nat) : findKey (retireTag x s) y = findKey s y := rfl

/-! ### `freeEntry` -/

theorem freeEntry_shape (i : Nat) :
    freeEntry i s = { s with
    inFlight := (freeEntry i s).inFlight
    drains := (freeEntry i s).drains
    offers := (freeEntry i s).offers
    downOffered := (freeEntry i s).downOffered } := rfl

@[simp] theorem freeEntry_base (i : Nat) : (freeEntry i s).base = s.base := rfl
@[simp] theorem freeEntry_requested (i : Nat) : (freeEntry i s).requested = s.requested := rfl
@[simp] theorem freeEntry_size (i : Nat) : (freeEntry i s).size = s.size := rfl
@[simp] theorem freeEntry_mode (i : Nat) : (freeEntry i s).mode = s.mode := rfl
@[simp] theorem freeEntry_cause (i : Nat) : (freeEntry i s).cause = s.cause := rfl
@[simp] theorem freeEntry_integrityMark (i : Nat) : (freeEntry i s).integrityMark = s.integrityMark := rfl
@[simp] theorem freeEntry_policy (i : Nat) : (freeEntry i s).policy = s.policy := rfl
@[simp] theorem freeEntry_faultLine (i : Nat) : (freeEntry i s).faultLine = s.faultLine := rfl
@[simp] theorem freeEntry_warnLine (i : Nat) : (freeEntry i s).warnLine = s.warnLine := rfl
@[simp] theorem freeEntry_flush (i : Nat) : (freeEntry i s).flush = s.flush := rfl
@[simp] theorem freeEntry_tagBase (i : Nat) : (freeEntry i s).tagBase = s.tagBase := rfl
@[simp] theorem freeEntry_progress (i : Nat) : (freeEntry i s).progress = s.progress := rfl
@[simp] theorem freeEntry_upLink (i : Nat) : (freeEntry i s).upLink = s.upLink := rfl
@[simp] theorem freeEntry_tagsInUse (i : Nat) : (freeEntry i s).tagsInUse = s.tagsInUse := rfl
@[simp] theorem freeEntry_completions (i : Nat) : (freeEntry i s).completions = s.completions := rfl
@[simp] theorem freeEntry_noticeSlot (i : Nat) : (freeEntry i s).noticeSlot = s.noticeSlot := rfl
@[simp] theorem freeEntry_txOffered (i : Nat) : (freeEntry i s).txOffered = s.txOffered := rfl
@[simp] theorem freeEntry_txLast (i : Nat) : (freeEntry i s).txLast = s.txLast := rfl
@[simp] theorem freeEntry_downLink (i : Nat) : (freeEntry i s).downLink = s.downLink := rfl
@[simp] theorem freeEntry_outstanding (i : Nat) : (freeEntry i s).outstanding = s.outstanding := rfl
@[simp] theorem freeEntry_heldTags (i : Nat) : (freeEntry i s).heldTags = s.heldTags := rfl
@[simp] theorem freeEntry_tagWaits (i : Nat) : (freeEntry i s).tagWaits = s.tagWaits := rfl
@[simp] theorem freeEntry_produced (i : Nat) : (freeEntry i s).produced = s.produced := rfl
@[simp] theorem freeEntry_lastClass (i : Nat) : (freeEntry i s).lastClass = s.lastClass := rfl
@[simp] theorem freeEntry_stage (i : Nat) : (freeEntry i s).stage = s.stage := rfl
@[simp] theorem freeEntry_ways (i : Nat) : (freeEntry i s).ways = s.ways := rfl
@[simp] theorem freeEntry_lru (i : Nat) : (freeEntry i s).lru = s.lru := rfl
@[simp] theorem freeEntry_fills (i : Nat) : (freeEntry i s).fills = s.fills := rfl
@[simp] theorem freeEntry_fillWaits (i : Nat) : (freeEntry i s).fillWaits = s.fillWaits := rfl
@[simp] theorem freeEntry_fillSerial (i : Nat) : (freeEntry i s).fillSerial = s.fillSerial := rfl
@[simp] theorem freeEntry_missQueue (i : Nat) : (freeEntry i s).missQueue = s.missQueue := rfl
@[simp] theorem freeEntry_poisonings (i : Nat) : (freeEntry i s).poisonings = s.poisonings := rfl
@[simp] theorem freeEntry_corrected (i : Nat) : (freeEntry i s).corrected = s.corrected := rfl
@[simp] theorem freeEntry_correctedLimit (i : Nat) : (freeEntry i s).correctedLimit = s.correctedLimit := rfl
@[simp] theorem freeEntry_firstCorrected (i : Nat) : (freeEntry i s).firstCorrected = s.firstCorrected := rfl
@[simp] theorem freeEntry_hold (i : Nat) : (freeEntry i s).hold = s.hold := rfl
@[simp] theorem freeEntry_poisonList (i : Nat) : (freeEntry i s).poisonList = s.poisonList := rfl
@[simp] theorem freeEntry_domains (i : Nat) : (freeEntry i s).domains = s.domains := rfl
@[simp] theorem freeEntry_grants (i : Nat) : (freeEntry i s).grants = s.grants := rfl
@[simp] theorem freeEntry_grantSerial (i : Nat) : (freeEntry i s).grantSerial = s.grantSerial := rfl
@[simp] theorem freeEntry_requests (i : Nat) : (freeEntry i s).requests = s.requests := rfl
@[simp] theorem freeEntry_running (i : Nat) : (freeEntry i s).running = s.running := rfl
@[simp] theorem freeEntry_results (i : Nat) : (freeEntry i s).results = s.results := rfl
@[simp] theorem freeEntry_channels (i : Nat) : (freeEntry i s).channels = s.channels := rfl
@[simp] theorem freeEntry_warm (i : Nat) : (freeEntry i s).warm = s.warm := rfl
@[simp] theorem freeEntry_units (i : Nat) : (freeEntry i s).units = s.units := rfl
@[simp] theorem freeEntry_lastServed (i : Nat) : (freeEntry i s).lastServed = s.lastServed := rfl
@[simp] theorem freeEntry_slots (i : Nat) : (freeEntry i s).slots = s.slots := rfl
@[simp] theorem freeEntry_regions (i : Nat) : (freeEntry i s).regions = s.regions := rfl
@[simp] theorem freeEntry_freeze (i : Nat) : (freeEntry i s).freeze = s.freeze := rfl
@[simp] theorem freeEntry_log (i : Nat) : (freeEntry i s).log = s.log := rfl
@[simp] theorem freeEntry_notices (i : Nat) : (freeEntry i s).notices = s.notices := rfl
@[simp] theorem freeEntry_pending (i : Nat) : (freeEntry i s).pending = s.pending := rfl
@[simp] theorem dom_freeEntry (i : Nat) (y : Nat) : dom (freeEntry i s) y = dom s y := rfl
@[simp] theorem chan_freeEntry (i : Nat) (y : Nat) : chan (freeEntry i s) y = chan s y := rfl
@[simp] theorem slotOf_freeEntry (i : Nat) (y : Nat) : slotOf (freeEntry i s) y = slotOf s y := rfl
@[simp] theorem regionOf_freeEntry (i : Nat) (y : Nat) : regionOf (freeEntry i s) y = regionOf s y := rfl
@[simp] theorem sourceOf_freeEntry (i : Nat) (y : Nat) : sourceOf (freeEntry i s) y = sourceOf s y := rfl
@[simp] theorem resultOf_freeEntry (i : Nat) (y : Nat) : resultOf (freeEntry i s) y = resultOf s y := rfl
@[simp] theorem grantAt_freeEntry (i : Nat) (y : Nat) : grantAt (freeEntry i s) y = grantAt s y := rfl
@[simp] theorem unitOf_freeEntry (i : Nat) (y : Nat) : unitOf (freeEntry i s) y = unitOf s y := rfl
@[simp] theorem recordAt_freeEntry (i : Nat) (y : Nat) : recordAt (freeEntry i s) y = recordAt s y := rfl
@[simp] theorem findKey_freeEntry (i : Nat) (y : Nat) : findKey (freeEntry i s) y = findKey s y := rfl

/-! ### `logViolation` -/

theorem logViolation_shape (v : Violation) :
    logViolation v s = { s with log := (logViolation v s).log, notices := (logViolation v s).notices } := by
  unfold logViolation; split
  · rw [raise_shape]
  · split
    · rfl
    · rw [raise_shape]

/-! ### `fenceTest` -/

theorem fenceTest_shape (d : Nat) :
    fenceTest d s = { s with domains := (fenceTest d s).domains, notices := (fenceTest d s).notices } := by
  unfold fenceTest; dsimp only; split
  · rw [raise_shape]; rfl
  · rfl

/-! ### `countViolation` -/

theorem countViolation_shape (d a : Nat) :
    countViolation d a s = { s with
    domains := (countViolation d a s).domains
    notices := (countViolation d a s).notices } := by
  unfold countViolation; dsimp only; rw [fenceTest_shape]; rfl

/-! ### `violate` -/

theorem violate_shape (d : Nat) (w : Bool) (a : Nat) (x : Reason) (seen : Option TagRecord) :
    violate d w a x seen s = { s with
    log := (violate d w a x seen s).log
    domains := (violate d w a x seen s).domains
    notices := (violate d w a x seen s).notices } := by
  unfold violate; dsimp only; split
  · rw [countViolation_shape, logViolation_shape]
  · rw [logViolation_shape]

@[simp] theorem violate_base (d : Nat) (w : Bool) (a : Nat) (x : Reason) (seen : Option TagRecord) : (violate
    d w a x seen s).base = s.base :=
  by rw [violate_shape]
@[simp] theorem violate_requested (d : Nat) (w : Bool) (a : Nat) (x : Reason) (seen : Option TagRecord) :
    (violate d w a x seen s).requested = s.requested :=
  by rw [violate_shape]
@[simp] theorem violate_size (d : Nat) (w : Bool) (a : Nat) (x : Reason) (seen : Option TagRecord) : (violate
    d w a x seen s).size = s.size :=
  by rw [violate_shape]
@[simp] theorem violate_mode (d : Nat) (w : Bool) (a : Nat) (x : Reason) (seen : Option TagRecord) : (violate
    d w a x seen s).mode = s.mode :=
  by rw [violate_shape]
@[simp] theorem violate_cause (d : Nat) (w : Bool) (a : Nat) (x : Reason) (seen : Option TagRecord) :
    (violate d w a x seen s).cause = s.cause :=
  by rw [violate_shape]
@[simp] theorem violate_integrityMark (d : Nat) (w : Bool) (a : Nat) (x : Reason) (seen : Option TagRecord) :
    (violate d w a x seen s).integrityMark = s.integrityMark :=
  by rw [violate_shape]
@[simp] theorem violate_policy (d : Nat) (w : Bool) (a : Nat) (x : Reason) (seen : Option TagRecord) :
    (violate d w a x seen s).policy = s.policy :=
  by rw [violate_shape]
@[simp] theorem violate_faultLine (d : Nat) (w : Bool) (a : Nat) (x : Reason) (seen : Option TagRecord) :
    (violate d w a x seen s).faultLine = s.faultLine :=
  by rw [violate_shape]
@[simp] theorem violate_warnLine (d : Nat) (w : Bool) (a : Nat) (x : Reason) (seen : Option TagRecord) :
    (violate d w a x seen s).warnLine = s.warnLine :=
  by rw [violate_shape]
@[simp] theorem violate_flush (d : Nat) (w : Bool) (a : Nat) (x : Reason) (seen : Option TagRecord) :
    (violate d w a x seen s).flush = s.flush :=
  by rw [violate_shape]
@[simp] theorem violate_tagBase (d : Nat) (w : Bool) (a : Nat) (x : Reason) (seen : Option TagRecord) :
    (violate d w a x seen s).tagBase = s.tagBase :=
  by rw [violate_shape]
@[simp] theorem violate_progress (d : Nat) (w : Bool) (a : Nat) (x : Reason) (seen : Option TagRecord) :
    (violate d w a x seen s).progress = s.progress :=
  by rw [violate_shape]
@[simp] theorem violate_upLink (d : Nat) (w : Bool) (a : Nat) (x : Reason) (seen : Option TagRecord) :
    (violate d w a x seen s).upLink = s.upLink :=
  by rw [violate_shape]
@[simp] theorem violate_tagsInUse (d : Nat) (w : Bool) (a : Nat) (x : Reason) (seen : Option TagRecord) :
    (violate d w a x seen s).tagsInUse = s.tagsInUse :=
  by rw [violate_shape]
@[simp] theorem violate_completions (d : Nat) (w : Bool) (a : Nat) (x : Reason) (seen : Option TagRecord) :
    (violate d w a x seen s).completions = s.completions :=
  by rw [violate_shape]
@[simp] theorem violate_noticeSlot (d : Nat) (w : Bool) (a : Nat) (x : Reason) (seen : Option TagRecord) :
    (violate d w a x seen s).noticeSlot = s.noticeSlot :=
  by rw [violate_shape]
@[simp] theorem violate_txOffered (d : Nat) (w : Bool) (a : Nat) (x : Reason) (seen : Option TagRecord) :
    (violate d w a x seen s).txOffered = s.txOffered :=
  by rw [violate_shape]
@[simp] theorem violate_txLast (d : Nat) (w : Bool) (a : Nat) (x : Reason) (seen : Option TagRecord) :
    (violate d w a x seen s).txLast = s.txLast :=
  by rw [violate_shape]
@[simp] theorem violate_downLink (d : Nat) (w : Bool) (a : Nat) (x : Reason) (seen : Option TagRecord) :
    (violate d w a x seen s).downLink = s.downLink :=
  by rw [violate_shape]
@[simp] theorem violate_outstanding (d : Nat) (w : Bool) (a : Nat) (x : Reason) (seen : Option TagRecord) :
    (violate d w a x seen s).outstanding = s.outstanding :=
  by rw [violate_shape]
@[simp] theorem violate_heldTags (d : Nat) (w : Bool) (a : Nat) (x : Reason) (seen : Option TagRecord) :
    (violate d w a x seen s).heldTags = s.heldTags :=
  by rw [violate_shape]
@[simp] theorem violate_tagWaits (d : Nat) (w : Bool) (a : Nat) (x : Reason) (seen : Option TagRecord) :
    (violate d w a x seen s).tagWaits = s.tagWaits :=
  by rw [violate_shape]
@[simp] theorem violate_produced (d : Nat) (w : Bool) (a : Nat) (x : Reason) (seen : Option TagRecord) :
    (violate d w a x seen s).produced = s.produced :=
  by rw [violate_shape]
@[simp] theorem violate_offers (d : Nat) (w : Bool) (a : Nat) (x : Reason) (seen : Option TagRecord) :
    (violate d w a x seen s).offers = s.offers :=
  by rw [violate_shape]
@[simp] theorem violate_downOffered (d : Nat) (w : Bool) (a : Nat) (x : Reason) (seen : Option TagRecord) :
    (violate d w a x seen s).downOffered = s.downOffered :=
  by rw [violate_shape]
@[simp] theorem violate_lastClass (d : Nat) (w : Bool) (a : Nat) (x : Reason) (seen : Option TagRecord) :
    (violate d w a x seen s).lastClass = s.lastClass :=
  by rw [violate_shape]
@[simp] theorem violate_stage (d : Nat) (w : Bool) (a : Nat) (x : Reason) (seen : Option TagRecord) :
    (violate d w a x seen s).stage = s.stage :=
  by rw [violate_shape]
@[simp] theorem violate_inFlight (d : Nat) (w : Bool) (a : Nat) (x : Reason) (seen : Option TagRecord) :
    (violate d w a x seen s).inFlight = s.inFlight :=
  by rw [violate_shape]
@[simp] theorem violate_drains (d : Nat) (w : Bool) (a : Nat) (x : Reason) (seen : Option TagRecord) :
    (violate d w a x seen s).drains = s.drains :=
  by rw [violate_shape]
@[simp] theorem violate_ways (d : Nat) (w : Bool) (a : Nat) (x : Reason) (seen : Option TagRecord) : (violate
    d w a x seen s).ways = s.ways :=
  by rw [violate_shape]
@[simp] theorem violate_lru (d : Nat) (w : Bool) (a : Nat) (x : Reason) (seen : Option TagRecord) : (violate
    d w a x seen s).lru = s.lru :=
  by rw [violate_shape]
@[simp] theorem violate_fills (d : Nat) (w : Bool) (a : Nat) (x : Reason) (seen : Option TagRecord) :
    (violate d w a x seen s).fills = s.fills :=
  by rw [violate_shape]
@[simp] theorem violate_fillWaits (d : Nat) (w : Bool) (a : Nat) (x : Reason) (seen : Option TagRecord) :
    (violate d w a x seen s).fillWaits = s.fillWaits :=
  by rw [violate_shape]
@[simp] theorem violate_fillSerial (d : Nat) (w : Bool) (a : Nat) (x : Reason) (seen : Option TagRecord) :
    (violate d w a x seen s).fillSerial = s.fillSerial :=
  by rw [violate_shape]
@[simp] theorem violate_missQueue (d : Nat) (w : Bool) (a : Nat) (x : Reason) (seen : Option TagRecord) :
    (violate d w a x seen s).missQueue = s.missQueue :=
  by rw [violate_shape]
@[simp] theorem violate_poisonings (d : Nat) (w : Bool) (a : Nat) (x : Reason) (seen : Option TagRecord) :
    (violate d w a x seen s).poisonings = s.poisonings :=
  by rw [violate_shape]
@[simp] theorem violate_corrected (d : Nat) (w : Bool) (a : Nat) (x : Reason) (seen : Option TagRecord) :
    (violate d w a x seen s).corrected = s.corrected :=
  by rw [violate_shape]
@[simp] theorem violate_correctedLimit (d : Nat) (w : Bool) (a : Nat) (x : Reason) (seen : Option TagRecord)
    : (violate d w a x seen s).correctedLimit = s.correctedLimit :=
  by rw [violate_shape]
@[simp] theorem violate_firstCorrected (d : Nat) (w : Bool) (a : Nat) (x : Reason) (seen : Option TagRecord)
    : (violate d w a x seen s).firstCorrected = s.firstCorrected :=
  by rw [violate_shape]
@[simp] theorem violate_hold (d : Nat) (w : Bool) (a : Nat) (x : Reason) (seen : Option TagRecord) : (violate
    d w a x seen s).hold = s.hold :=
  by rw [violate_shape]
@[simp] theorem violate_poisonList (d : Nat) (w : Bool) (a : Nat) (x : Reason) (seen : Option TagRecord) :
    (violate d w a x seen s).poisonList = s.poisonList :=
  by rw [violate_shape]
@[simp] theorem violate_grants (d : Nat) (w : Bool) (a : Nat) (x : Reason) (seen : Option TagRecord) :
    (violate d w a x seen s).grants = s.grants :=
  by rw [violate_shape]
@[simp] theorem violate_grantSerial (d : Nat) (w : Bool) (a : Nat) (x : Reason) (seen : Option TagRecord) :
    (violate d w a x seen s).grantSerial = s.grantSerial :=
  by rw [violate_shape]
@[simp] theorem violate_requests (d : Nat) (w : Bool) (a : Nat) (x : Reason) (seen : Option TagRecord) :
    (violate d w a x seen s).requests = s.requests :=
  by rw [violate_shape]
@[simp] theorem violate_running (d : Nat) (w : Bool) (a : Nat) (x : Reason) (seen : Option TagRecord) :
    (violate d w a x seen s).running = s.running :=
  by rw [violate_shape]
@[simp] theorem violate_results (d : Nat) (w : Bool) (a : Nat) (x : Reason) (seen : Option TagRecord) :
    (violate d w a x seen s).results = s.results :=
  by rw [violate_shape]
@[simp] theorem violate_channels (d : Nat) (w : Bool) (a : Nat) (x : Reason) (seen : Option TagRecord) :
    (violate d w a x seen s).channels = s.channels :=
  by rw [violate_shape]
@[simp] theorem violate_warm (d : Nat) (w : Bool) (a : Nat) (x : Reason) (seen : Option TagRecord) : (violate
    d w a x seen s).warm = s.warm :=
  by rw [violate_shape]
@[simp] theorem violate_units (d : Nat) (w : Bool) (a : Nat) (x : Reason) (seen : Option TagRecord) :
    (violate d w a x seen s).units = s.units :=
  by rw [violate_shape]
@[simp] theorem violate_lastServed (d : Nat) (w : Bool) (a : Nat) (x : Reason) (seen : Option TagRecord) :
    (violate d w a x seen s).lastServed = s.lastServed :=
  by rw [violate_shape]
@[simp] theorem violate_slots (d : Nat) (w : Bool) (a : Nat) (x : Reason) (seen : Option TagRecord) :
    (violate d w a x seen s).slots = s.slots :=
  by rw [violate_shape]
@[simp] theorem violate_regions (d : Nat) (w : Bool) (a : Nat) (x : Reason) (seen : Option TagRecord) :
    (violate d w a x seen s).regions = s.regions :=
  by rw [violate_shape]
@[simp] theorem violate_freeze (d : Nat) (w : Bool) (a : Nat) (x : Reason) (seen : Option TagRecord) :
    (violate d w a x seen s).freeze = s.freeze :=
  by rw [violate_shape]
@[simp] theorem violate_pending (d : Nat) (w : Bool) (a : Nat) (x : Reason) (seen : Option TagRecord) :
    (violate d w a x seen s).pending = s.pending :=
  by rw [violate_shape]
@[simp] theorem chan_violate (d : Nat) (w : Bool) (a : Nat) (x : Reason) (seen : Option TagRecord) (y : Nat)
    : chan (violate d w a x seen s) y = chan s y :=
  by rw [violate_shape]; rfl
@[simp] theorem slotOf_violate (d : Nat) (w : Bool) (a : Nat) (x : Reason) (seen : Option TagRecord) (y :
    Nat) : slotOf (violate d w a x seen s) y = slotOf s y :=
  by rw [violate_shape]; rfl
@[simp] theorem regionOf_violate (d : Nat) (w : Bool) (a : Nat) (x : Reason) (seen : Option TagRecord) (y :
    Nat) : regionOf (violate d w a x seen s) y = regionOf s y :=
  by rw [violate_shape]; rfl
@[simp] theorem resultOf_violate (d : Nat) (w : Bool) (a : Nat) (x : Reason) (seen : Option TagRecord) (y :
    Nat) : resultOf (violate d w a x seen s) y = resultOf s y :=
  by rw [violate_shape]; rfl
@[simp] theorem grantAt_violate (d : Nat) (w : Bool) (a : Nat) (x : Reason) (seen : Option TagRecord) (y :
    Nat) : grantAt (violate d w a x seen s) y = grantAt s y :=
  by rw [violate_shape]; rfl
@[simp] theorem unitOf_violate (d : Nat) (w : Bool) (a : Nat) (x : Reason) (seen : Option TagRecord) (y :
    Nat) : unitOf (violate d w a x seen s) y = unitOf s y :=
  by rw [violate_shape]; rfl
@[simp] theorem recordAt_violate (d : Nat) (w : Bool) (a : Nat) (x : Reason) (seen : Option TagRecord) (y :
    Nat) : recordAt (violate d w a x seen s) y = recordAt s y :=
  by rw [violate_shape]; rfl
@[simp] theorem findKey_violate (d : Nat) (w : Bool) (a : Nat) (x : Reason) (seen : Option TagRecord) (y :
    Nat) : findKey (violate d w a x seen s) y = findKey s y :=
  by rw [violate_shape]; rfl

end Sys2Proof.Machine
end

