-- ==== Sys2Proof/Laws/Loop.lean ====
section
/-!
SUPPORT. What goes on inside a step (assumption 4): what can go on depends on a few fields only, and a chain of
single steps that ends where nothing can go on is what `settle` does.
-/

namespace Sys2Proof.Machine

/-! ### What can go on -/

/-- The part of a channel that says what it can go on with. -/
def sameDuty (x y : Channel) : Prop := x.active = y.active ∧ x.undo = y.undo ∧ x.retake = y.retake

theorem channelJob_congr {s t : State} {c : Nat} (h : sameDuty (chan t c) (chan s c)) :
    channelJob t c = channelJob s c := by
  obtain ⟨h1, h2, h3⟩ := h
  unfold channelJob; dsimp only; rw [h1, h2, h3]

/-- What goes on outside the channels depends on these five fields. -/
structure SameRest (s t : State) : Prop where
  running    : t.running = s.running
  requests   : t.requests = s.requests
  warm       : t.warm = s.warm
  flush      : t.flush = s.flush
  poisonings : t.poisonings = s.poisonings

theorem SameRest.refl (s : State) : SameRest s s := ⟨rfl, rfl, rfl, rfl, rfl⟩

theorem SameRest.trans {s t u : State} (h : SameRest s t) (h' : SameRest t u) : SameRest s u :=
  ⟨h'.1.trans h.1, h'.2.trans h.2, h'.3.trans h.3, h'.4.trans h.4, h'.5.trans h.5⟩

theorem restJob_congr {s t : State} (h : SameRest s t) : restJob t = restJob s := by
  have hu : unknownHead t = unknownHead s := by
    unfold unknownHead headRequest canStartRequest warned
    rw [h.running, h.requests, h.warm, h.flush]
  have hr : revocationRuns t = revocationRuns s := by unfold revocationRuns; rw [h.warm]
  unfold restJob
  rw [hu, hr, h.running, h.poisonings]

theorem Quiet.restJob {s : State} (hq : Quiet s) : restJob s = none := by
  unfold Quiet nextJob at hq; exact (Option.or_eq_none_iff.mp hq).2

theorem nextJob_congr {s t : State} (hc : ∀ c, c < 4 → sameDuty (chan t c) (chan s c)) (h : SameRest s t) :
    nextJob t = nextJob s := by
  unfold nextJob
  rw [restJob_congr h]
  simp only [channelNumbers, List.findSome?_cons, List.findSome?_nil]
  rw [channelJob_congr (hc 0 (by omega)), channelJob_congr (hc 1 (by omega)), channelJob_congr (hc 2 (by omega)),
    channelJob_congr (hc 3 (by omega))]

/-- A state that differs from a quiet one in nothing that goes on is quiet. -/
theorem Quiet.congr {s t : State} (hq : Quiet s) (hc : ∀ c, c < 4 → sameDuty (chan t c) (chan s c))
    (h : SameRest s t) : Quiet t := (nextJob_congr hc h).trans hq

theorem Quiet.channelJob {s : State} (hq : Quiet s) {c : Nat} (hc : c < 4) : channelJob s c = none := by
  unfold Quiet nextJob at hq
  rw [Option.or_eq_none_iff] at hq
  have h := hq.1
  simp only [channelNumbers, List.findSome?_eq_none_iff] at h
  apply h; simp; omega

/-- A channel of a quiet state has no mark to take again. -/
theorem Quiet.retake {s : State} (hq : Quiet s) {c : Nat} (hc : c < 4) : (chan s c).retake = false := by
  have h := hq.channelJob hc
  unfold Machine.channelJob at h; dsimp only at h
  split at h
  · cases h
  · split at h
    · cases h
    · split at h
      · cases h
      · rename_i hr; simpa using hr

/-- If a state differs from a quiet one in what channel c can do only, channel c goes on. -/
theorem nextJob_channel {s t : State} (hq : Quiet s) {c : Nat} (hc : c < 4)
    (ho : ∀ x, x ≠ c → sameDuty (chan t x) (chan s x)) (h : SameRest s t) : nextJob t = channelJob t c := by
  have hrest : Machine.restJob t = none := (restJob_congr h).trans hq.restJob
  have hx : ∀ x, x < 4 → x ≠ c → channelJob t x = none := fun x h4 hne =>
    (channelJob_congr (ho x hne)).trans (hq.channelJob h4)
  unfold nextJob; rw [hrest, Option.or_none]
  simp only [channelNumbers, List.findSome?_cons, List.findSome?_nil]
  have h0 := hx 0 (by omega); have h1 := hx 1 (by omega); have h2 := hx 2 (by omega); have h3 := hx 3 (by omega)
  have : c = 0 ∨ c = 1 ∨ c = 2 ∨ c = 3 := by omega
  rcases this with rfl | rfl | rfl | rfl
  · rw [h1 (by omega), h2 (by omega), h3 (by omega)]; cases channelJob t 0 <;> rfl
  · rw [h0 (by omega), h2 (by omega), h3 (by omega)]; cases channelJob t 1 <;> rfl
  · rw [h0 (by omega), h1 (by omega), h3 (by omega)]; cases channelJob t 2 <;> rfl
  · rw [h0 (by omega), h1 (by omega), h2 (by omega)]; cases channelJob t 3 <;> rfl

theorem channelJob_command {s : State} {c : Nat} {a : Active} (h : (chan s c).active = some a)
    (hw : a.wait = .running) : channelJob s c = some (.command c) := by
  simp [channelJob, h, hw, waitOver]

theorem channelJob_retake {s : State} {c : Nat} (h : (chan s c).active = none) (hu : (chan s c).undo = none)
    (hr : (chan s c).retake = true) : channelJob s c = some (.retake c) := by
  simp [channelJob, h, hu, hr]

/-- The step of a command that no fill has resumed begins as the state stands. -/
theorem stepBegins_running (c : Nat) {a : Active} (s : State) (h : a.wait = .running) : stepBegins c a s = s := by
  unfold stepBegins; rw [h]

theorem channelJob_none {s : State} {c : Nat} (h : ∀ a, (chan s c).active = some a → waitOver a.wait = false)
    (hu : ∀ u, (chan s c).undo = some u → waitOver u.wait = false) (hr : (chan s c).retake = false) :
    channelJob s c = none := by
  unfold channelJob; dsimp only
  rw [if_neg, if_neg, if_neg]
  · simp [hr]
  · cases hx : (chan s c).undo with
    | none => simp
    | some u => simpa using hu u hx
  · cases hx : (chan s c).active with
    | none => simp
    | some a => simpa using h a hx

/-! ### Chains of single steps -/

/-- In n single steps the part comes to a state where nothing can go on. -/
inductive ComesTo : Nat → State → State → Prop where
  | here {s : State} (h : Quiet s) : ComesTo 0 s s
  | next {n : Nat} {s t : State} {j : Job} (h : nextJob s = some j) (h' : ComesTo n (runJob j s) t) :
      ComesTo (n + 1) s t

theorem ComesTo.runLoop {n : Nat} {s t : State} (h : ComesTo n s t) (m : Nat) : runLoop (n + m) s = t := by
  induction h with
  | here hq => simp [hq]
  | @next n s t j hj _ ih =>
    rw [show n + 1 + m = (n + m) + 1 by omega, runLoop_job hj]; exact ih

/-- A chain no longer than the bound is what `settle` does. -/
theorem ComesTo.settle {n : Nat} {s t : State} (h : ComesTo n s t) (hn : n ≤ Config.stepFuel) :
    settle s = t := by
  obtain ⟨m, hm⟩ := Nat.exists_eq_add_of_le hn
  unfold Machine.settle; rw [hm]; exact h.runLoop m

/-- A channel that may take again and has nothing to take clears its mark. -/
theorem retakeStep_idle {s : State} {c : Nat} (h : (chan s c).control = []) (hw : (chan s c).work = []) :
    retakeStep c s = setChan c { chan s c with retake := false } s := by
  unfold retakeStep
  rw [show takeable c s = none by simp [takeable, h, hw]]

/-! ### Ends of work commands -/

/-- A command that ends outside a warm reset responds and lets its channel take again (R170). -/
theorem completeWork_eq {s : State} {c : Nat} {a : Active} (ha : (chan s c).active = some a) (hw : s.warm = none)
    (r : Result) (p : Report) :
    completeWork c r p s =
      setChan c { chan s c with
        active := none, stop := false, claim := none, reserved := (chan s c).reserved - 1
        ready := (chan s c).ready ++ [mkResponse a.block c r p], retake := true }
        (respond c a.block r p (setChan c { chan s c with active := none, stop := false, claim := none } s)) := by
  unfold completeWork; rw [ha]; dsimp only; rw [hw]; dsimp only
  rw [chan_respond]; simp

theorem chan_completeWork {s : State} {c : Nat} {a : Active} (ha : (chan s c).active = some a) (hw : s.warm = none)
    (r : Result) (p : Report) (x : Nat) :
    chan (completeWork c r p s) x =
      if x = c then { chan s c with
        active := none, stop := false, claim := none, reserved := (chan s c).reserved - 1
        ready := (chan s c).ready ++ [mkResponse a.block c r p], retake := true }
      else chan s x := by
  rw [completeWork_eq ha hw, chan_setChan]; split
  · rfl
  · rename_i hx; rw [chan_respond, if_neg hx, chan_setChan, if_neg hx]

theorem warm_completeWork {s : State} (hw : s.warm = none) (c : Nat) (r : Result) (p : Report) :
    (completeWork c r p s).warm = none := by
  unfold completeWork; split
  · exact hw
  · dsimp only; rw [hw]; simp [hw]

theorem sourceOf_completeWork {s : State} {c : Nat} {a : Active} (ha : (chan s c).active = some a)
    (hw : s.warm = none) (r : Result) (p : Report) :
    (sourceOf (completeWork c r p s) (7 + c)).pending = true ∧
      ∀ x, x ≠ 7 + c → sourceOf (completeWork c r p s) x = sourceOf s x := by
  rw [completeWork_eq ha hw]
  exact ⟨sourceOf_respond_same _ _ _ _ _, fun x hx => by
    rw [sourceOf_setChan, sourceOf_respond_ne _ _ _ _ _ hx, sourceOf_setChan]⟩

/-- A command that has ended, with nothing left to take on its channel, leaves a quiet part in one more step. -/
theorem comesTo_completed {s t : State} {c : Nat} {a : Active} (hq : Quiet s) (hc : c < 4)
    (ha : (chan t c).active = some a) (hw : t.warm = none) (r : Result) (p : Report)
    (hctl : (chan t c).control = []) (hwork : (chan t c).work = []) (hu : (chan t c).undo = none)
    (ho : ∀ x, x ≠ c → sameDuty (chan t x) (chan s x)) (h : SameRest s t) :
    ComesTo 1 (completeWork c r p t)
      (setChan c { chan (completeWork c r p t) c with retake := false } (completeWork c r p t)) := by
  have hcc := chan_completeWork ha hw r p
  have hS : SameRest s (completeWork c r p t) := h.trans
    ⟨by simp, by simp, by rw [warm_completeWork hw, hw], by simp, by simp⟩
  have hO : ∀ x, x ≠ c → sameDuty (chan (completeWork c r p t) x) (chan s x) := by
    intro x hx; rw [hcc, if_neg hx]; exact ho x hx
  refine .next (j := .retake c) ?_ ?_
  · rw [nextJob_channel hq hc hO hS]
    apply channelJob_retake <;> rw [hcc, if_pos rfl]
    exact hu
  · have hstep : runJob (.retake c) (completeWork c r p t) =
        setChan c { chan (completeWork c r p t) c with retake := false } (completeWork c r p t) := by
      show retakeStep c _ = _
      apply retakeStep_idle <;> rw [hcc, if_pos rfl]
      · exact hctl
      · exact hwork
    rw [hstep]
    apply ComesTo.here
    refine (nextJob_channel hq hc ?_ ?_).trans ?_
    · intro x hx; rw [chan_setChan, if_neg hx]; exact hO x hx
    · exact hS.trans ⟨rfl, rfl, rfl, rfl, rfl⟩
    · apply channelJob_none <;> rw [chan_setChan, if_pos rfl]
      · simp [hcc]
      · simp [hcc, hu]

end Sys2Proof.Machine
end

