-- ==== Sys2Proof/Laws/Records.lean ====
section
/-!
SUPPORT. The current records of cached lines (R40 to R42), the lookup of a command step (R51) and the tables that
its changes reach: grants (R134), owned counts and drains (R85).
-/

namespace Sys2Proof.Machine

variable {s : State}

/-! ### Lookups -/

/-- The way that holds a line is valid and of that line (R40). -/
theorem findKey_some {line k : Nat} (h : findKey s line = some k) :
    ∃ w, tblGet s.ways k = some w ∧ w.line = line := by
  unfold findKey at h
  have h' := List.find?_some h
  cases hw : tblGet s.ways k with
  | none => rw [hw] at h'; cases h'
  | some w => rw [hw] at h'; exact ⟨w, rfl, by simpa using h'⟩

theorem recordAt_some {g : Nat} {r : TagRecord} (h : recordAt s g = some r) :
    ∃ k w, findKey s (tagLineOf g) = some k ∧ tblGet s.ways k = some w ∧ w.line = tagLineOf g ∧
      r = quadGet w.records (slotInLine g) := by
  unfold recordAt at h
  cases hk : findKey s (tagLineOf g) with
  | none => rw [hk] at h; cases h
  | some k =>
    obtain ⟨w, hw, hl⟩ := findKey_some hk
    rw [hk] at h; dsimp only at h; rw [hw] at h
    exact ⟨k, w, rfl, hw, hl, by simpa using h.symm⟩

/-- A hit gives the record, the way having moved in its set's order and nothing else having changed (R41). -/
theorem lookup_hit {g : Nat} {r : TagRecord} (h : recordAt s g = some r) :
    ∃ k, lookup g s = some (r, touch k s) := by
  obtain ⟨k, w, hk, _, _, _⟩ := recordAt_some h
  exact ⟨k, by unfold lookup; rw [hk, h]⟩

theorem lookup_miss {g : Nat} (h : recordAt s g = none) : lookup g s = none := by
  unfold lookup; rw [h]; cases findKey s (tagLineOf g) <;> rfl

theorem withRecord_hit {c g : Nat} {r : TagRecord} {f : TagRecord → State → State} (h : recordAt s g = some r) :
    ∃ k, withRecord c g f s = f r (touch k s) := by
  obtain ⟨k, hk⟩ := lookup_hit h
  exact ⟨k, by unfold withRecord; rw [hk]⟩

theorem withRecord_miss {c g : Nat} {f : TagRecord → State → State} (h : recordAt s g = none) :
    withRecord c g f s = joinFill (tagLineOf g) (goWait c (.fill (tagLineOf g)) s) := by
  unfold withRecord; rw [lookup_miss h]

/-! ### A record's change (R42) -/

theorem slot_ne {g g' : Nat} (hl : tagLineOf g' = tagLineOf g) (h : g' ≠ g) : slotInLine g' ≠ slotInLine g := by
  unfold tagLineOf at hl; unfold slotInLine; omega

theorem quadGet_quadSet_same (q : Quad) {i : Nat} (hi : i < 4) (r : TagRecord) : quadGet (quadSet q i r) i = r := by
  have : i = 0 ∨ i = 1 ∨ i = 2 ∨ i = 3 := by omega
  rcases this with rfl | rfl | rfl | rfl <;> rfl

theorem quadGet_quadSet_ne (q : Quad) {i j : Nat} (hi : i < 4) (hj : j < 4) (h : j ≠ i) (r : TagRecord) :
    quadGet (quadSet q i r) j = quadGet q j := by
  have hi' : i = 0 ∨ i = 1 ∨ i = 2 ∨ i = 3 := by omega
  have hj' : j = 0 ∨ j = 1 ∨ j = 2 ∨ j = 3 := by omega
  rcases hi' with rfl | rfl | rfl | rfl <;> rcases hj' with rfl | rfl | rfl | rfl <;>
    first
    | rfl
    | exact absurd rfl h

theorem putRecord_ways {g : Nat} {r r' : TagRecord} (h : recordAt s g = some r) :
    ∃ k w, findKey s (tagLineOf g) = some k ∧ tblGet s.ways k = some w ∧ w.line = tagLineOf g ∧
      (putRecord g r' s).ways =
        tblPut s.ways k { w with records := quadSet w.records (slotInLine g) r', dirty := true } := by
  obtain ⟨k, w, hk, hw, hl, _⟩ := recordAt_some h
  exact ⟨k, w, hk, hw, hl, by unfold putRecord; rw [hk]; dsimp only; rw [hw]⟩

/-- A record's change moves no line to another way. -/
@[simp] theorem findKey_putRecord (g : Nat) (r : TagRecord) (line : Nat) :
    findKey (putRecord g r s) line = findKey s line := by
  unfold putRecord
  cases hk : findKey s (tagLineOf g) with
  | none => rfl
  | some k =>
    obtain ⟨w, hw, hl⟩ := findKey_some hk
    dsimp only; rw [hw]; dsimp only
    unfold findKey
    congr 1; funext x; dsimp only
    by_cases hx : x = k
    · subst hx; rw [tblGet_tblPut_same, hw]
    · rw [tblGet_tblPut_ne _ _ hx]

/-- The changed record is the new one and every other record stands (R42). -/
theorem recordNow_putRecord {g : Nat} {r r' : TagRecord} (h : recordAt s g = some r) :
    RecordNow g r' s (putRecord g r' s) := by
  obtain ⟨k, w, hk, hw, hl, hp⟩ := putRecord_ways (r' := r') h
  have h4 : ∀ x, slotInLine x < 4 := fun x => by unfold slotInLine; omega
  refine ⟨?_, ?_⟩
  · unfold recordAt; rw [findKey_putRecord, hk]; dsimp only
    rw [hp, tblGet_tblPut_same]; simp [quadGet_quadSet_same _ (h4 g)]
  · intro g' hg
    unfold recordAt; rw [findKey_putRecord]
    cases hk' : findKey s (tagLineOf g') with
    | none => rfl
    | some k' =>
      obtain ⟨w', hw', hl'⟩ := findKey_some hk'
      dsimp only; rw [hp]
      by_cases hkk : k' = k
      · subst hkk
        rw [hw] at hw'; cases hw'
        rw [tblGet_tblPut_same, hw]
        simp [quadGet_quadSet_ne _ (h4 g) (h4 g') (slot_ne (hl'.symm.trans hl) hg)]
      · rw [tblGet_tblPut_ne _ _ hkk]

theorem RecordNow.trans {g : Nat} {r r' : TagRecord} {t u : State} (h : RecordNow g r s t)
    (h' : RecordNow g r' t u) : RecordNow g r' s u :=
  ⟨h'.1, fun x hx => (h'.2 x hx).trans (h.2 x hx)⟩

/-- What a record's change is does not depend on fields other than the ways. -/
theorem RecordNow.congr {g : Nat} {r : TagRecord} {s' t t' : State} (h : RecordNow g r s t) (hs : s'.ways = s.ways)
    (ht : t'.ways = t.ways) : RecordNow g r s' t' := by
  have e : ∀ {a b : State} (_ : a.ways = b.ways) (x : Nat), recordAt a x = recordAt b x := by
    intro a b hab x; unfold recordAt findKey; rw [hab]
  exact ⟨(e ht g).trans h.1, fun x hx => (e ht x).trans ((h.2 x hx).trans (e hs x).symm)⟩

theorem recordAt_congr {s t : State} (h : t.ways = s.ways) (x : Nat) : recordAt t x = recordAt s x := by
  unfold recordAt findKey; rw [h]

/-! ### Domains and grants -/

theorem domainNow_setDom (d : Nat) (e : Domain) : DomainNow d e s (setDom d e s) :=
  ⟨dom_setDom_same _ _ _, fun x hx => by rw [dom_setDom, if_neg hx]⟩

theorem dom_congr {s t : State} (h : t.domains = s.domains) (x : Nat) : dom t x = dom s x := by
  unfold dom; rw [h]

/-- Removing an entry frees its index and leaves every other entry (R134). -/
theorem grantAt_dropGrant {i : Nat} {g : Grant} (h : grantAt s i = some g) (x : Nat) :
    grantAt (dropGrant i s) x = if x = i then none else grantAt s x := by
  unfold dropGrant; rw [h]
  exact tblGet_tblDel s.grants i x

/-- Removing an entry lowers its owner's grants given and its grantee's grants held (R99). -/
theorem dom_dropGrant {i : Nat} {g : Grant} (h : grantAt s i = some g) (hne : g.owner ≠ g.grantee) (x : Nat) :
    dom (dropGrant i s) x =
      if x = g.grantee then { dom s x with held := (dom s x).held - 1 }
      else if x = g.owner then { dom s x with given := (dom s x).given - 1 }
      else dom s x := by
  unfold dropGrant; rw [h]; dsimp only
  rw [dom_setDom]
  by_cases hx : x = g.grantee
  · subst hx
    rw [if_pos rfl, if_pos rfl, dom_setDom, if_neg (Ne.symm hne)]; rfl
  · rw [if_neg hx, if_neg hx, dom_setDom]
    by_cases ho : x = g.owner
    · subst ho; rw [if_pos rfl, if_pos rfl]; rfl
    · rw [if_neg ho, if_neg ho]; rfl

/-- What the removal step leaves of the grants and domains (R136). -/
theorem grantAt_removeGrant {i : Nat} {g : Grant} (r : TagRecord) (h : grantAt s i = some g) (x : Nat) :
    grantAt (removeGrant i g r s) x = if x = i then none else grantAt s x := by
  unfold removeGrant
  rw [grantAt_dropGrant (g := g) (by rw [grantAt_putRecord]; exact h), grantAt_putRecord]

theorem dom_removeGrant {i : Nat} {g : Grant} (r : TagRecord) (h : grantAt s i = some g)
    (hne : g.owner ≠ g.grantee) (x : Nat) :
    dom (removeGrant i g r s) x =
      if x = g.grantee then { dom s x with held := (dom s x).held - 1 }
      else if x = g.owner then { dom s x with given := (dom s x).given - 1 }
      else dom s x := by
  unfold removeGrant
  rw [dom_dropGrant (g := g) (by rw [grantAt_putRecord]; exact h) hne, dom_putRecord]

theorem ways_removeGrant (i : Nat) (g : Grant) (r : TagRecord) :
    (removeGrant i g r s).ways = (putRecord g.granule { r with count := r.count - 1 } s).ways := by
  unfold removeGrant; rw [dropGrant_ways]

/-- The removal step lowers the record's grant count by one (R136). -/
theorem recordNow_removeGrant {i : Nat} {g : Grant} {r : TagRecord} (h : recordAt s g.granule = some r) :
    RecordNow g.granule { r with count := r.count - 1 } s (removeGrant i g r s) :=
  (recordNow_putRecord h).congr rfl (ways_removeGrant i g r)

/-! ### Drains (R85) -/

/-- A drain that nothing matches finishes as it begins. -/
theorem beginDrain_empty {u : DrainUser} {k : DrainKey}
    (hi : ∀ p ∈ s.inFlight, keyMatches k p.2.granule p.2.domain = false)
    (hh : ∀ h, s.stage = some h → keyMatches k h.granule h.request.domain.val = false) :
    beginDrain u k s = s := by
  have hm : s.inFlight.filter (fun p => keyMatches k p.2.granule p.2.domain) = [] := by
    rw [List.filter_eq_nil_iff]; intro p hp; simp [hi p hp]
  unfold beginDrain; rw [hm]
  cases hst : s.stage with
  | none => rfl
  | some h => simp [hh h hst]

/-- A drain that something matches stands in the list. -/
theorem beginDrain_some {u : DrainUser} {k : DrainKey}
    (h : (∃ p ∈ s.inFlight, keyMatches k p.2.granule p.2.domain = true) ∨
      ∃ h, s.stage = some h ∧ keyMatches k h.granule h.request.domain.val = true) :
    ∃ d, (beginDrain u k s).drains = s.drains ++ [d] ∧ d.user = u := by
  unfold beginDrain; dsimp only
  rw [if_neg]
  · exact ⟨_, rfl, rfl⟩
  · intro hc
    rw [Bool.and_eq_true, List.isEmpty_iff, List.map_eq_nil_iff, List.filter_eq_nil_iff] at hc
    rcases h with ⟨p, hp, hk⟩ | ⟨h, hs, hk⟩
    · exact hc.1 p hp hk
    · have := hc.2; rw [hs] at this; simp [hk] at this

theorem drained_iff {u : DrainUser} : drained s u = true ↔ NoDrain u s := by
  unfold drained NoDrain; simp

theorem not_drained_of_mem {u : DrainUser} {d : Drain} (h : d ∈ s.drains) (hu : d.user = u) :
    drained s u = false := by
  unfold drained; rw [List.all_eq_false]; exact ⟨d, h, by simp [hu]⟩

end Sys2Proof.Machine
end

