-- ==== Sys2Proof/Laws/Guests.lean ====
section
/-!
SUPPORT. No step makes a guest's entry ROOT (R89 to R92): in the reset state only domain 0 is ROOT, and no
operation of the part writes ROOT.  Most operations write no domain's state or one that is neither before nor
after ROOT, and for them the two states agree on `NoGuestRoot`; RETIRE's last step writes FREE over the entry
that its work names, and what runs through it has the implication alone.
-/

namespace Sys2Proof.Machine

/-- No entry of a Domain Table but that of domain 0 holds ROOT. -/
def GuestsClean (l : Table Domain) : Prop :=
  ∀ d, d ≠ 0 → ((tblGet l d).getD (Domain.resetOf d)).state ≠ .root

/-- No guest's entry is ROOT. -/
def NoGuestRoot (s : State) : Prop := GuestsClean s.domains

/-- The words of `NoGuestRoot` through the reader of an entry. -/
theorem noGuestRoot_iff {s : State} : NoGuestRoot s ↔ ∀ d, d ≠ 0 → (dom s d).state ≠ .root := Iff.rfl

theorem guest_not_root {s : State} (h : NoGuestRoot s) : ∀ d, d ≠ 0 → (dom s d).state ≠ .root := h

/-- A table whose listed entries of guests are not ROOT is clean: an unlisted guest is FREE. -/
theorem GuestsClean.of_listed {l : Table Domain} (h : ∀ p ∈ l, p.1 ≠ 0 → p.2.state ≠ .root) : GuestsClean l := by
  intro d hd
  cases hg : tblGet l d with
  | none => simp [Domain.resetOf, hd, Domain.reset]
  | some e => exact h _ (mem_of_tblGet hg) hd

@[simp] theorem noGuestRoot_mk (x0 x1 x2 x3 x4 x5 x6 x7 x8 x9 x10 x11 x12 x13 x14 x15 x16 x17 x18 x19 x20 x21
    x22 x23 x24 x25 x26 x27 x28 x29 x30 x31 x32 x33 x34 x35 x36 x37 x38 x39 x40 x41 x42 x43 x44 x45 x46 x47
    x48 x49 x50 x51 x52 x53 x54 x55 x56) :
    NoGuestRoot (State.mk x0 x1 x2 x3 x4 x5 x6 x7 x8 x9 x10 x11 x12 x13 x14 x15 x16 x17 x18 x19 x20 x21 x22
        x23 x24 x25 x26 x27 x28 x29 x30 x31 x32 x33 x34 x35 x36 x37 x38 x39 x40 x41 x42 x43 x44 x45 x46 x47
        x48 x49 x50 x51 x52 x53 x54 x55 x56) ↔
      GuestsClean x41 := Iff.rfl

@[simp] theorem guestsClean_eta (s : State) : GuestsClean s.domains ↔ NoGuestRoot s := Iff.rfl

variable (s : State)

theorem guests_foldl {α : Type} {f : State → α → State} (h : ∀ s x, NoGuestRoot (f s x) ↔ NoGuestRoot s)
    (l : List α) : NoGuestRoot (l.foldl f s) ↔ NoGuestRoot s := by
  induction l generalizing s with
  | nil => exact Iff.rfl
  | cons x l ih => rw [List.foldl_cons, ih, h]

theorem guests_foldl_of {α : Type} {f : State → α → State} (h : ∀ s x, NoGuestRoot s → NoGuestRoot (f s x))
    (l : List α) (hs : NoGuestRoot s) : NoGuestRoot (l.foldl f s) := by
  induction l generalizing s with
  | nil => exact hs
  | cons x l ih => exact ih _ (h s x hs)

/-! ### Tables (Ops) -/

/-- An entry is written with ROOT exactly where it was ROOT. -/
theorem guests_setDom_iff {d : Nat} {e : Domain} (h : e.state = .root ↔ (dom s d).state = .root) :
    NoGuestRoot (setDom d e s) ↔ NoGuestRoot s := by
  simp only [noGuestRoot_iff, dom_setDom]
  refine forall_congr' fun x => imp_congr_right fun _ => not_congr ?_
  split
  · rename_i hx; rw [hx, h]
  · exact Iff.rfl

@[simp] theorem guests_setDom {d : Nat} {e : Domain} (h : e.state = (dom s d).state) :
    NoGuestRoot (setDom d e s) ↔ NoGuestRoot s := guests_setDom_iff s (by rw [h])

/-- An entry is written with a state other than ROOT. -/
theorem guests_setDom_of {d : Nat} {e : Domain} (h : e.state ≠ .root) (hs : NoGuestRoot s) :
    NoGuestRoot (setDom d e s) := by
  intro x hx
  have := dom_setDom s d x e
  unfold dom at this
  rw [this]
  split
  · exact h
  · exact hs x hx

@[simp] theorem guests_setChan (c : Nat) (e : Channel) : NoGuestRoot (setChan c e s) ↔ NoGuestRoot s := by
  simp [setChan]

@[simp] theorem guests_setSlot (k : Nat) (e : Slot) : NoGuestRoot (setSlot k e s) ↔ NoGuestRoot s := by
  simp [setSlot]

@[simp] theorem guests_setRegion (i : Nat) (e : Region) : NoGuestRoot (setRegion i e s) ↔ NoGuestRoot s := by
  simp [setRegion]

@[simp] theorem guests_setSource (n : Nat) (e : Source) : NoGuestRoot (setSource n e s) ↔ NoGuestRoot s := by
  simp [setSource]

@[simp] theorem guests_setResult (d : Nat) (e : LastResult) :
    NoGuestRoot (setResult d e s) ↔ NoGuestRoot s := by
  simp [setResult]

@[simp] theorem guests_setGrant (i : Nat) (g : Grant) : NoGuestRoot (setGrant i g s) ↔ NoGuestRoot s := by
  simp [setGrant]

@[simp] theorem guests_setUnit (u : Nat) (z : Zeroing) : NoGuestRoot (setUnit u z s) ↔ NoGuestRoot s := by
  simp [setUnit]

@[simp] theorem guests_idleUnit (u : Nat) : NoGuestRoot (idleUnit u s) ↔ NoGuestRoot s := by
  simp [idleUnit]

@[simp] theorem guests_mapActive (c : Nat) (f : Active → Active) :
    NoGuestRoot (mapActive c f s) ↔ NoGuestRoot s := by
  simp [mapActive]

@[simp] theorem guests_goPhase (c : Nat) (p : Phase) (w : Wait) :
    NoGuestRoot (goPhase c p w s) ↔ NoGuestRoot s := by
  simp [goPhase]

@[simp] theorem guests_goWait (c : Nat) (w : Wait) : NoGuestRoot (goWait c w s) ↔ NoGuestRoot s := by
  simp [goWait]

@[simp] theorem guests_goWork (c : Nat) (w : Work) : NoGuestRoot (goWork c w s) ↔ NoGuestRoot s := by
  simp [goWork]

@[simp] theorem guests_goEnding (c : Nat) (r : Result) : NoGuestRoot (goEnding c r s) ↔ NoGuestRoot s := by
  simp [goEnding]

@[simp] theorem guests_setClaim (c : Nat) (g : Option Nat) :
    NoGuestRoot (setClaim c g s) ↔ NoGuestRoot s := by
  simp [setClaim]

/-! ### Notices, violations and responses (Flags) -/

@[simp] theorem guests_raise (n : NoticeName) : NoGuestRoot (raise n s) ↔ NoGuestRoot s := by
  unfold raise
  dsimp only
  split <;> simp

@[simp] theorem guests_placeNotice : NoGuestRoot (placeNotice s) ↔ NoGuestRoot s := by
  unfold placeNotice
  (repeat' split) <;> simp

@[simp] theorem guests_enterCause (c : Cause) : NoGuestRoot (enterCause c s) ↔ NoGuestRoot s := by
  unfold enterCause
  (repeat' split) <;> simp

@[simp] theorem guests_logViolation (v : Violation) : NoGuestRoot (logViolation v s) ↔ NoGuestRoot s := by
  unfold logViolation
  (repeat' split) <;> simp

@[simp] theorem guests_fenceTest (d : Nat) : NoGuestRoot (fenceTest d s) ↔ NoGuestRoot s := by
  unfold fenceTest
  dsimp only
  split
  · rename_i hf
    have : (dom s d).state ≠ .root := by
      intro h
      simp [fences, h] at hf
    simp [guests_setDom_iff, this]
  · exact Iff.rfl

@[simp] theorem guests_countViolation (d address : Nat) :
    NoGuestRoot (countViolation d address s) ↔ NoGuestRoot s := by
  simp [countViolation]

@[simp] theorem guests_violate (d : Nat) (write : Bool) (address : Nat) (reason : Reason) (seen : Option
    TagRecord) :
    NoGuestRoot (violate d write address reason seen s) ↔ NoGuestRoot s := by
  unfold violate
  split <;> simp

@[simp] theorem guests_decideFor (r : Request) (status : Status) (data : Line) :
    NoGuestRoot (decideFor r status data s) ↔ NoGuestRoot s := by
  simp [decideFor]

@[simp] theorem guests_answer (r : Request) (status : Status) :
    NoGuestRoot (answer r status s) ↔ NoGuestRoot s := by
  simp [answer]

@[simp] theorem guests_pushResponse (c : Nat) (r : Response) :
    NoGuestRoot (pushResponse c r s) ↔ NoGuestRoot s := by
  simp [pushResponse]

@[simp] theorem guests_respond (c : Nat) (b : Line) (r : Result) (p : Report) :
    NoGuestRoot (respond c b r p s) ↔ NoGuestRoot s := by
  simp [respond]

@[simp] theorem guests_completeWork (c : Nat) (r : Result) (p : Report) :
    NoGuestRoot (completeWork c r p s) ↔ NoGuestRoot s := by
  unfold completeWork
  (repeat' split) <;> simp

/-! ### The downstream port -/

@[simp] theorem guests_noteIssue (tag : Nat) (job : OwnJob) :
    NoGuestRoot (noteIssue tag job s) ↔ NoGuestRoot s := by
  unfold noteIssue
  (repeat' split) <;> simp

@[simp] theorem guests_sendJob (tag : Nat) (job : OwnJob) :
    NoGuestRoot (sendJob tag job s) ↔ NoGuestRoot s := by
  simp [sendJob]

@[simp] theorem guests_produceJob (job : OwnJob) : NoGuestRoot (produceJob job s) ↔ NoGuestRoot s := by
  simp [produceJob]

@[simp] theorem guests_keepJobs (keep : OwnJob → Bool) : NoGuestRoot (keepJobs keep s) ↔ NoGuestRoot s := by
  simp [keepJobs]

@[simp] theorem guests_issueJob (job : OwnJob) : NoGuestRoot (issueJob job s) ↔ NoGuestRoot s := by
  unfold issueJob
  (repeat' split) <;> simp

@[simp] theorem guests_issueProduced (old : State) : NoGuestRoot (issueProduced old s) ↔ NoGuestRoot s := by
  simp [issueProduced, guests_foldl]

@[simp] theorem guests_grantTag (cls : ReqClass) : NoGuestRoot (grantTag cls s) ↔ NoGuestRoot s := by
  unfold grantTag
  split <;> simp

@[simp] theorem guests_withdrawOffer (tag : Nat) : NoGuestRoot (withdrawOffer tag s) ↔ NoGuestRoot s := by
  simp [withdrawOffer]

@[simp] theorem guests_retireTag (tag : Nat) : NoGuestRoot (retireTag tag s) ↔ NoGuestRoot s := by
  simp [retireTag]

@[simp] theorem guests_holdTag (tag : Nat) : NoGuestRoot (holdTag tag s) ↔ NoGuestRoot s := by
  simp [holdTag]

@[simp] theorem guests_freeHeldTag (tag : Nat) : NoGuestRoot (freeHeldTag tag s) ↔ NoGuestRoot s := by
  simp [freeHeldTag]

@[simp] theorem guests_placeOffer : NoGuestRoot (placeOffer s) ↔ NoGuestRoot s := by
  unfold placeOffer
  split <;> simp

@[simp] theorem guests_takeOffer : NoGuestRoot (takeOffer s) ↔ NoGuestRoot s := by
  unfold takeOffer
  (repeat' split) <;> simp

@[simp] theorem guests_elapse (d : Nat) : NoGuestRoot (elapse d s) ↔ NoGuestRoot s := by
  simp [elapse]

/-! ### Drains and the In-Flight Table -/

@[simp] theorem guests_beginDrain (u : DrainUser) (k : DrainKey) :
    NoGuestRoot (beginDrain u k s) ↔ NoGuestRoot s := by
  unfold beginDrain
  dsimp only
  (repeat' split) <;> simp

@[simp] theorem guests_withdrawDrains (u : DrainUser) : NoGuestRoot (withdrawDrains u s) ↔ NoGuestRoot s := by
  simp [withdrawDrains]

@[simp] theorem guests_mapDrains (f : Drain → Drain) : NoGuestRoot (mapDrains f s) ↔ NoGuestRoot s := by
  simp [mapDrains]

@[simp] theorem guests_freeEntry (i : Nat) : NoGuestRoot (freeEntry i s) ↔ NoGuestRoot s := by
  simp [freeEntry]

@[simp] theorem guests_allocate (i : Nat) (h : HeldTx) : NoGuestRoot (allocate i h s) ↔ NoGuestRoot s := by
  simp [allocate]

@[simp] theorem guests_forward (h : HeldTx) : NoGuestRoot (forward h s) ↔ NoGuestRoot s := by
  unfold forward
  split <;> simp

@[simp] theorem guests_forwardHeld : NoGuestRoot (forwardHeld s) ↔ NoGuestRoot s := by
  unfold forwardHeld
  split <;> simp

@[simp] theorem guests_completeEntry (e : InFlight) (status : Status) (data : Line) :
    NoGuestRoot (completeEntry e status data s) ↔ NoGuestRoot s := by
  unfold completeEntry
  split <;> simp

@[simp] theorem guests_inFlightCompletion (i : Nat) (status : DownStatus) (data : Line) :
    NoGuestRoot (inFlightCompletion i status data s) ↔ NoGuestRoot s := by
  unfold inFlightCompletion
  (repeat' split) <;> simp

@[simp] theorem guests_inFlightTimeout (i : Nat) : NoGuestRoot (inFlightTimeout i s) ↔ NoGuestRoot s := by
  unfold inFlightTimeout
  (repeat' split) <;> simp

/-! ### The Tag Cache and the Fill Table -/

@[simp] theorem guests_touch (key : Nat) : NoGuestRoot (touch key s) ↔ NoGuestRoot s := by
  simp [touch]

@[simp] theorem guests_putRecord (g : Nat) (r : TagRecord) :
    NoGuestRoot (putRecord g r s) ↔ NoGuestRoot s := by
  unfold putRecord
  (repeat' split) <;> simp

@[simp] theorem guests_claimFor (serial set way : Nat) :
    NoGuestRoot (claimFor serial set way s) ↔ NoGuestRoot s := by
  unfold claimFor
  dsimp only
  (repeat' split) <;> simp

@[simp] theorem guests_startFill (line : Nat) : NoGuestRoot (startFill line s) ↔ NoGuestRoot s := by
  unfold startFill
  dsimp only
  split <;> simp

@[simp] theorem guests_joinFill (line : Nat) : NoGuestRoot (joinFill line s) ↔ NoGuestRoot s := by
  unfold joinFill
  (repeat' split) <;> simp

@[simp] theorem guests_issueWriteBacks (ks : List (Nat × Nat)) :
    NoGuestRoot (issueWriteBacks ks s) ↔ NoGuestRoot s := by
  simp [issueWriteBacks, guests_foldl]

@[simp] theorem guests_writeBackMore (failed : List Nat) :
    NoGuestRoot (writeBackMore failed s) ↔ NoGuestRoot s := by
  simp [writeBackMore]

@[simp] theorem guests_dropGrant (i : Nat) : NoGuestRoot (dropGrant i s) ↔ NoGuestRoot s := by
  unfold dropGrant
  split <;> simp

@[simp] theorem guests_removeGrant (i : Nat) (g : Grant) (r : TagRecord) :
    NoGuestRoot (removeGrant i g r s) ↔ NoGuestRoot s := by
  simp [removeGrant]

@[simp] theorem guests_dropGrantsOf (g : Nat) : NoGuestRoot (dropGrantsOf g s) ↔ NoGuestRoot s := by
  simp [dropGrantsOf, guests_foldl]

@[simp] theorem guests_listPoison (g : Nat) (owner : Option Nat) (cause : PoisonCause) :
    NoGuestRoot (listPoison g owner cause s) ↔ NoGuestRoot s := by
  unfold listPoison
  (repeat' split) <;> simp

@[simp] theorem guests_poisonTables (g : Nat) (owner : Option Nat) (cause : PoisonCause) :
    NoGuestRoot (poisonTables g owner cause s) ↔ NoGuestRoot s := by
  simp [poisonTables]

@[simp] theorem guests_poisonNow (g : Nat) (cause : PoisonCause) :
    NoGuestRoot (poisonNow g cause s) ↔ NoGuestRoot s := by
  unfold poisonNow
  split <;> simp

@[simp] theorem guests_unlistPoison (g : Nat) : NoGuestRoot (unlistPoison g s) ↔ NoGuestRoot s := by
  simp [unlistPoison]

@[simp] theorem guests_countCorrected (g : Nat) : NoGuestRoot (countCorrected g s) ↔ NoGuestRoot s := by
  unfold countCorrected
  dsimp only
  split <;> simp

@[simp] theorem guests_meetHold (g : Nat) : NoGuestRoot (meetHold g s) ↔ NoGuestRoot s := by
  unfold meetHold
  split <;> simp

@[simp] theorem guests_stateLost (g : Nat) (owner : Option Nat) :
    NoGuestRoot (stateLost g owner s) ↔ NoGuestRoot s := by
  simp [stateLost]

@[simp] theorem guests_ownerLost (g : Nat) : NoGuestRoot (ownerLost g s) ↔ NoGuestRoot s := by
  simp [ownerLost]

@[simp] theorem guests_checkRecord (g : Nat) (rd : RecordRead) :
    NoGuestRoot (checkRecord g rd s).2.2 ↔ NoGuestRoot s := by
  unfold checkRecord
  split <;> simp

@[simp] theorem guests_checkLine (line : Nat) (d : RecordRead × RecordRead × RecordRead × RecordRead) :
    NoGuestRoot (checkLine line d s).2.2 ↔ NoGuestRoot s := by
  simp [checkLine]

@[simp] theorem guests_installLine (f : Fill) (way : Nat) (d : RecordRead × RecordRead × RecordRead × RecordRead) :
    NoGuestRoot (installLine f way d s) ↔ NoGuestRoot s := by
  rw [← guests_checkLine s f.line d]
  exact Iff.rfl

/-! ### Commands -/

@[simp] theorem guests_dequeue (c : Nat) : NoGuestRoot (dequeue c s) ↔ NoGuestRoot s := by
  unfold dequeue
  dsimp only
  split <;> simp

@[simp] theorem guests_activate (c : Nat) (b : Line) (w : Work) (p : Phase) (wait : Wait) :
    NoGuestRoot (activate c b w p wait s) ↔ NoGuestRoot s := by
  simp [activate]

@[simp] theorem guests_refuse (c : Nat) (b : Line) (r : Result) (p : Report) :
    NoGuestRoot (refuse c b r p s) ↔ NoGuestRoot s := by
  simp [refuse]

@[simp] theorem guests_idleSlot (k : Nat) : NoGuestRoot (idleSlot k s) ↔ NoGuestRoot s := by
  unfold idleSlot
  dsimp only
  split <;> simp

@[simp] theorem guests_cleanUp (c : Nat) (w : Work) : NoGuestRoot (cleanUp c w s) ↔ NoGuestRoot s := by
  unfold cleanUp
  dsimp only
  (repeat' split) <;> simp

@[simp] theorem guests_stopWork (c : Nat) (r : Result) : NoGuestRoot (stopWork c r s) ↔ NoGuestRoot s := by
  unfold stopWork
  split <;> simp

@[simp] theorem guests_doneWork (c : Nat) : NoGuestRoot (doneWork c s) ↔ NoGuestRoot s := by
  unfold doneWork
  split <;> simp

theorem guests_lookup {g : Nat} {r : TagRecord} {t : State} (h : lookup g s = some (r, t)) :
    NoGuestRoot t ↔ NoGuestRoot s := by
  unfold lookup at h
  split at h <;> simp at h
  rw [← h.2]
  simp

@[simp] theorem guests_withRecord_iff (c g : Nat) (k : TagRecord → State → State)
    (h : ∀ r t, NoGuestRoot (k r t) ↔ NoGuestRoot t) : NoGuestRoot (withRecord c g k s) ↔ NoGuestRoot s := by
  unfold withRecord
  split
  · rename_i hl
    rw [h, guests_lookup s hl]
  · simp

@[simp] theorem guests_withRecord (c g : Nat) (k : TagRecord → State → State)
    (h : ∀ r t, NoGuestRoot t → NoGuestRoot (k r t)) (hs : NoGuestRoot s) :
    NoGuestRoot (withRecord c g k s) := by
  unfold withRecord
  split
  · rename_i hl
    exact h _ _ ((guests_lookup s hl).mpr hs)
  · simpa using hs

/-! ### Scrub Units and poisonings -/

@[simp] theorem guests_withholdLines : NoGuestRoot (withholdLines s) ↔ NoGuestRoot s := by
  simp [withholdLines]

@[simp] theorem guests_tryEndScrub (c : Nat) : NoGuestRoot (tryEndScrub c s) ↔ NoGuestRoot s := by
  unfold tryEndScrub
  (repeat' split) <;> simp

@[simp] theorem guests_poisonMade (src : PoisonSource) : NoGuestRoot (poisonMade src s) ↔ NoGuestRoot s := by
  unfold poisonMade
  (repeat' split) <;> simp

@[simp] theorem guests_orderPoison (g : Nat) (cause : PoisonCause) (src : PoisonSource) :
    NoGuestRoot (orderPoison g cause src s) ↔ NoGuestRoot s := by
  unfold orderPoison
  split <;> simp

@[simp] theorem guests_setPoisonWait (p : PendingPoison) (w : Wait) :
    NoGuestRoot (setPoisonWait p w s) ↔ NoGuestRoot s := by
  simp [setPoisonWait]

@[simp] theorem guests_poisonStep (p : PendingPoison) : NoGuestRoot (poisonStep p s) ↔ NoGuestRoot s := by
  unfold poisonStep
  split
  · simp [guests_lookup s ‹lookup _ _ = _›]
  · split <;> simp

@[simp] theorem guests_grantUnit (u c : Nat) : NoGuestRoot (grantUnit u c s) ↔ NoGuestRoot s := by
  simp [grantUnit, guests_foldl]

@[simp] theorem guests_haltUnit (u : Nat) : NoGuestRoot (haltUnit u s) ↔ NoGuestRoot s := by
  unfold haltUnit
  split <;> simp

@[simp] theorem guests_settleUnit (u : Nat) : NoGuestRoot (settleUnit u s) ↔ NoGuestRoot s := by
  unfold settleUnit
  dsimp only
  (repeat' split) <;> simp

@[simp] theorem guests_zeroWriteEnded (u : Nat) (ok : Bool) :
    NoGuestRoot (zeroWriteEnded u ok s) ↔ NoGuestRoot s := by
  unfold zeroWriteEnded
  dsimp only
  (repeat' split) <;> simp

@[simp] theorem guests_haltUnitsOf (c : Nat) : NoGuestRoot (haltUnitsOf c s) ↔ NoGuestRoot s := by
  simp [haltUnitsOf, guests_foldl]

/-! ### Granule operations -/

@[simp] theorem guests_doAssign (c : Nat) (b : Line) : NoGuestRoot (doAssign c b s) ↔ NoGuestRoot s := by
  unfold doAssign
  dsimp only
  (repeat' split) <;> simp

@[simp] theorem guests_doRelease (c : Nat) (b : Line) : NoGuestRoot (doRelease c b s) ↔ NoGuestRoot s := by
  unfold doRelease
  dsimp only
  (repeat' split) <;> simp

@[simp] theorem guests_doRestore (c : Nat) (b : Line) : NoGuestRoot (doRestore c b s) ↔ NoGuestRoot s := by
  unfold doRestore
  split <;> simp

@[simp] theorem guests_doQueryGranules (c : Nat) (b : Line) :
    NoGuestRoot (doQueryGranules c b s) ↔ NoGuestRoot s := by
  unfold doQueryGranules
  split <;> simp

@[simp] theorem guests_revokeAllOf (d : Nat) : NoGuestRoot (revokeAllOf d s) ↔ NoGuestRoot s := by
  simp [revokeAllOf]

@[simp] theorem guests_beginClearance (c d : Nat) : NoGuestRoot (beginClearance c d s) ↔ NoGuestRoot s := by
  simp [beginClearance, guests_foldl]

@[simp] theorem guests_doRetire (c : Nat) (b : Line) (hs : NoGuestRoot s) : NoGuestRoot (doRetire c b s) := by
  unfold doRetire
  dsimp only
  (repeat' split) <;> simp [hs, guests_setDom_of]

@[simp] theorem guests_startGranuleDrain (c g : Nat) :
    NoGuestRoot (startGranuleDrain c g s) ↔ NoGuestRoot s := by
  unfold startGranuleDrain
  dsimp only
  split <;> simp

@[simp] theorem guests_nextGranule (c : Nat) (w : Work) :
    NoGuestRoot (nextGranule c w s) ↔ NoGuestRoot s := by
  simp [nextGranule]

@[simp] theorem guests_assignVisit (c d g : Nat) (keep : Bool) (r : TagRecord) :
    NoGuestRoot (assignVisit c d g keep r s) ↔ NoGuestRoot s := by
  unfold assignVisit
  split <;> simp

@[simp] theorem guests_releaseVisit (c d g : Nat) (r : TagRecord) :
    NoGuestRoot (releaseVisit c d g r s) ↔ NoGuestRoot s := by
  unfold releaseVisit
  split <;> simp

@[simp] theorem guests_restoreVisit (c g : Nat) (r : TagRecord) :
    NoGuestRoot (restoreVisit c g r s) ↔ NoGuestRoot s := by
  unfold restoreVisit
  split <;> simp

@[simp] theorem guests_dropRequestOf (d : Nat) : NoGuestRoot (dropRequestOf d s) ↔ NoGuestRoot s := by
  unfold dropRequestOf
  dsimp only
  (repeat' split) <;> simp

@[simp] theorem guests_retireComplete (c : Nat) (r : RetireWork) (left : Nat) (hs : NoGuestRoot s) :
    NoGuestRoot (retireComplete c r left s) := by
  have := guests_setDom_of s (d := r.domain) (e := Domain.reset) (by simp [Domain.reset]) hs
  simp [retireComplete, this]

@[simp] theorem guests_retireWalk (c : Nat) (r : RetireWork) :
    NoGuestRoot (retireWalk c r s) ↔ NoGuestRoot s := by
  simp [retireWalk]

@[simp] theorem guests_retireOwned (c : Nat) (r : RetireWork) (rec : TagRecord) :
    NoGuestRoot (retireOwned c r rec s) ↔ NoGuestRoot s := by
  unfold retireOwned
  dsimp only
  (repeat' split) <;> simp

@[simp] theorem guests_retireVisit (c : Nat) (r : RetireWork) (rec : TagRecord) :
    NoGuestRoot (retireVisit c r rec s) ↔ NoGuestRoot s := by
  unfold retireVisit
  split <;> simp

@[simp] theorem guests_retireStep (c : Nat) (r : RetireWork) (hs : NoGuestRoot s) :
    NoGuestRoot (retireStep c r s) := by
  unfold retireStep
  (repeat' split) <;> simp [hs]

@[simp] theorem guests_visitStep (c : Nat) (a : Active) (hs : NoGuestRoot s) :
    NoGuestRoot (visitStep c a s) := by
  unfold visitStep
  (repeat' split) <;> simp [hs]

@[simp] theorem guests_notePoisoned (c : Nat) (w : Work) (r : TagRecord) :
    NoGuestRoot (notePoisoned c w r s) ↔ NoGuestRoot s := by
  unfold notePoisoned
  (repeat' split) <;> simp

@[simp] theorem guests_ownedDown (d : Nat) : NoGuestRoot (ownedDown d s) ↔ NoGuestRoot s := by
  simp [ownedDown]

@[simp] theorem guests_finishGranule (c g : Nat) (w : Work) (r : TagRecord) :
    NoGuestRoot (finishGranule c g w r s) ↔ NoGuestRoot s := by
  unfold finishGranule
  (repeat' split) <;> simp

@[simp] theorem guests_afterDrain (c : Nat) (a : Active) (r : TagRecord) :
    NoGuestRoot (afterDrain c a r s) ↔ NoGuestRoot s := by
  unfold afterDrain
  dsimp only
  (repeat' split) <;> simp

@[simp] theorem guests_afterZero (c : Nat) (a : Active) (r : TagRecord) :
    NoGuestRoot (afterZero c a r s) ↔ NoGuestRoot s := by
  unfold afterZero
  dsimp only
  split <;> simp

@[simp] theorem guests_undoRecord (c g : Nat) (w : Work) (r : TagRecord) :
    NoGuestRoot (undoRecord c g w r s) ↔ NoGuestRoot s := by
  unfold undoRecord
  (repeat' split) <;> simp

@[simp] theorem guests_undoStep (c : Nat) (a : Active) : NoGuestRoot (undoStep c a s) ↔ NoGuestRoot s := by
  simp [undoStep]

@[simp] theorem guests_pendingUndoStep (c : Nat) (u : PendingUndo) :
    NoGuestRoot (pendingUndoStep c u s) ↔ NoGuestRoot s := by
  unfold pendingUndoStep
  split
  · simp [guests_lookup s ‹lookup _ _ = _›]
  · split <;> simp

/-! ### Tracking -/

@[simp] theorem guests_doTrackStart (c : Nat) (b : Line) : NoGuestRoot (doTrackStart c b s) ↔ NoGuestRoot s := by
  unfold doTrackStart
  dsimp only
  (repeat' split) <;> first | (simp; done) | (simp; refine (guests_setDom _ ?_).trans (guests_setSlot s _ _); rfl)

@[simp] theorem guests_trackStartDone (c k f n cleared : Nat) :
    NoGuestRoot (trackStartDone c k f n cleared s) ↔ NoGuestRoot s := by
  simp [trackStartDone]

@[simp] theorem guests_trackStartRecord (c k d f n done cleared : Nat) (r : TagRecord) :
    NoGuestRoot (trackStartRecord c k d f n done cleared r s) ↔ NoGuestRoot s := by
  unfold trackStartRecord
  dsimp only
  (repeat' split) <;> simp

@[simp] theorem guests_trackStartStep (c : Nat) (k d f n done cleared : Nat) :
    NoGuestRoot (trackStartStep c k d f n done cleared s) ↔ NoGuestRoot s := by
  unfold trackStartStep
  (repeat' split) <;> simp

@[simp] theorem guests_slotTake (k g : Nat) : NoGuestRoot (slotTake k g s) ↔ NoGuestRoot s := by
  unfold slotTake
  dsimp only
  (repeat' split) <;> simp

@[simp] theorem guests_markWrite (g : Nat) (r : TagRecord) :
    NoGuestRoot (markWrite g r s) ↔ NoGuestRoot s := by
  unfold markWrite
  (repeat' split) <;> simp

@[simp] theorem guests_doTrackCollect (c : Nat) (b : Line) :
    NoGuestRoot (doTrackCollect c b s) ↔ NoGuestRoot s := by
  unfold doTrackCollect
  dsimp only
  (repeat' split) <;> simp

@[simp] theorem guests_collectDone (c : Nat) (k : CollectWork) :
    NoGuestRoot (collectDone c k s) ↔ NoGuestRoot s := by
  simp [collectDone]

@[simp] theorem guests_startGroup (c : Nat) (k : CollectWork) :
    NoGuestRoot (startGroup c k s) ↔ NoGuestRoot s := by
  simp [startGroup]

@[simp] theorem guests_collectBuffer (c : Nat) (k : CollectWork) (r : TagRecord) :
    NoGuestRoot (collectBuffer c k r s) ↔ NoGuestRoot s := by
  unfold collectBuffer
  dsimp only
  (repeat' split) <;> simp

@[simp] theorem guests_collectRecord (c : Nat) (k : CollectWork) (g : Nat) (r : TagRecord) :
    NoGuestRoot (collectRecord c k g r s) ↔ NoGuestRoot s := by
  unfold collectRecord
  dsimp only
  split <;> simp

@[simp] theorem guests_harvestIssue (c : Nat) : NoGuestRoot (harvestIssue c s) ↔ NoGuestRoot s := by
  simp [harvestIssue]

@[simp] theorem guests_collectStep (c : Nat) (k : CollectWork) :
    NoGuestRoot (collectStep c k s) ↔ NoGuestRoot s := by
  unfold collectStep
  (repeat' split) <;> simp

@[simp] theorem guests_harvestEnded (c : Nat) (ok : Bool) :
    NoGuestRoot (harvestEnded c ok s) ↔ NoGuestRoot s := by
  unfold harvestEnded
  dsimp only
  (repeat' split) <;> simp

@[simp] theorem guests_stopCollect (c : Nat) (r : Result) :
    NoGuestRoot (stopCollect c r s) ↔ NoGuestRoot s := by
  unfold stopCollect
  dsimp only
  split <;> simp

@[simp] theorem guests_releaseSlot (k : Nat) : NoGuestRoot (releaseSlot k s) ↔ NoGuestRoot s := by
  unfold releaseSlot
  dsimp only
  split <;> simp

/-! ### Grants and guest requests -/

@[simp] theorem guests_moveGrant (i : Nat) (g : Grant) : NoGuestRoot (moveGrant i g s) ↔ NoGuestRoot s := by
  simp [moveGrant]

@[simp] theorem guests_doRevokeGrant (c : Nat) (b : Line) :
    NoGuestRoot (doRevokeGrant c b s) ↔ NoGuestRoot s := by
  unfold doRevokeGrant
  dsimp only
  (repeat' split) <;> simp

@[simp] theorem guests_revokeDone (c : Nat) (r : RevokeWork) (mine : Bool) :
    NoGuestRoot (revokeDone c r mine s) ↔ NoGuestRoot s := by
  simp [revokeDone]

@[simp] theorem guests_revokeStep (c : Nat) (r : RevokeWork) :
    NoGuestRoot (revokeStep c r s) ↔ NoGuestRoot s := by
  unfold revokeStep
  split <;> simp

@[simp] theorem guests_retireRemoval (c : Nat) (r : RetireWork) :
    NoGuestRoot (retireRemoval c r s) ↔ NoGuestRoot s := by
  unfold retireRemoval
  (repeat' split) <;> simp

@[simp] theorem guests_retireRemovalFailed (c : Nat) (r : RetireWork) :
    NoGuestRoot (retireRemovalFailed c r s) ↔ NoGuestRoot s := by
  simp [retireRemovalFailed]

@[simp] theorem guests_setRevocation (todo : List (Nat × Nat)) (drained : Bool) (w : Wait) :
    NoGuestRoot (setRevocation todo drained w s) ↔ NoGuestRoot s := by
  simp [setRevocation]

theorem guests_resumption (w : WarmReset) : NoGuestRoot (resumption w s) ↔ NoGuestRoot s := by
  unfold resumption
  dsimp only
  rw [guests_respond, guests_foldl]
  · simp
  · intro s c
    (repeat' split) <;> simp

@[simp] theorem guests_revocationStep (w : WarmReset) (todo : List (Nat × Nat)) (done : Bool) :
    NoGuestRoot (revocationStep w todo done s) ↔ NoGuestRoot s := by
  unfold revocationStep
  dsimp only
  (repeat' split) <;> first | (simp [guests_resumption]; done) | simp [guests_lookup s ‹lookup _ _ = _›]

@[simp] theorem guests_revocationFailed : NoGuestRoot (revocationFailed s) ↔ NoGuestRoot s := by
  unfold revocationFailed
  split <;> simp

@[simp] theorem guests_finishRequest (r : Result) (grant : Option Nat) (q : QueryPart) :
    NoGuestRoot (finishRequest r grant q s) ↔ NoGuestRoot s := by
  unfold finishRequest
  split <;> simp

@[simp] theorem guests_requestWait (w : Wait) : NoGuestRoot (requestWait w s) ↔ NoGuestRoot s := by
  simp [requestWait]

@[simp] theorem guests_withRequestRecord_iff (g : Nat) (k : TagRecord → State → State)
    (h : ∀ r t, NoGuestRoot (k r t) ↔ NoGuestRoot t) : NoGuestRoot (withRequestRecord g k s) ↔ NoGuestRoot s := by
  unfold withRequestRecord
  split
  · rename_i hl
    rw [h, guests_lookup s hl]
  · simp

@[simp] theorem guests_withRequestRecord (g : Nat) (k : TagRecord → State → State)
    (h : ∀ r t, NoGuestRoot t → NoGuestRoot (k r t)) (hs : NoGuestRoot s) :
    NoGuestRoot (withRequestRecord g k s) := by
  unfold withRequestRecord
  split
  · rename_i hl
    exact h _ _ ((guests_lookup s hl).mpr hs)
  · simpa using hs

@[simp] theorem guests_offerGrant (i : Nat) (x : GuestRequest) (r : TagRecord) :
    NoGuestRoot (offerGrant i x r s) ↔ NoGuestRoot s := by
  simp [offerGrant]

@[simp] theorem guests_offerStep (x : GuestRequest) (r : TagRecord) :
    NoGuestRoot (offerStep x r s) ↔ NoGuestRoot s := by
  unfold offerStep
  (repeat' split) <;> simp

@[simp] theorem guests_pinStep (x : GuestRequest) (pinned : Bool) (r : TagRecord) :
    NoGuestRoot (pinStep x pinned r s) ↔ NoGuestRoot s := by
  unfold pinStep
  (repeat' split) <;> simp

@[simp] theorem guests_queryStep (x : GuestRequest) (r : TagRecord) :
    NoGuestRoot (queryStep x r s) ↔ NoGuestRoot s := by
  unfold queryStep
  (repeat' split) <;> simp

@[simp] theorem guests_withdrawStart (x : GuestRequest) :
    NoGuestRoot (withdrawStart x s) ↔ NoGuestRoot s := by
  unfold withdrawStart
  (repeat' split) <;> simp

@[simp] theorem guests_withdrawRemoval (i serial : Nat) :
    NoGuestRoot (withdrawRemoval i serial s) ↔ NoGuestRoot s := by
  unfold withdrawRemoval
  split <;> simp

@[simp] theorem guests_requestStep : NoGuestRoot (requestStep s) ↔ NoGuestRoot s := by
  unfold requestStep
  (repeat' split) <;> simp

@[simp] theorem guests_startRequest (x : GuestRequest) : NoGuestRoot (startRequest x s) ↔ NoGuestRoot s := by
  unfold startRequest
  split <;> simp

/-! ### FORMAT and FLUSH_TAGS -/

@[simp] theorem guests_doFormat (c : Nat) (b : Line) : NoGuestRoot (doFormat c b s) ↔ NoGuestRoot s := by
  unfold doFormat
  dsimp only
  (repeat' split) <;> simp

@[simp] theorem guests_formatComplete (c : Nat) : NoGuestRoot (formatComplete c s) ↔ NoGuestRoot s := by
  simp [formatComplete]

@[simp] theorem guests_formatStep (c : Nat) (a : Active) (base next : Nat) (lowest : Option Nat) :
    NoGuestRoot (formatStep c a base next lowest s) ↔ NoGuestRoot s := by
  unfold formatStep
  dsimp only
  (repeat' split) <;> simp [guests_foldl]

@[simp] theorem guests_formatStop (c : Nat) (r : Result) :
    NoGuestRoot (formatStop c r s) ↔ NoGuestRoot s := by
  unfold formatStop
  split <;> simp

@[simp] theorem guests_formatWriteEnded (line : Nat) (ok : Bool) :
    NoGuestRoot (formatWriteEnded line ok s) ↔ NoGuestRoot s := by
  unfold formatWriteEnded
  (repeat' split) <;> simp

@[simp] theorem guests_doFlushTags (c : Nat) (b : Line) :
    NoGuestRoot (doFlushTags c b s) ↔ NoGuestRoot s := by
  simp [doFlushTags]

@[simp] theorem guests_flushStep (c : Nat) (a : Active) (x : FlushWork) :
    NoGuestRoot (flushStep c a x s) ↔ NoGuestRoot s := by
  unfold flushStep
  dsimp only
  (repeat' split) <;> simp

@[simp] theorem guests_inheritWrites (lines : List Nat) (c : Nat) :
    NoGuestRoot (inheritWrites lines s c) ↔ NoGuestRoot s := by
  unfold inheritWrites
  split <;> simp

@[simp] theorem guests_flushStop (c : Nat) (r : Result) (x : FlushWork) :
    NoGuestRoot (flushStop c r x s) ↔ NoGuestRoot s := by
  simp [flushStop, guests_foldl]

@[simp] theorem guests_flushCount (line : Nat) (ok : Bool) (c : Nat) :
    NoGuestRoot (flushCount line ok c s) ↔ NoGuestRoot s := by
  unfold flushCount
  (repeat' split) <;> simp

@[simp] theorem guests_flushEnded (line : Nat) (ok : Bool) :
    NoGuestRoot (flushEnded line ok s) ↔ NoGuestRoot s := by
  simp [flushEnded, guests_foldl]

/-! ### Control commands -/

@[simp] theorem guests_doCreate (c : Nat) (b : Line) : NoGuestRoot (doCreate c b s) ↔ NoGuestRoot s := by
  unfold doCreate
  dsimp only
  (repeat' split)
  · simp
  · simp
  · have : (dom s (wordA b)).state ≠ .root := by simp_all
    simp [guests_setDom_iff, this]

@[simp] theorem guests_moveDomain (c : Nat) (b : Line) {old new : DState} (clear : Bool) (ho : old ≠ .root)
    (hn : new ≠ .root) : NoGuestRoot (moveDomain c b old new clear s) ↔ NoGuestRoot s := by
  unfold moveDomain
  dsimp only
  split
  · simp
  · split
    · simp
    · have : (dom s (wordA b)).state ≠ .root := by simp_all
      split <;> simp [guests_setDom_iff, this, hn]

@[simp] theorem guests_doStart (c : Nat) (b : Line) : NoGuestRoot (doStart c b s) ↔ NoGuestRoot s := by
  simp [doStart]

@[simp] theorem guests_doPause (c : Nat) (b : Line) : NoGuestRoot (doPause c b s) ↔ NoGuestRoot s := by
  simp [doPause]

@[simp] theorem guests_doResume (c : Nat) (b : Line) : NoGuestRoot (doResume c b s) ↔ NoGuestRoot s := by
  simp [doResume]

@[simp] theorem guests_doUnfence (c : Nat) (b : Line) : NoGuestRoot (doUnfence c b s) ↔ NoGuestRoot s := by
  simp [doUnfence]

@[simp] theorem guests_doSetQuota (c : Nat) (b : Line) : NoGuestRoot (doSetQuota c b s) ↔ NoGuestRoot s := by
  unfold doSetQuota
  dsimp only
  (repeat' split) <;> simp

@[simp] theorem guests_doSetFence (c : Nat) (b : Line) : NoGuestRoot (doSetFence c b s) ↔ NoGuestRoot s := by
  unfold doSetFence
  dsimp only
  (repeat' split) <;> simp

@[simp] theorem guests_doClearDomainCounters (c : Nat) (b : Line) :
    NoGuestRoot (doClearDomainCounters c b s) ↔ NoGuestRoot s := by
  unfold doClearDomainCounters
  dsimp only
  split <;> simp

@[simp] theorem guests_doDomainStatus (c : Nat) (b : Line) :
    NoGuestRoot (doDomainStatus c b s) ↔ NoGuestRoot s := by
  unfold doDomainStatus
  split <;> simp

@[simp] theorem guests_doActivateGrant (c : Nat) (b : Line) :
    NoGuestRoot (doActivateGrant c b s) ↔ NoGuestRoot s := by
  unfold doActivateGrant
  dsimp only
  (repeat' split) <;> simp

@[simp] theorem guests_doGrantRead (c : Nat) (b : Line) :
    NoGuestRoot (doGrantRead c b s) ↔ NoGuestRoot s := by
  unfold doGrantRead
  dsimp only
  (repeat' split) <;> simp

@[simp] theorem guests_doTrackStop (c : Nat) (b : Line) :
    NoGuestRoot (doTrackStop c b s) ↔ NoGuestRoot s := by
  unfold doTrackStop
  dsimp only
  (repeat' split) <;> simp

@[simp] theorem guests_doTrackStatus (c : Nat) (b : Line) :
    NoGuestRoot (doTrackStatus c b s) ↔ NoGuestRoot s := by
  unfold doTrackStatus
  split <;> simp

@[simp] theorem guests_doViolationPop (c : Nat) (b : Line) :
    NoGuestRoot (doViolationPop c b s) ↔ NoGuestRoot s := by
  unfold doViolationPop
  split <;> simp

@[simp] theorem guests_doNoticeConfig (c : Nat) (b : Line) :
    NoGuestRoot (doNoticeConfig c b s) ↔ NoGuestRoot s := by
  unfold doNoticeConfig
  dsimp only
  split <;> simp

@[simp] theorem guests_doNoticeClear (c : Nat) (b : Line) :
    NoGuestRoot (doNoticeClear c b s) ↔ NoGuestRoot s := by
  unfold doNoticeClear
  dsimp only
  (repeat' split) <;> simp [guests_foldl]

@[simp] theorem guests_doNoticeStatus (c : Nat) (b : Line) :
    NoGuestRoot (doNoticeStatus c b s) ↔ NoGuestRoot s := by
  simp [doNoticeStatus]

@[simp] theorem guests_moveRegion (c : Nat) (b : Line) (new : RegionState) :
    NoGuestRoot (moveRegion c b new s) ↔ NoGuestRoot s := by
  unfold moveRegion
  dsimp only
  (repeat' split) <;> simp

@[simp] theorem guests_doRegionClear (c : Nat) (b : Line) :
    NoGuestRoot (doRegionClear c b s) ↔ NoGuestRoot s := by
  simp [doRegionClear]

@[simp] theorem guests_doRegionLockdown (c : Nat) (b : Line) :
    NoGuestRoot (doRegionLockdown c b s) ↔ NoGuestRoot s := by
  simp [doRegionLockdown]

@[simp] theorem guests_doFreeze (c : Nat) (b : Line) : NoGuestRoot (doFreeze c b s) ↔ NoGuestRoot s := by
  simp [doFreeze]

@[simp] theorem guests_doSetFaultPolicy (c : Nat) (b : Line) :
    NoGuestRoot (doSetFaultPolicy c b s) ↔ NoGuestRoot s := by
  unfold doSetFaultPolicy
  dsimp only
  (repeat' split) <;> simp

@[simp] theorem guests_doContain (c : Nat) (b : Line) : NoGuestRoot (doContain c b s) ↔ NoGuestRoot s := by
  unfold doContain
  split <;> simp

@[simp] theorem guests_doResumePart (c : Nat) (b : Line) :
    NoGuestRoot (doResumePart c b s) ↔ NoGuestRoot s := by
  unfold doResumePart
  (repeat' split) <;> simp

@[simp] theorem guests_doPartStatus (c : Nat) (b : Line) :
    NoGuestRoot (doPartStatus c b s) ↔ NoGuestRoot s := by
  simp [doPartStatus]

@[simp] theorem guests_doAckIntegrity (c : Nat) (b : Line) :
    NoGuestRoot (doAckIntegrity c b s) ↔ NoGuestRoot s := by
  simp [doAckIntegrity]

@[simp] theorem guests_doClearIntegrityCount (c : Nat) (b : Line) :
    NoGuestRoot (doClearIntegrityCount c b s) ↔ NoGuestRoot s := by
  simp [doClearIntegrityCount]

@[simp] theorem guests_doSetCorrectedLimit (c : Nat) (b : Line) :
    NoGuestRoot (doSetCorrectedLimit c b s) ↔ NoGuestRoot s := by
  unfold doSetCorrectedLimit
  dsimp only
  (repeat' split) <;> simp

@[simp] theorem guests_doPoisonRead (c : Nat) (b : Line) :
    NoGuestRoot (doPoisonRead c b s) ↔ NoGuestRoot s := by
  unfold doPoisonRead
  dsimp only
  (repeat' split) <;> simp

@[simp] theorem guests_stopCommand (c : Nat) : NoGuestRoot (stopCommand c s) ↔ NoGuestRoot s := by
  unfold stopCommand
  (repeat' split) <;> simp

@[simp] theorem guests_requestStop (c : Nat) : NoGuestRoot (requestStop c s) ↔ NoGuestRoot s := by
  unfold requestStop
  dsimp only
  split <;> simp

@[simp] theorem guests_doAbort (c : Nat) (b : Line) : NoGuestRoot (doAbort c b s) ↔ NoGuestRoot s := by
  unfold doAbort
  dsimp only
  (repeat' split) <;> simp

@[simp] theorem guests_doResetEngines (c : Nat) (b : Line) :
    NoGuestRoot (doResetEngines c b s) ↔ NoGuestRoot s := by
  simp [doResetEngines, guests_foldl]

/-! ### The engine -/

@[simp] theorem guests_doRegionSet (c : Nat) (b : Line) :
    NoGuestRoot (doRegionSet c b s) ↔ NoGuestRoot s := by
  unfold doRegionSet
  dsimp only
  split <;> simp

@[simp] theorem guests_regionVisit (c i f n : Nat) (noAccess : Bool) (done : Nat) (r : TagRecord) :
    NoGuestRoot (regionVisit c i f n noAccess done r s) ↔ NoGuestRoot s := by
  unfold regionVisit
  (repeat' split) <;> simp

@[simp] theorem guests_chanStep (c : Nat) (a : Active) (hs : NoGuestRoot s) :
    NoGuestRoot (chanStep c a s) := by
  unfold chanStep
  (repeat' split) <;> simp [hs]

@[simp] theorem guests_runCommand (cmd : Cmd) (c : Nat) (b : Line) (hs : NoGuestRoot s) :
    NoGuestRoot (runCommand cmd c b s) := by
  unfold runCommand
  split <;> simp [hs]

@[simp] theorem guests_takeCommand (cmd : Cmd) (c : Nat) (b : Line) (hs : NoGuestRoot s) :
    NoGuestRoot (takeCommand cmd c b s) := by
  unfold takeCommand
  dsimp only
  (repeat' split) <;> simp [hs]

@[simp] theorem guests_retakeStep (c : Nat) (hs : NoGuestRoot s) : NoGuestRoot (retakeStep c s) := by
  unfold retakeStep
  (repeat' split) <;> simp [hs]

@[simp] theorem guests_stepBegins (c : Nat) (a : Active) :
    NoGuestRoot (stepBegins c a s) ↔ NoGuestRoot s := by
  unfold stepBegins
  split <;> simp

@[simp] theorem guests_runJob (j : Job) (hs : NoGuestRoot s) : NoGuestRoot (runJob j s) := by
  unfold runJob
  (repeat' split) <;> simp [hs]

theorem guests_runLoop (n : Nat) (hs : NoGuestRoot s) : NoGuestRoot (runLoop n s) := by
  induction n generalizing s with
  | zero => exact hs
  | succ n ih =>
    unfold runLoop
    split
    · exact hs
    · exact ih _ (guests_runJob s _ hs)

@[simp] theorem guests_settle (hs : NoGuestRoot s) : NoGuestRoot (settle s) := guests_runLoop s _ hs

@[simp] theorem guests_placeTx : NoGuestRoot (placeTx s) ↔ NoGuestRoot s := by
  unfold placeTx
  (repeat' split) <;> simp

@[simp] theorem guests_finish : NoGuestRoot (finish s) ↔ NoGuestRoot s := by
  simp [finish]

/-! ### Ends of own requests and stages -/

@[simp] theorem guests_resumeChannel (line : Nat) (c : Nat) :
    NoGuestRoot (resumeChannel line s c) ↔ NoGuestRoot s := by
  simp [resumeChannel]

@[simp] theorem guests_resumeLine (line : Nat) : NoGuestRoot (resumeLine line s) ↔ NoGuestRoot s := by
  simp [resumeLine, guests_foldl]

@[simp] theorem guests_tryLand (serial : Nat) : NoGuestRoot (tryLand serial s) ↔ NoGuestRoot s := by
  unfold tryLand
  (repeat' split) <;> simp

@[simp] theorem guests_commandFillFailed (line : Nat) (c : Nat) :
    NoGuestRoot (commandFillFailed line s c) ↔ NoGuestRoot s := by
  unfold commandFillFailed
  (repeat' split) <;> simp

@[simp] theorem guests_undoFillFailed (line : Nat) (c : Nat) :
    NoGuestRoot (undoFillFailed line s c) ↔ NoGuestRoot s := by
  unfold undoFillFailed
  (repeat' split) <;> simp

@[simp] theorem guests_stepsFailed (line : Nat) : NoGuestRoot (stepsFailed line s) ↔ NoGuestRoot s := by
  unfold stepsFailed
  dsimp only
  (repeat' split) <;> simp [guests_foldl]

@[simp] theorem guests_failFill (serial : Nat) : NoGuestRoot (failFill serial s) ↔ NoGuestRoot s := by
  unfold failFill
  dsimp only
  (repeat' split) <;> simp [guests_foldl]

@[simp] theorem guests_fillData (serial : Nat) (d : RecordRead × RecordRead × RecordRead × RecordRead) :
    NoGuestRoot (fillData serial d s) ↔ NoGuestRoot s := by
  simp [fillData]

@[simp] theorem guests_keepUndo (c : Nat) : NoGuestRoot (keepUndo s c) ↔ NoGuestRoot s := by
  unfold keepUndo
  dsimp only
  split <;> simp

@[simp] theorem guests_clearChannel (owner : Nat) (c : Nat) :
    NoGuestRoot (clearChannel owner s c) ↔ NoGuestRoot s := by
  simp [clearChannel]

@[simp] theorem guests_clearNoticeMarks : NoGuestRoot (clearNoticeMarks s) ↔ NoGuestRoot s := by
  simp [clearNoticeMarks, guests_foldl]

@[simp] theorem guests_clearingStep (w : WarmReset) : NoGuestRoot (clearingStep w s) ↔ NoGuestRoot s := by
  simp [clearingStep, guests_foldl]

@[simp] theorem guests_beginRevocation (w : WarmReset) :
    NoGuestRoot (beginRevocation w s) ↔ NoGuestRoot s := by
  simp [beginRevocation]

@[simp] theorem guests_writeBackStages : NoGuestRoot (writeBackStages s) ↔ NoGuestRoot s := by
  unfold writeBackStages
  dsimp only
  (repeat' split) <;> simp

@[simp] theorem guests_noteWriteEnded (line : Nat) (ok : Bool) : NoGuestRoot (noteWriteEnded line ok s) ↔ NoGuestRoot s := by
  simp [noteWriteEnded]

@[simp] theorem guests_afterSettling (hs : NoGuestRoot s) : NoGuestRoot (afterSettling s) := by
  unfold afterSettling
  dsimp only
  (repeat' split) <;> simp [hs, guests_foldl]

@[simp] theorem guests_writeBackOk (key line : Nat) (changed : Bool) :
    NoGuestRoot (writeBackOk key line changed s) ↔ NoGuestRoot s := by
  unfold writeBackOk
  (repeat' split) <;> simp

@[simp] theorem guests_writeBackDone (key line : Nat) (changed ok : Bool) :
    NoGuestRoot (writeBackDone key line changed ok s) ↔ NoGuestRoot s := by
  unfold writeBackDone
  dsimp only
  (repeat' split) <;> simp

@[simp] theorem guests_jobEnded (o : Outstanding) (ok : Bool) :
    NoGuestRoot (jobEnded o ok s) ↔ NoGuestRoot s := by
  unfold jobEnded
  split <;> simp

theorem guests_writeCompletion (cls : ReqClass) (tag : Nat) (status : DownStatus) {t : State} (h :
    writeCompletion cls tag status s = some t) (hs : NoGuestRoot s) :
    NoGuestRoot t := by
  unfold writeCompletion at h
  (repeat' split at h) <;> simp at h <;> subst h <;> simp [hs]

theorem guests_fillCompletion (tag : Nat) (reply : FillReply) {t : State} (h : fillCompletion tag reply s =
    some t) (hs : NoGuestRoot s) :
    NoGuestRoot t := by
  unfold fillCompletion at h
  (repeat' split at h) <;> simp at h <;> subst h <;> simp [hs]

theorem guests_ownTimeout (tag : Nat) {t : State} (h : ownTimeout tag s = some t) (hs : NoGuestRoot s) :
    NoGuestRoot t := by
  unfold ownTimeout at h
  split at h <;> simp at h
  subst h
  simp [hs]

theorem guests_heldTagRelease (tag : Nat) {t : State} (h : heldTagRelease tag s = some t) :
    NoGuestRoot t ↔ NoGuestRoot s := by
  unfold heldTagRelease at h
  split at h <;> simp at h
  subst h
  simp

theorem guests_staleDiscard (tag : Nat) {t : State} (h : staleDiscard tag s = some t) :
    NoGuestRoot t ↔ NoGuestRoot s := by
  unfold staleDiscard at h
  split at h <;> simp at h
  subst h
  simp

theorem guests_orphanLimit (i : Nat) {t : State} (h : orphanLimit i s = some t) (hs : NoGuestRoot s) :
    NoGuestRoot t := by
  unfold orphanLimit at h
  dsimp only at h
  (repeat' split at h) <;> simp at h <;> subst h <;> simp [hs]

@[simp] theorem guests_dropOrdered (c : Nat) : NoGuestRoot (dropOrdered c s) ↔ NoGuestRoot s := by
  unfold dropOrdered
  split <;> simp

@[simp] theorem guests_abandon (c : Nat) : NoGuestRoot (abandon s c) ↔ NoGuestRoot s := by
  simp [abandon]

@[simp] theorem guests_dropUnissued : NoGuestRoot (dropUnissued s) ↔ NoGuestRoot s := by
  simp [dropUnissued]

@[simp] theorem guests_flushGoesOn : NoGuestRoot (flushGoesOn s) ↔ NoGuestRoot s := by
  unfold flushGoesOn
  split <;> simp

@[simp] theorem guests_powerEdge : NoGuestRoot (powerEdge s) ↔ NoGuestRoot s := by
  simp [powerEdge, guests_foldl]

/-! ### The check -/

@[simp] theorem guests_takeGuestRequest (x : GuestRequest) (hs : NoGuestRoot s) :
    NoGuestRoot (takeGuestRequest x s) := by
  simp [hs, takeGuestRequest]

@[simp] theorem guests_guestWrite (r : Request) (hs : NoGuestRoot s) : NoGuestRoot (guestWrite r s) := by
  unfold guestWrite
  dsimp only
  split <;> simp [hs]

@[simp] theorem guests_guestLine (r : Request) (hs : NoGuestRoot s) : NoGuestRoot (guestLine r s) := by
  unfold guestLine
  (repeat' split) <;> simp [hs]

@[simp] theorem guests_submit (r : Request) (c : Nat) : NoGuestRoot (submit r c s) ↔ NoGuestRoot s := by
  unfold submit
  dsimp only
  (repeat' split) <;> simp

@[simp] theorem guests_readResponse (r : Request) (c : Nat) (hs : NoGuestRoot s) :
    NoGuestRoot (readResponse r c s) := by
  unfold readResponse
  dsimp only
  split <;> simp [hs]

@[simp] theorem guests_management (r : Request) (offset : Nat) (hs : NoGuestRoot s) :
    NoGuestRoot (management r offset s) := by
  unfold management
  split <;> simp [hs]

@[simp] theorem guests_refuseLogged (r : Request) (reason : Reason) (seen : Option TagRecord) (status :
    Status) :
    NoGuestRoot (refuseLogged r reason seen status s) ↔ NoGuestRoot s := by
  simp [refuseLogged]

@[simp] theorem guests_decideByRecord (r : Request) (g : Nat) (rec : TagRecord) :
    NoGuestRoot (decideByRecord r g rec s) ↔ NoGuestRoot s := by
  unfold decideByRecord
  (repeat' split) <;> simp

@[simp] theorem guests_checkRecordStep (r : Request) (g : Nat) :
    NoGuestRoot (checkRecordStep r g s) ↔ NoGuestRoot s := by
  unfold checkRecordStep
  split
  · simp [guests_lookup s ‹lookup _ _ = _›]
  · simp

@[simp] theorem guests_checkGranule (r : Request) (g : Nat) :
    NoGuestRoot (checkGranule r g s) ↔ NoGuestRoot s := by
  unfold checkGranule
  (repeat' split) <;> simp

@[simp] theorem guests_checkDomain (r : Request) (g : Nat) :
    NoGuestRoot (checkDomain r g s) ↔ NoGuestRoot s := by
  unfold checkDomain
  (repeat' split) <;> simp

@[simp] theorem guests_checkGoverned (r : Request) (g : Nat) :
    NoGuestRoot (checkGoverned r g s) ↔ NoGuestRoot s := by
  unfold checkGoverned
  (repeat' split) <;> simp

@[simp] theorem guests_checkAperture (r : Request) (offset : Nat) (hs : NoGuestRoot s) :
    NoGuestRoot (checkAperture r offset s) := by
  unfold checkAperture
  (repeat' split) <;> simp [hs]

@[simp] theorem guests_check (r : Request) (hs : NoGuestRoot s) : NoGuestRoot (check r s) := by
  unfold check
  (repeat' split) <;> simp [hs]

@[simp] theorem guests_refuseDuplicate (r : Request) : NoGuestRoot (refuseDuplicate r s) ↔ NoGuestRoot s := by
  simp [refuseDuplicate]

@[simp] theorem guests_takeRequest (r : Request) (hs : NoGuestRoot s) : NoGuestRoot (takeRequest r s) := by
  unfold takeRequest
  split <;> simp [hs]

theorem guests_offerRequest (r : Request) {t : State} (h : offerRequest r s = some t) (hs : NoGuestRoot s) :
    NoGuestRoot t := by
  unfold offerRequest at h
  split at h <;> simp at h
  subst h
  simp [hs]

theorem guests_presentReleased {t : State} (h : presentReleased s = some t) (hs : NoGuestRoot s) :
    NoGuestRoot t := by
  unfold presentReleased at h
  split at h <;> simp at h
  subst h
  simp [hs]

/-! ### Rows -/

theorem guests_heldForward {t : State} (h : heldForward s = some t) : NoGuestRoot t ↔ NoGuestRoot s := by
  unfold heldForward at h
  split at h <;> simp at h
  subst h
  simp

theorem guests_completionTaken {t : State} (h : completionTaken s = some t) :
    NoGuestRoot t ↔ NoGuestRoot s := by
  unfold completionTaken at h
  split at h <;> simp at h
  subst h
  simp

theorem guests_noticeTaken {t : State} (h : noticeTaken s = some t) : NoGuestRoot t ↔ NoGuestRoot s := by
  unfold noticeTaken at h
  split at h <;> simp at h
  subst h
  simp

@[simp] theorem guests_linkDown : NoGuestRoot (linkDown s) ↔ NoGuestRoot s := by
  simp [linkDown, mapDrains]

theorem guests_fillClaims (set way : Nat) {t : State} (h : fillClaims set way s = some t) (hs : NoGuestRoot
    s) :
    NoGuestRoot t := by
  unfold fillClaims at h
  (repeat' split at h) <;> simp at h <;> subst h <;> simp [hs]

theorem guests_waitListStart {t : State} (h : waitListStart s = some t) : NoGuestRoot t ↔ NoGuestRoot s := by
  unfold waitListStart at h
  (repeat' split at h) <;> simp at h <;> subst h <;> simp

theorem guests_formatDrained (c : Nat) {t : State} (h : formatDrained c s = some t) (hs : NoGuestRoot s) :
    NoGuestRoot t := by
  unfold formatDrained at h
  split at h <;> simp at h
  subst h
  simp [hs]

theorem guests_unitGrant {t : State} (h : unitGrant s = some t) : NoGuestRoot t ↔ NoGuestRoot s := by
  unfold unitGrant at h
  split at h <;> simp at h
  subst h
  simp

theorem guests_granuleDrained (c : Nat) {t : State} (h : granuleDrained c s = some t) (hs : NoGuestRoot s) :
    NoGuestRoot t := by
  unfold granuleDrained at h
  split at h <;> simp at h
  subst h
  simp [hs]

theorem guests_clearanceDrained (c : Nat) {t : State} (h : clearanceDrained c s = some t) (hs : NoGuestRoot
    s) :
    NoGuestRoot t := by
  unfold clearanceDrained at h
  split at h <;> simp at h
  subst h
  simp [hs]

theorem guests_claimReleased (c : Nat) {t : State} (h : claimReleased c s = some t) (hs : NoGuestRoot s) :
    NoGuestRoot t := by
  unfold claimReleased at h
  (repeat' split at h) <;> simp at h <;> subst h <;> simp [hs]

theorem guests_removalDue (who : Remover) {t : State} (h : removalDue who s = some t) (hs : NoGuestRoot s) :
    NoGuestRoot t := by
  unfold removalDue at h
  (repeat' split at h) <;> simp at h <;> subst h <;> simp [hs]

theorem guests_groupDrained (c : Nat) {t : State} (h : groupDrained c s = some t) :
    NoGuestRoot t ↔ NoGuestRoot s := by
  unfold groupDrained at h
  split at h <;> simp at h
  subst h
  simp

theorem guests_startHead (k : GuestKind) {t : State} (h : startHead k s = some t) (hs : NoGuestRoot s) :
    NoGuestRoot t := by
  unfold startHead at h
  (repeat' split at h) <;> simp at h <;> subst h <;> simp [hs]

theorem guests_takeRun (cmd : Cmd) (c : Nat) {t : State} (h : takeRun cmd c s = some t) (hs : NoGuestRoot s)
    :
    NoGuestRoot t := by
  simp only [takeRun, Option.map_eq_some_iff] at h
  obtain ⟨b, -, rfl⟩ := h
  simp [hs]

theorem guests_takeControl (cmd : Cmd) (c : Nat) {t : State} (h : takeControl cmd c s = some t) (hs :
    NoGuestRoot s) :
    NoGuestRoot t := by
  simp only [takeControl, Option.map_eq_some_iff] at h
  obtain ⟨b, -, rfl⟩ := h
  simp [hs]

theorem guests_powerWarn {t : State} (h : powerWarn s = some t) (hs : NoGuestRoot s) : NoGuestRoot t := by
  unfold powerWarn at h
  split at h <;> simp at h
  subst h
  split <;> simp [hs]

theorem guests_faultAssert {t : State} (h : faultAssert s = some t) (hs : NoGuestRoot s) : NoGuestRoot t := by
  unfold faultAssert at h
  split at h <;> simp at h
  subst h
  split <;> simp [hs]

/-! ### Every step -/

/-- The outcome of a row that is always possible. -/
theorem guests_next {u t : State} (h : (Host.Outcome.next u : Host.Outcome State Fault Refusal) = .next t)
    (hu : NoGuestRoot u) : NoGuestRoot t := by
  cases h
  exact hu

/-- The outcome of a row: if its step, when it is possible, makes no guest ROOT, the row makes none. -/
theorem guests_answerStep {o : Option State} (h : ∀ u, o = some u → NoGuestRoot u) {t : State}
    (ht : answerStep s o = .next t) (hs : NoGuestRoot s) : NoGuestRoot t := by
  unfold answerStep at ht
  split at ht <;> simp at ht <;> subst ht
  · simpa using h _ rfl
  · exact hs

theorem guestsClean_nil : GuestsClean [] := GuestsClean.of_listed (by simp)

variable {s}

/-- No command of the block makes a guest's entry ROOT. -/
theorem noGuestRoot_exec {i : Instr} {t : State} (hs : NoGuestRoot s) (h : exec i s = .next t) :
    NoGuestRoot t := by
  cases i with
  | coldReset _ _ => exact guests_next h guestsClean_nil
  | requestTaken _ => exact guests_answerStep s (fun _ hu => guests_offerRequest s _ hu hs) h hs
  | presentReleasedWaiter => exact guests_answerStep s (fun _ hu => guests_presentReleased s hu hs) h hs
  | heldTransactionForward => exact guests_answerStep s (fun _ hu => (guests_heldForward s hu).mpr hs) h hs
  | completionTaken => exact guests_answerStep s (fun _ hu => (guests_completionTaken s hu).mpr hs) h hs
  | noticePacketTaken => exact guests_answerStep s (fun _ hu => (guests_noticeTaken s hu).mpr hs) h hs
  | upstreamLinkDown => exact guests_next h (by simpa using hs)
  | upstreamLinkUp => refine guests_answerStep s ?_ h hs; simp [hs]
  | downstreamLinkDown => exact guests_next h (by simpa using hs)
  | downstreamLinkUp => exact guests_next h (by simpa using hs)
  | downstreamOfferTaken => refine guests_answerStep s ?_ h hs; simp [hs]
  | downstreamTagGrant _ => exact guests_next h (by simpa using hs)
  | forwardedCompletion _ _ _ => exact guests_next h (by simpa using hs)
  | staleCompletionDiscard _ => exact guests_answerStep s (fun _ hu => (guests_staleDiscard s _ hu).mpr hs) h hs
  | forwardedTimeout _ => exact guests_next h (by simpa using hs)
  | orphanLimit _ => exact guests_answerStep s (fun _ hu => guests_orphanLimit s _ hu hs) h hs
  | ownRequestTimeout _ => exact guests_answerStep s (fun _ hu => guests_ownTimeout s _ hu hs) h hs
  | heldTagRelease _ => exact guests_answerStep s (fun _ hu => (guests_heldTagRelease s _ hu).mpr hs) h hs
  | fillReadCompletion _ _ => exact guests_answerStep s (fun _ hu => guests_fillCompletion s _ _ hu hs) h hs
  | fillClaimsWay _ _ => exact guests_answerStep s (fun _ hu => guests_fillClaims s _ _ hu hs) h hs
  | fillWaitListStart => exact guests_answerStep s (fun _ hu => (guests_waitListStart s hu).mpr hs) h hs
  | writeBackCompletion _ _ => exact guests_answerStep s (fun _ hu => guests_writeCompletion s _ _ _ hu hs) h hs
  | formatWriteCompletion _ _ => exact guests_answerStep s (fun _ hu => guests_writeCompletion s _ _ _ hu hs) h hs
  | formatDrainDone _ => exact guests_answerStep s (fun _ hu => guests_formatDrained s _ hu hs) h hs
  | zeroWriteCompletion _ _ => exact guests_answerStep s (fun _ hu => guests_writeCompletion s _ _ _ hu hs) h hs
  | scrubUnitGrant => exact guests_answerStep s (fun _ hu => (guests_unitGrant s hu).mpr hs) h hs
  | granuleDrainDone _ => exact guests_answerStep s (fun _ hu => guests_granuleDrained s _ hu hs) h hs
  | retireClearanceDrainsDone _ => exact guests_answerStep s (fun _ hu => guests_clearanceDrained s _ hu hs) h hs
  | retireClaimReleased _ => exact guests_answerStep s (fun _ hu => guests_claimReleased s _ hu hs) h hs
  | revocationRemoval _ => exact guests_answerStep s (fun _ hu => guests_removalDue s _ hu hs) h hs
  | harvestGroupDrained _ => exact guests_answerStep s (fun _ hu => (guests_groupDrained s _ hu).mpr hs) h hs
  | harvestWriteCompletion _ _ => exact guests_answerStep s (fun _ hu => guests_writeCompletion s _ _ _ hu hs) h hs
  | submission _ _ _ => exact guests_answerStep s (fun _ hu => guests_offerRequest s _ hu hs) h hs
  | responseRead _ _ => exact guests_answerStep s (fun _ hu => guests_offerRequest s _ hu hs) h hs
  | apertureOtherWrite _ _ _ _ _ =>
    refine guests_answerStep s (fun _ hu => ?_) h hs
    split at hu
    · cases hu
    · exact guests_offerRequest s _ hu hs
  | domainRequestWrite _ _ _ _ _ =>
    refine guests_answerStep s (fun _ hu => ?_) h hs
    split at hu
    · cases hu
    · exact guests_offerRequest s _ hu hs
  | domainRequestRead _ _ =>
    refine guests_answerStep s (fun _ hu => ?_) h hs
    split at hu
    · cases hu
    · exact guests_offerRequest s _ hu hs
  | offer => exact guests_answerStep s (fun _ hu => guests_startHead s _ hu hs) h hs
  | withdraw => exact guests_answerStep s (fun _ hu => guests_startHead s _ hu hs) h hs
  | pin => exact guests_answerStep s (fun _ hu => guests_startHead s _ hu hs) h hs
  | unpin => exact guests_answerStep s (fun _ hu => guests_startHead s _ hu hs) h hs
  | query => exact guests_answerStep s (fun _ hu => guests_startHead s _ hu hs) h hs
  | format _ => exact guests_answerStep s (fun _ hu => guests_takeRun s _ _ hu hs) h hs
  | assign _ => exact guests_answerStep s (fun _ hu => guests_takeRun s _ _ hu hs) h hs
  | release _ => exact guests_answerStep s (fun _ hu => guests_takeRun s _ _ hu hs) h hs
  | restore _ => exact guests_answerStep s (fun _ hu => guests_takeRun s _ _ hu hs) h hs
  | queryGranules _ => exact guests_answerStep s (fun _ hu => guests_takeRun s _ _ hu hs) h hs
  | retire _ => exact guests_answerStep s (fun _ hu => guests_takeRun s _ _ hu hs) h hs
  | revokeGrant _ => exact guests_answerStep s (fun _ hu => guests_takeRun s _ _ hu hs) h hs
  | trackStart _ => exact guests_answerStep s (fun _ hu => guests_takeRun s _ _ hu hs) h hs
  | trackCollect _ => exact guests_answerStep s (fun _ hu => guests_takeRun s _ _ hu hs) h hs
  | flushTags _ => exact guests_answerStep s (fun _ hu => guests_takeRun s _ _ hu hs) h hs
  | regionSet _ => exact guests_answerStep s (fun _ hu => guests_takeRun s _ _ hu hs) h hs
  | create _ => exact guests_answerStep s (fun _ hu => guests_takeControl s _ _ hu hs) h hs
  | start _ => exact guests_answerStep s (fun _ hu => guests_takeControl s _ _ hu hs) h hs
  | pause _ => exact guests_answerStep s (fun _ hu => guests_takeControl s _ _ hu hs) h hs
  | resume _ => exact guests_answerStep s (fun _ hu => guests_takeControl s _ _ hu hs) h hs
  | unfence _ => exact guests_answerStep s (fun _ hu => guests_takeControl s _ _ hu hs) h hs
  | setQuota _ => exact guests_answerStep s (fun _ hu => guests_takeControl s _ _ hu hs) h hs
  | setFence _ => exact guests_answerStep s (fun _ hu => guests_takeControl s _ _ hu hs) h hs
  | clearDomainCounters _ => exact guests_answerStep s (fun _ hu => guests_takeControl s _ _ hu hs) h hs
  | domainStatus _ => exact guests_answerStep s (fun _ hu => guests_takeControl s _ _ hu hs) h hs
  | activateGrant _ => exact guests_answerStep s (fun _ hu => guests_takeControl s _ _ hu hs) h hs
  | grantRead _ => exact guests_answerStep s (fun _ hu => guests_takeControl s _ _ hu hs) h hs
  | trackStop _ => exact guests_answerStep s (fun _ hu => guests_takeRun s _ _ hu hs) h hs
  | trackStatus _ => exact guests_answerStep s (fun _ hu => guests_takeControl s _ _ hu hs) h hs
  | violationPop _ => exact guests_answerStep s (fun _ hu => guests_takeControl s _ _ hu hs) h hs
  | noticeConfig _ => exact guests_answerStep s (fun _ hu => guests_takeControl s _ _ hu hs) h hs
  | noticeClear _ => exact guests_answerStep s (fun _ hu => guests_takeControl s _ _ hu hs) h hs
  | noticeStatus _ => exact guests_answerStep s (fun _ hu => guests_takeControl s _ _ hu hs) h hs
  | regionClear _ => exact guests_answerStep s (fun _ hu => guests_takeControl s _ _ hu hs) h hs
  | regionLockdown _ => exact guests_answerStep s (fun _ hu => guests_takeControl s _ _ hu hs) h hs
  | freeze _ => exact guests_answerStep s (fun _ hu => guests_takeControl s _ _ hu hs) h hs
  | setFaultPolicy _ => exact guests_answerStep s (fun _ hu => guests_takeControl s _ _ hu hs) h hs
  | contain _ => exact guests_answerStep s (fun _ hu => guests_takeControl s _ _ hu hs) h hs
  | resumePart _ => exact guests_answerStep s (fun _ hu => guests_takeControl s _ _ hu hs) h hs
  | ackIntegrity _ => exact guests_answerStep s (fun _ hu => guests_takeControl s _ _ hu hs) h hs
  | clearIntegrityCount _ => exact guests_answerStep s (fun _ hu => guests_takeControl s _ _ hu hs) h hs
  | setCorrectedLimit _ => exact guests_answerStep s (fun _ hu => guests_takeControl s _ _ hu hs) h hs
  | poisonRead _ => exact guests_answerStep s (fun _ hu => guests_takeControl s _ _ hu hs) h hs
  | partStatus _ => exact guests_answerStep s (fun _ hu => guests_takeControl s _ _ hu hs) h hs
  | abort _ => exact guests_answerStep s (fun _ hu => guests_takeRun s _ _ hu hs) h hs
  | resetEngines _ => exact guests_answerStep s (fun _ hu => guests_takeRun s _ _ hu hs) h hs
  | warmResetSettled => refine guests_answerStep s ?_ h hs; simp [hs]
  | powerWarn => exact guests_answerStep s (fun _ hu => guests_powerWarn s hu hs) h hs
  | powerWarnQuiesced => refine guests_answerStep s ?_ h hs; simp [hs]
  | platformFaultAssert => exact guests_answerStep s (fun _ hu => guests_faultAssert s hu hs) h hs
  | platformFaultDeassert => exact guests_next h (by simpa using hs)
  | powerWarnDeassert => exact guests_next h (by simpa using hs)

/-- The step lemma: a step from a state in which no guest is ROOT ends in one. -/
theorem noGuestRoot_step {t : State} (hs : NoGuestRoot s) (h : step s = .next t) : NoGuestRoot t := by
  unfold step at h
  split at h
  · refine noGuestRoot_exec ?_ h; exact hs
  · exact guests_next h (by simpa using hs)

theorem noGuestRoot_reset : NoGuestRoot State.reset := guestsClean_nil

end Sys2Proof.Machine
end

