-- ==== Sys2Proof/Laws/Keeps.lean ====
section
/-!
SUPPORT. What no operation of the part's engines changes: the queue of the block's interface, the span (R18),
      the
levels of the links (R13, R14) and of the two platform lines (R201, R202).  Each operation keeps the board of a
state; the rows that change it are the rows of the links, the lines and the cold reset.
-/

namespace Sys2Proof.Machine

/-- What a state holds of the world outside its engines. -/
def board (s : State) : List Instr × Nat × Nat × Nat × Bool × Bool × Bool × Bool :=
  (s.pending, s.base, s.requested, s.size, s.upLink, s.downLink, s.faultLine, s.warnLine)

theorem board_iff {s t : State} : board t = board s ↔
    t.pending = s.pending ∧ t.base = s.base ∧ t.requested = s.requested ∧ t.size = s.size ∧
      t.upLink = s.upLink ∧ t.downLink = s.downLink ∧ t.faultLine = s.faultLine ∧ t.warnLine = s.warnLine := by
  simp [board]

@[simp] theorem board_mk (base requested size x3 x4 x5 x6 faultLine warnLine x9 x10 x11 upLink x13 x14 x15
    x16 x17 downLink x19 x20 x21 x22 x23 x24 x25 x26 x27 x28 x29 x30 x31 x32 x33 x34 x35 x36 x37 x38 x39 x40 x41
    x42 x43 x44 x45 x46 x47 x48 x49 x50 x51 x52 x53 x54 x55 pending) :
    board (State.mk base requested size x3 x4 x5 x6 faultLine warnLine x9 x10 x11 upLink x13 x14 x15 x16 x17
    downLink x19 x20 x21 x22 x23 x24 x25 x26 x27 x28 x29 x30 x31 x32 x33 x34 x35 x36 x37 x38 x39 x40 x41 x42 x43
    x44 x45 x46 x47 x48 x49 x50 x51 x52 x53 x54 x55 pending) =
      (pending, base, requested, size, upLink, downLink, faultLine, warnLine) := rfl

@[simp] theorem board_eta (s : State) :
    (s.pending, s.base, s.requested, s.size, s.upLink, s.downLink, s.faultLine, s.warnLine) = board s := rfl

/-- A field of the board, read from it. -/
theorem board_at (s : State) : s.pending = (board s).1 ∧ s.base = (board s).2.1 ∧ s.requested = (board
    s).2.2.1 ∧
    s.size = (board s).2.2.2.1 ∧ s.upLink = (board s).2.2.2.2.1 ∧ s.downLink = (board s).2.2.2.2.2.1 ∧
    s.faultLine = (board s).2.2.2.2.2.2.1 ∧ s.warnLine = (board s).2.2.2.2.2.2.2 :=
  ⟨rfl, rfl, rfl, rfl, rfl, rfl, rfl, rfl⟩

variable (s : State)

theorem board_foldl {α : Type} {f : State → α → State} (h : ∀ s x, board (f s x) = board s) (l : List α) :
    board (l.foldl f s) = board s := by
  induction l generalizing s with
  | nil => rfl
  | cons x l ih => rw [List.foldl_cons, ih, h]

/-! ### Tables (Ops) -/

@[simp] theorem board_setDom (d : Nat) (e : Domain) : board (setDom d e s) = board s := by
  simp [setDom]

@[simp] theorem board_setChan (c : Nat) (e : Channel) : board (setChan c e s) = board s := by
  simp [setChan]

@[simp] theorem board_setSlot (k : Nat) (e : Slot) : board (setSlot k e s) = board s := by
  simp [setSlot]

@[simp] theorem board_setRegion (i : Nat) (e : Region) : board (setRegion i e s) = board s := by
  simp [setRegion]

@[simp] theorem board_setSource (n : Nat) (e : Source) : board (setSource n e s) = board s := by
  simp [setSource]

@[simp] theorem board_setResult (d : Nat) (e : LastResult) : board (setResult d e s) = board s := by
  simp [setResult]

@[simp] theorem board_setGrant (i : Nat) (g : Grant) : board (setGrant i g s) = board s := by
  simp [setGrant]

@[simp] theorem board_setUnit (u : Nat) (z : Zeroing) : board (setUnit u z s) = board s := by
  simp [setUnit]

@[simp] theorem board_idleUnit (u : Nat) : board (idleUnit u s) = board s := by
  simp [idleUnit]

@[simp] theorem board_mapActive (c : Nat) (f : Active → Active) : board (mapActive c f s) = board s := by
  simp [mapActive]

@[simp] theorem board_goPhase (c : Nat) (p : Phase) (w : Wait) : board (goPhase c p w s) = board s := by
  simp [goPhase]

@[simp] theorem board_goWait (c : Nat) (w : Wait) : board (goWait c w s) = board s := by
  simp [goWait]

@[simp] theorem board_goWork (c : Nat) (w : Work) : board (goWork c w s) = board s := by
  simp [goWork]

@[simp] theorem board_goEnding (c : Nat) (r : Result) : board (goEnding c r s) = board s := by
  simp [goEnding]

@[simp] theorem board_setClaim (c : Nat) (g : Option Nat) : board (setClaim c g s) = board s := by
  simp [setClaim]

/-! ### Notices, violations and responses (Flags) -/

@[simp] theorem board_raise (n : NoticeName) : board (raise n s) = board s := by
  unfold raise
  dsimp only
  split <;> simp

@[simp] theorem board_placeNotice : board (placeNotice s) = board s := by
  unfold placeNotice
  (repeat' split) <;> simp

@[simp] theorem board_enterCause (c : Cause) : board (enterCause c s) = board s := by
  unfold enterCause
  (repeat' split) <;> simp

@[simp] theorem board_logViolation (v : Violation) : board (logViolation v s) = board s := by
  unfold logViolation
  (repeat' split) <;> simp

@[simp] theorem board_fenceTest (d : Nat) : board (fenceTest d s) = board s := by
  unfold fenceTest
  dsimp only
  split <;> simp

@[simp] theorem board_countViolation (d address : Nat) : board (countViolation d address s) = board s := by
  simp [countViolation]

@[simp] theorem board_violate (d : Nat) (write : Bool) (address : Nat) (reason : Reason) (seen : Option
      TagRecord) : board (violate d write address reason seen s) = board s := by
  unfold violate
  split <;> simp

@[simp] theorem board_decideFor (r : Request) (status : Status) (data : Line) :
    board (decideFor r status data s) = board s := by
  simp [decideFor]

@[simp] theorem board_answer (r : Request) (status : Status) : board (answer r status s) = board s := by
  simp [answer]

@[simp] theorem board_pushResponse (c : Nat) (r : Response) : board (pushResponse c r s) = board s := by
  simp [pushResponse]

@[simp] theorem board_respond (c : Nat) (b : Line) (r : Result) (p : Report) :
    board (respond c b r p s) = board s := by
  simp [respond]

@[simp] theorem board_completeWork (c : Nat) (r : Result) (p : Report) :
    board (completeWork c r p s) = board s := by
  unfold completeWork
  (repeat' split) <;> simp

/-! ### The downstream port -/

@[simp] theorem board_noteIssue (tag : Nat) (job : OwnJob) : board (noteIssue tag job s) = board s := by
  unfold noteIssue
  (repeat' split) <;> simp

@[simp] theorem board_sendJob (tag : Nat) (job : OwnJob) : board (sendJob tag job s) = board s := by
  simp [sendJob]

@[simp] theorem board_produceJob (job : OwnJob) : board (produceJob job s) = board s := by
  simp [produceJob]

@[simp] theorem board_keepJobs (keep : OwnJob → Bool) : board (keepJobs keep s) = board s := by
  simp [keepJobs]

@[simp] theorem board_issueJob (job : OwnJob) : board (issueJob job s) = board s := by
  unfold issueJob
  (repeat' split) <;> simp

@[simp] theorem board_issueProduced (old : State) : board (issueProduced old s) = board s := by
  simp [issueProduced, board_foldl]

@[simp] theorem board_grantTag (cls : ReqClass) : board (grantTag cls s) = board s := by
  unfold grantTag
  split <;> simp

@[simp] theorem board_withdrawOffer (tag : Nat) : board (withdrawOffer tag s) = board s := by
  simp [withdrawOffer]

@[simp] theorem board_retireTag (tag : Nat) : board (retireTag tag s) = board s := by
  simp [retireTag]

@[simp] theorem board_holdTag (tag : Nat) : board (holdTag tag s) = board s := by
  simp [holdTag]

@[simp] theorem board_freeHeldTag (tag : Nat) : board (freeHeldTag tag s) = board s := by
  simp [freeHeldTag]

@[simp] theorem board_placeOffer : board (placeOffer s) = board s := by
  unfold placeOffer
  split <;> simp

@[simp] theorem board_takeOffer : board (takeOffer s) = board s := by
  unfold takeOffer
  (repeat' split) <;> simp

@[simp] theorem board_elapse (d : Nat) : board (elapse d s) = board s := by
  simp [elapse]

/-! ### Drains and the In-Flight Table -/

@[simp] theorem board_beginDrain (u : DrainUser) (k : DrainKey) : board (beginDrain u k s) = board s := by
  unfold beginDrain
  dsimp only
  (repeat' split) <;> simp

@[simp] theorem board_withdrawDrains (u : DrainUser) : board (withdrawDrains u s) = board s := by
  simp [withdrawDrains]

@[simp] theorem board_mapDrains (f : Drain → Drain) : board (mapDrains f s) = board s := by
  simp [mapDrains]

@[simp] theorem board_freeEntry (i : Nat) : board (freeEntry i s) = board s := by
  simp [freeEntry]

@[simp] theorem board_allocate (i : Nat) (h : HeldTx) : board (allocate i h s) = board s := by
  simp [allocate]

@[simp] theorem board_forward (h : HeldTx) : board (forward h s) = board s := by
  unfold forward
  split <;> simp

@[simp] theorem board_forwardHeld : board (forwardHeld s) = board s := by
  unfold forwardHeld
  split <;> simp

@[simp] theorem board_completeEntry (e : InFlight) (status : Status) (data : Line) :
    board (completeEntry e status data s) = board s := by
  unfold completeEntry
  split <;> simp

@[simp] theorem board_inFlightCompletion (i : Nat) (status : DownStatus) (data : Line) :
    board (inFlightCompletion i status data s) = board s := by
  unfold inFlightCompletion
  (repeat' split) <;> simp

@[simp] theorem board_inFlightTimeout (i : Nat) : board (inFlightTimeout i s) = board s := by
  unfold inFlightTimeout
  (repeat' split) <;> simp

/-! ### The Tag Cache and the Fill Table -/

@[simp] theorem board_touch (key : Nat) : board (touch key s) = board s := by
  simp [touch]

@[simp] theorem board_putRecord (g : Nat) (r : TagRecord) : board (putRecord g r s) = board s := by
  unfold putRecord
  (repeat' split) <;> simp

@[simp] theorem board_claimFor (serial set way : Nat) : board (claimFor serial set way s) = board s := by
  unfold claimFor
  dsimp only
  (repeat' split) <;> simp

@[simp] theorem board_startFill (line : Nat) : board (startFill line s) = board s := by
  unfold startFill
  dsimp only
  split <;> simp

@[simp] theorem board_joinFill (line : Nat) : board (joinFill line s) = board s := by
  unfold joinFill
  (repeat' split) <;> simp

@[simp] theorem board_issueWriteBacks (ks : List (Nat × Nat)) : board (issueWriteBacks ks s) = board s := by
  simp [issueWriteBacks, board_foldl]

@[simp] theorem board_writeBackMore (failed : List Nat) : board (writeBackMore failed s) = board s := by
  simp [writeBackMore]

@[simp] theorem board_dropGrant (i : Nat) : board (dropGrant i s) = board s := by
  unfold dropGrant
  split <;> simp

@[simp] theorem board_removeGrant (i : Nat) (g : Grant) (r : TagRecord) :
    board (removeGrant i g r s) = board s := by
  simp [removeGrant]

@[simp] theorem board_dropGrantsOf (g : Nat) : board (dropGrantsOf g s) = board s := by
  simp [dropGrantsOf, board_foldl]

@[simp] theorem board_listPoison (g : Nat) (owner : Option Nat) (cause : PoisonCause) :
    board (listPoison g owner cause s) = board s := by
  unfold listPoison
  (repeat' split) <;> simp

@[simp] theorem board_poisonTables (g : Nat) (owner : Option Nat) (cause : PoisonCause) :
    board (poisonTables g owner cause s) = board s := by
  simp [poisonTables]

@[simp] theorem board_poisonNow (g : Nat) (cause : PoisonCause) : board (poisonNow g cause s) = board s := by
  unfold poisonNow
  split <;> simp

@[simp] theorem board_unlistPoison (g : Nat) : board (unlistPoison g s) = board s := by
  simp [unlistPoison]

@[simp] theorem board_countCorrected (g : Nat) : board (countCorrected g s) = board s := by
  unfold countCorrected
  dsimp only
  split <;> simp

@[simp] theorem board_meetHold (g : Nat) : board (meetHold g s) = board s := by
  unfold meetHold
  split <;> simp

@[simp] theorem board_stateLost (g : Nat) (owner : Option Nat) : board (stateLost g owner s) = board s := by
  simp [stateLost]

@[simp] theorem board_ownerLost (g : Nat) : board (ownerLost g s) = board s := by
  simp [ownerLost]

@[simp] theorem board_checkRecord (g : Nat) (rd : RecordRead) : board (checkRecord g rd s).2.2 = board s := by
  unfold checkRecord
  split <;> simp

@[simp] theorem board_checkLine (line : Nat) (d : RecordRead × RecordRead × RecordRead × RecordRead) :
    board (checkLine line d s).2.2 = board s := by
  simp [checkLine]

@[simp] theorem board_installLine (f : Fill) (way : Nat) (d : RecordRead × RecordRead × RecordRead ×
      RecordRead) :
    board (installLine f way d s) = board s := by
  rw [← board_checkLine s f.line d]
  simp [installLine, board_at]

/-! ### Commands -/

@[simp] theorem board_dequeue (c : Nat) : board (dequeue c s) = board s := by
  unfold dequeue
  dsimp only
  split <;> simp

@[simp] theorem board_activate (c : Nat) (b : Line) (w : Work) (p : Phase) (wait : Wait) :
    board (activate c b w p wait s) = board s := by
  simp [activate]

@[simp] theorem board_refuse (c : Nat) (b : Line) (r : Result) (p : Report) :
    board (refuse c b r p s) = board s := by
  simp [refuse]

@[simp] theorem board_idleSlot (k : Nat) : board (idleSlot k s) = board s := by
  unfold idleSlot
  dsimp only
  split <;> simp

@[simp] theorem board_cleanUp (c : Nat) (w : Work) : board (cleanUp c w s) = board s := by
  unfold cleanUp
  dsimp only
  (repeat' split) <;> simp

@[simp] theorem board_stopWork (c : Nat) (r : Result) : board (stopWork c r s) = board s := by
  unfold stopWork
  split <;> simp

@[simp] theorem board_doneWork (c : Nat) : board (doneWork c s) = board s := by
  unfold doneWork
  split <;> simp

theorem board_lookup {g : Nat} {r : TagRecord} {t : State} (h : lookup g s = some (r, t)) : board t = board s
      := by
  unfold lookup at h
  split at h <;> simp at h
  rw [← h.2]
  simp

@[simp] theorem board_withRecord (c g : Nat) (k : TagRecord → State → State)
    (h : ∀ r t, board (k r t) = board t) : board (withRecord c g k s) = board s := by
  unfold withRecord
  split
  · rename_i hl
    rw [h, board_lookup s hl]
  · simp

/-! ### Scrub Units and poisonings -/

@[simp] theorem board_withholdLines : board (withholdLines s) = board s := by
  simp [withholdLines]

@[simp] theorem board_tryEndScrub (c : Nat) : board (tryEndScrub c s) = board s := by
  unfold tryEndScrub
  (repeat' split) <;> simp

@[simp] theorem board_poisonMade (src : PoisonSource) : board (poisonMade src s) = board s := by
  unfold poisonMade
  (repeat' split) <;> simp

@[simp] theorem board_orderPoison (g : Nat) (cause : PoisonCause) (src : PoisonSource) :
    board (orderPoison g cause src s) = board s := by
  unfold orderPoison
  split <;> simp

@[simp] theorem board_setPoisonWait (p : PendingPoison) (w : Wait) : board (setPoisonWait p w s) = board s := by
  simp [setPoisonWait]

@[simp] theorem board_poisonStep (p : PendingPoison) : board (poisonStep p s) = board s := by
  unfold poisonStep
  split
  · simp [board_lookup s ‹lookup _ _ = _›]
  · split <;> simp

@[simp] theorem board_grantUnit (u c : Nat) : board (grantUnit u c s) = board s := by
  simp [grantUnit, board_foldl]

@[simp] theorem board_haltUnit (u : Nat) : board (haltUnit u s) = board s := by
  unfold haltUnit
  split <;> simp

@[simp] theorem board_settleUnit (u : Nat) : board (settleUnit u s) = board s := by
  unfold settleUnit
  dsimp only
  (repeat' split) <;> simp

@[simp] theorem board_zeroWriteEnded (u : Nat) (ok : Bool) : board (zeroWriteEnded u ok s) = board s := by
  unfold zeroWriteEnded
  dsimp only
  (repeat' split) <;> simp

@[simp] theorem board_haltUnitsOf (c : Nat) : board (haltUnitsOf c s) = board s := by
  simp [haltUnitsOf, board_foldl]

/-! ### Granule operations -/

@[simp] theorem board_doAssign (c : Nat) (b : Line) : board (doAssign c b s) = board s := by
  unfold doAssign
  dsimp only
  (repeat' split) <;> simp

@[simp] theorem board_doRelease (c : Nat) (b : Line) : board (doRelease c b s) = board s := by
  unfold doRelease
  dsimp only
  (repeat' split) <;> simp

@[simp] theorem board_doRestore (c : Nat) (b : Line) : board (doRestore c b s) = board s := by
  unfold doRestore
  split <;> simp

@[simp] theorem board_doQueryGranules (c : Nat) (b : Line) : board (doQueryGranules c b s) = board s := by
  unfold doQueryGranules
  split <;> simp

@[simp] theorem board_revokeAllOf (d : Nat) : board (revokeAllOf d s) = board s := by
  simp [revokeAllOf]

@[simp] theorem board_beginClearance (c d : Nat) : board (beginClearance c d s) = board s := by
  simp [beginClearance, board_foldl]

@[simp] theorem board_doRetire (c : Nat) (b : Line) : board (doRetire c b s) = board s := by
  unfold doRetire
  dsimp only
  (repeat' split) <;> simp

@[simp] theorem board_startGranuleDrain (c g : Nat) : board (startGranuleDrain c g s) = board s := by
  unfold startGranuleDrain
  dsimp only
  split <;> simp

@[simp] theorem board_nextGranule (c : Nat) (w : Work) : board (nextGranule c w s) = board s := by
  simp [nextGranule]

@[simp] theorem board_assignVisit (c d g : Nat) (keep : Bool) (r : TagRecord) :
    board (assignVisit c d g keep r s) = board s := by
  unfold assignVisit
  split <;> simp

@[simp] theorem board_releaseVisit (c d g : Nat) (r : TagRecord) :
    board (releaseVisit c d g r s) = board s := by
  unfold releaseVisit
  split <;> simp

@[simp] theorem board_restoreVisit (c g : Nat) (r : TagRecord) : board (restoreVisit c g r s) = board s := by
  unfold restoreVisit
  split <;> simp

@[simp] theorem board_dropRequestOf (d : Nat) : board (dropRequestOf d s) = board s := by
  unfold dropRequestOf
  dsimp only
  (repeat' split) <;> simp

@[simp] theorem board_retireComplete (c : Nat) (r : RetireWork) (left : Nat) :
    board (retireComplete c r left s) = board s := by
  simp [retireComplete]

@[simp] theorem board_retireWalk (c : Nat) (r : RetireWork) : board (retireWalk c r s) = board s := by
  simp [retireWalk]

@[simp] theorem board_retireOwned (c : Nat) (r : RetireWork) (rec : TagRecord) :
    board (retireOwned c r rec s) = board s := by
  unfold retireOwned
  dsimp only
  (repeat' split) <;> simp

@[simp] theorem board_retireVisit (c : Nat) (r : RetireWork) (rec : TagRecord) :
    board (retireVisit c r rec s) = board s := by
  unfold retireVisit
  split <;> simp

@[simp] theorem board_retireStep (c : Nat) (r : RetireWork) : board (retireStep c r s) = board s := by
  unfold retireStep
  (repeat' split) <;> simp

@[simp] theorem board_visitStep (c : Nat) (a : Active) : board (visitStep c a s) = board s := by
  unfold visitStep
  (repeat' split) <;> simp

@[simp] theorem board_notePoisoned (c : Nat) (w : Work) (r : TagRecord) :
    board (notePoisoned c w r s) = board s := by
  unfold notePoisoned
  (repeat' split) <;> simp

@[simp] theorem board_ownedDown (d : Nat) : board (ownedDown d s) = board s := by
  simp [ownedDown]

@[simp] theorem board_finishGranule (c g : Nat) (w : Work) (r : TagRecord) :
    board (finishGranule c g w r s) = board s := by
  unfold finishGranule
  (repeat' split) <;> simp

@[simp] theorem board_afterDrain (c : Nat) (a : Active) (r : TagRecord) :
    board (afterDrain c a r s) = board s := by
  unfold afterDrain
  dsimp only
  (repeat' split) <;> simp

@[simp] theorem board_afterZero (c : Nat) (a : Active) (r : TagRecord) :
    board (afterZero c a r s) = board s := by
  unfold afterZero
  dsimp only
  split <;> simp

@[simp] theorem board_undoRecord (c g : Nat) (w : Work) (r : TagRecord) :
    board (undoRecord c g w r s) = board s := by
  unfold undoRecord
  (repeat' split) <;> simp

@[simp] theorem board_undoStep (c : Nat) (a : Active) : board (undoStep c a s) = board s := by
  simp [undoStep]

@[simp] theorem board_pendingUndoStep (c : Nat) (u : PendingUndo) :
    board (pendingUndoStep c u s) = board s := by
  unfold pendingUndoStep
  split
  · simp [board_lookup s ‹lookup _ _ = _›]
  · split <;> simp

/-! ### Tracking -/

@[simp] theorem board_doTrackStart (c : Nat) (b : Line) : board (doTrackStart c b s) = board s := by
  unfold doTrackStart
  dsimp only
  (repeat' split) <;> simp

@[simp] theorem board_trackStartDone (c k f n cleared : Nat) :
    board (trackStartDone c k f n cleared s) = board s := by
  simp [trackStartDone]

@[simp] theorem board_trackStartRecord (c k d f n done cleared : Nat) (r : TagRecord) :
    board (trackStartRecord c k d f n done cleared r s) = board s := by
  unfold trackStartRecord
  dsimp only
  (repeat' split) <;> simp

@[simp] theorem board_trackStartStep (c : Nat) (k d f n done cleared : Nat) :
    board (trackStartStep c k d f n done cleared s) = board s := by
  unfold trackStartStep
  (repeat' split) <;> simp

@[simp] theorem board_slotTake (k g : Nat) : board (slotTake k g s) = board s := by
  unfold slotTake
  dsimp only
  (repeat' split) <;> simp

@[simp] theorem board_markWrite (g : Nat) (r : TagRecord) : board (markWrite g r s) = board s := by
  unfold markWrite
  (repeat' split) <;> simp

@[simp] theorem board_doTrackCollect (c : Nat) (b : Line) : board (doTrackCollect c b s) = board s := by
  unfold doTrackCollect
  dsimp only
  (repeat' split) <;> simp

@[simp] theorem board_collectDone (c : Nat) (k : CollectWork) : board (collectDone c k s) = board s := by
  simp [collectDone]

@[simp] theorem board_startGroup (c : Nat) (k : CollectWork) : board (startGroup c k s) = board s := by
  simp [startGroup]

@[simp] theorem board_collectBuffer (c : Nat) (k : CollectWork) (r : TagRecord) :
    board (collectBuffer c k r s) = board s := by
  unfold collectBuffer
  dsimp only
  (repeat' split) <;> simp

@[simp] theorem board_collectRecord (c : Nat) (k : CollectWork) (g : Nat) (r : TagRecord) :
    board (collectRecord c k g r s) = board s := by
  unfold collectRecord
  dsimp only
  split <;> simp

@[simp] theorem board_harvestIssue (c : Nat) : board (harvestIssue c s) = board s := by
  simp [harvestIssue]

@[simp] theorem board_collectStep (c : Nat) (k : CollectWork) : board (collectStep c k s) = board s := by
  unfold collectStep
  (repeat' split) <;> simp

@[simp] theorem board_harvestEnded (c : Nat) (ok : Bool) : board (harvestEnded c ok s) = board s := by
  unfold harvestEnded
  dsimp only
  (repeat' split) <;> simp

@[simp] theorem board_stopCollect (c : Nat) (r : Result) : board (stopCollect c r s) = board s := by
  unfold stopCollect
  dsimp only
  split <;> simp

@[simp] theorem board_releaseSlot (k : Nat) : board (releaseSlot k s) = board s := by
  unfold releaseSlot
  dsimp only
  split <;> simp

/-! ### Grants and guest requests -/

@[simp] theorem board_moveGrant (i : Nat) (g : Grant) : board (moveGrant i g s) = board s := by
  simp [moveGrant]

@[simp] theorem board_doRevokeGrant (c : Nat) (b : Line) : board (doRevokeGrant c b s) = board s := by
  unfold doRevokeGrant
  dsimp only
  (repeat' split) <;> simp

@[simp] theorem board_revokeDone (c : Nat) (r : RevokeWork) (mine : Bool) :
    board (revokeDone c r mine s) = board s := by
  simp [revokeDone]

@[simp] theorem board_revokeStep (c : Nat) (r : RevokeWork) : board (revokeStep c r s) = board s := by
  unfold revokeStep
  split <;> simp

@[simp] theorem board_retireRemoval (c : Nat) (r : RetireWork) : board (retireRemoval c r s) = board s := by
  unfold retireRemoval
  (repeat' split) <;> simp

@[simp] theorem board_retireRemovalFailed (c : Nat) (r : RetireWork) :
    board (retireRemovalFailed c r s) = board s := by
  simp [retireRemovalFailed]

@[simp] theorem board_setRevocation (todo : List (Nat × Nat)) (drained : Bool) (w : Wait) :
    board (setRevocation todo drained w s) = board s := by
  simp [setRevocation]

@[simp] theorem board_resumption (w : WarmReset) : board (resumption w s) = board s := by
  unfold resumption
  dsimp only
  rw [board_respond, board_foldl]
  · simp
  · intro s c
    (repeat' split) <;> simp

@[simp] theorem board_revocationStep (w : WarmReset) (todo : List (Nat × Nat)) (done : Bool) :
    board (revocationStep w todo done s) = board s := by
  unfold revocationStep
  dsimp only
  (repeat' split) <;> first | (simp [board_at, board_foldl]; done) | simp [board_lookup s ‹lookup _ _ = _›,
        board_at]

@[simp] theorem board_revocationFailed : board (revocationFailed s) = board s := by
  unfold revocationFailed
  split <;> simp

@[simp] theorem board_finishRequest (r : Result) (grant : Option Nat) (q : QueryPart) :
    board (finishRequest r grant q s) = board s := by
  unfold finishRequest
  split <;> simp

@[simp] theorem board_requestWait (w : Wait) : board (requestWait w s) = board s := by
  simp [requestWait]

@[simp] theorem board_withRequestRecord (g : Nat) (k : TagRecord → State → State)
    (h : ∀ r t, board (k r t) = board t) : board (withRequestRecord g k s) = board s := by
  unfold withRequestRecord
  split
  · rename_i hl
    rw [h, board_lookup s hl]
  · simp

@[simp] theorem board_offerGrant (i : Nat) (x : GuestRequest) (r : TagRecord) :
    board (offerGrant i x r s) = board s := by
  simp [offerGrant]

@[simp] theorem board_offerStep (x : GuestRequest) (r : TagRecord) : board (offerStep x r s) = board s := by
  unfold offerStep
  (repeat' split) <;> simp

@[simp] theorem board_pinStep (x : GuestRequest) (pinned : Bool) (r : TagRecord) :
    board (pinStep x pinned r s) = board s := by
  unfold pinStep
  (repeat' split) <;> simp

@[simp] theorem board_queryStep (x : GuestRequest) (r : TagRecord) : board (queryStep x r s) = board s := by
  unfold queryStep
  (repeat' split) <;> simp

@[simp] theorem board_withdrawStart (x : GuestRequest) : board (withdrawStart x s) = board s := by
  unfold withdrawStart
  (repeat' split) <;> simp

@[simp] theorem board_withdrawRemoval (i serial : Nat) : board (withdrawRemoval i serial s) = board s := by
  unfold withdrawRemoval
  split <;> simp

@[simp] theorem board_requestStep : board (requestStep s) = board s := by
  unfold requestStep
  (repeat' split) <;> simp

@[simp] theorem board_startRequest (x : GuestRequest) : board (startRequest x s) = board s := by
  unfold startRequest
  split <;> simp

/-! ### FORMAT and FLUSH_TAGS -/

@[simp] theorem board_doFormat (c : Nat) (b : Line) : board (doFormat c b s) = board s := by
  unfold doFormat
  dsimp only
  (repeat' split) <;> simp

@[simp] theorem board_formatComplete (c : Nat) : board (formatComplete c s) = board s := by
  simp [formatComplete]

@[simp] theorem board_formatStep (c : Nat) (a : Active) (base next : Nat) (lowest : Option Nat) :
    board (formatStep c a base next lowest s) = board s := by
  unfold formatStep
  dsimp only
  (repeat' split) <;> simp [board_foldl]

@[simp] theorem board_formatStop (c : Nat) (r : Result) : board (formatStop c r s) = board s := by
  unfold formatStop
  split <;> simp

@[simp] theorem board_formatWriteEnded (line : Nat) (ok : Bool) :
    board (formatWriteEnded line ok s) = board s := by
  unfold formatWriteEnded
  (repeat' split) <;> simp

@[simp] theorem board_doFlushTags (c : Nat) (b : Line) : board (doFlushTags c b s) = board s := by
  simp [doFlushTags]

@[simp] theorem board_flushStep (c : Nat) (a : Active) (x : FlushWork) :
    board (flushStep c a x s) = board s := by
  unfold flushStep
  dsimp only
  (repeat' split) <;> simp

@[simp] theorem board_inheritWrites (lines : List Nat) (c : Nat) : board (inheritWrites lines s c) = board s := by
  unfold inheritWrites
  split <;> simp

@[simp] theorem board_flushStop (c : Nat) (r : Result) (x : FlushWork) : board (flushStop c r x s) = board s := by
  simp [flushStop, board_foldl]

@[simp] theorem board_flushCount (line : Nat) (ok : Bool) (c : Nat) :
    board (flushCount line ok c s) = board s := by
  unfold flushCount
  (repeat' split) <;> simp

@[simp] theorem board_flushEnded (line : Nat) (ok : Bool) : board (flushEnded line ok s) = board s := by
  simp [flushEnded, board_foldl]

/-! ### Control commands -/

@[simp] theorem board_doCreate (c : Nat) (b : Line) : board (doCreate c b s) = board s := by
  unfold doCreate
  dsimp only
  (repeat' split) <;> simp

@[simp] theorem board_moveDomain (c : Nat) (b : Line) (old new : DState) (clear : Bool) :
    board (moveDomain c b old new clear s) = board s := by
  unfold moveDomain
  dsimp only
  (repeat' split) <;> simp

@[simp] theorem board_doStart (c : Nat) (b : Line) : board (doStart c b s) = board s := by
  simp [doStart]

@[simp] theorem board_doPause (c : Nat) (b : Line) : board (doPause c b s) = board s := by
  simp [doPause]

@[simp] theorem board_doResume (c : Nat) (b : Line) : board (doResume c b s) = board s := by
  simp [doResume]

@[simp] theorem board_doUnfence (c : Nat) (b : Line) : board (doUnfence c b s) = board s := by
  simp [doUnfence]

@[simp] theorem board_doSetQuota (c : Nat) (b : Line) : board (doSetQuota c b s) = board s := by
  unfold doSetQuota
  dsimp only
  (repeat' split) <;> simp

@[simp] theorem board_doSetFence (c : Nat) (b : Line) : board (doSetFence c b s) = board s := by
  unfold doSetFence
  dsimp only
  (repeat' split) <;> simp

@[simp] theorem board_doClearDomainCounters (c : Nat) (b : Line) :
    board (doClearDomainCounters c b s) = board s := by
  unfold doClearDomainCounters
  dsimp only
  split <;> simp

@[simp] theorem board_doDomainStatus (c : Nat) (b : Line) : board (doDomainStatus c b s) = board s := by
  unfold doDomainStatus
  split <;> simp

@[simp] theorem board_doActivateGrant (c : Nat) (b : Line) : board (doActivateGrant c b s) = board s := by
  unfold doActivateGrant
  dsimp only
  (repeat' split) <;> simp

@[simp] theorem board_doGrantRead (c : Nat) (b : Line) : board (doGrantRead c b s) = board s := by
  unfold doGrantRead
  dsimp only
  (repeat' split) <;> simp

@[simp] theorem board_doTrackStop (c : Nat) (b : Line) : board (doTrackStop c b s) = board s := by
  unfold doTrackStop
  dsimp only
  (repeat' split) <;> simp

@[simp] theorem board_doTrackStatus (c : Nat) (b : Line) : board (doTrackStatus c b s) = board s := by
  unfold doTrackStatus
  split <;> simp

@[simp] theorem board_doViolationPop (c : Nat) (b : Line) : board (doViolationPop c b s) = board s := by
  unfold doViolationPop
  split <;> simp

@[simp] theorem board_doNoticeConfig (c : Nat) (b : Line) : board (doNoticeConfig c b s) = board s := by
  unfold doNoticeConfig
  dsimp only
  split <;> simp

@[simp] theorem board_doNoticeClear (c : Nat) (b : Line) : board (doNoticeClear c b s) = board s := by
  unfold doNoticeClear
  dsimp only
  (repeat' split) <;> simp [board_foldl]

@[simp] theorem board_doNoticeStatus (c : Nat) (b : Line) : board (doNoticeStatus c b s) = board s := by
  simp [doNoticeStatus]

@[simp] theorem board_moveRegion (c : Nat) (b : Line) (new : RegionState) :
    board (moveRegion c b new s) = board s := by
  unfold moveRegion
  dsimp only
  (repeat' split) <;> simp

@[simp] theorem board_doRegionClear (c : Nat) (b : Line) : board (doRegionClear c b s) = board s := by
  simp [doRegionClear]

@[simp] theorem board_doRegionLockdown (c : Nat) (b : Line) : board (doRegionLockdown c b s) = board s := by
  simp [doRegionLockdown]

@[simp] theorem board_doFreeze (c : Nat) (b : Line) : board (doFreeze c b s) = board s := by
  simp [doFreeze]

@[simp] theorem board_doSetFaultPolicy (c : Nat) (b : Line) : board (doSetFaultPolicy c b s) = board s := by
  unfold doSetFaultPolicy
  dsimp only
  (repeat' split) <;> simp

@[simp] theorem board_doContain (c : Nat) (b : Line) : board (doContain c b s) = board s := by
  unfold doContain
  split <;> simp

@[simp] theorem board_doResumePart (c : Nat) (b : Line) : board (doResumePart c b s) = board s := by
  unfold doResumePart
  (repeat' split) <;> simp

@[simp] theorem board_doPartStatus (c : Nat) (b : Line) : board (doPartStatus c b s) = board s := by
  simp [doPartStatus]

@[simp] theorem board_doAckIntegrity (c : Nat) (b : Line) : board (doAckIntegrity c b s) = board s := by
  simp [doAckIntegrity]

@[simp] theorem board_doClearIntegrityCount (c : Nat) (b : Line) :
    board (doClearIntegrityCount c b s) = board s := by
  simp [doClearIntegrityCount]

@[simp] theorem board_doSetCorrectedLimit (c : Nat) (b : Line) :
    board (doSetCorrectedLimit c b s) = board s := by
  unfold doSetCorrectedLimit
  dsimp only
  (repeat' split) <;> simp

@[simp] theorem board_doPoisonRead (c : Nat) (b : Line) : board (doPoisonRead c b s) = board s := by
  unfold doPoisonRead
  dsimp only
  (repeat' split) <;> simp

@[simp] theorem board_stopCommand (c : Nat) : board (stopCommand c s) = board s := by
  unfold stopCommand
  (repeat' split) <;> simp

@[simp] theorem board_requestStop (c : Nat) : board (requestStop c s) = board s := by
  unfold requestStop
  dsimp only
  split <;> simp

@[simp] theorem board_doAbort (c : Nat) (b : Line) : board (doAbort c b s) = board s := by
  unfold doAbort
  dsimp only
  (repeat' split) <;> simp

@[simp] theorem board_doResetEngines (c : Nat) (b : Line) : board (doResetEngines c b s) = board s := by
  simp [doResetEngines, board_foldl]

/-! ### The engine -/

@[simp] theorem board_doRegionSet (c : Nat) (b : Line) : board (doRegionSet c b s) = board s := by
  unfold doRegionSet
  dsimp only
  split <;> simp

@[simp] theorem board_regionVisit (c i f n : Nat) (noAccess : Bool) (done : Nat) (r : TagRecord) :
    board (regionVisit c i f n noAccess done r s) = board s := by
  unfold regionVisit
  (repeat' split) <;> simp

@[simp] theorem board_chanStep (c : Nat) (a : Active) : board (chanStep c a s) = board s := by
  unfold chanStep
  (repeat' split) <;> simp

@[simp] theorem board_runCommand (cmd : Cmd) (c : Nat) (b : Line) : board (runCommand cmd c b s) = board s := by
  unfold runCommand
  split <;> simp

@[simp] theorem board_takeCommand (cmd : Cmd) (c : Nat) (b : Line) :
    board (takeCommand cmd c b s) = board s := by
  unfold takeCommand
  dsimp only
  (repeat' split) <;> simp

@[simp] theorem board_retakeStep (c : Nat) : board (retakeStep c s) = board s := by
  unfold retakeStep
  (repeat' split) <;> simp

@[simp] theorem board_stepBegins (c : Nat) (a : Active) : board (stepBegins c a s) = board s := by
  unfold stepBegins
  split <;> simp

@[simp] theorem board_runJob (j : Job) : board (runJob j s) = board s := by
  unfold runJob
  (repeat' split) <;> simp

@[simp] theorem board_runLoop (n : Nat) : board (runLoop n s) = board s := by
  induction n generalizing s with
  | zero => rfl
  | succ n ih => unfold runLoop; split <;> simp [ih]

@[simp] theorem board_settle : board (settle s) = board s := board_runLoop s _

@[simp] theorem board_placeTx : board (placeTx s) = board s := by
  unfold placeTx
  (repeat' split) <;> simp

@[simp] theorem board_finish : board (finish s) = board s := by
  simp [finish]

/-! ### Ends of own requests and stages -/

@[simp] theorem board_resumeChannel (line : Nat) (c : Nat) : board (resumeChannel line s c) = board s := by
  simp [resumeChannel]

@[simp] theorem board_resumeLine (line : Nat) : board (resumeLine line s) = board s := by
  simp [resumeLine, board_foldl]

@[simp] theorem board_tryLand (serial : Nat) : board (tryLand serial s) = board s := by
  unfold tryLand
  (repeat' split) <;> simp

@[simp] theorem board_commandFillFailed (line : Nat) (c : Nat) :
    board (commandFillFailed line s c) = board s := by
  unfold commandFillFailed
  (repeat' split) <;> simp

@[simp] theorem board_undoFillFailed (line : Nat) (c : Nat) : board (undoFillFailed line s c) = board s := by
  unfold undoFillFailed
  (repeat' split) <;> simp

@[simp] theorem board_stepsFailed (line : Nat) : board (stepsFailed line s) = board s := by
  unfold stepsFailed
  dsimp only
  (repeat' split) <;> simp [board_foldl]

@[simp] theorem board_failFill (serial : Nat) : board (failFill serial s) = board s := by
  unfold failFill
  dsimp only
  (repeat' split) <;> simp [board_foldl]

@[simp] theorem board_fillData (serial : Nat) (d : RecordRead × RecordRead × RecordRead × RecordRead) :
    board (fillData serial d s) = board s := by
  simp [fillData]

@[simp] theorem board_keepUndo (c : Nat) : board (keepUndo s c) = board s := by
  unfold keepUndo
  dsimp only
  split <;> simp

@[simp] theorem board_clearChannel (owner : Nat) (c : Nat) : board (clearChannel owner s c) = board s := by
  simp [clearChannel]

@[simp] theorem board_clearNoticeMarks : board (clearNoticeMarks s) = board s := by
  simp [clearNoticeMarks, board_foldl]

@[simp] theorem board_clearingStep (w : WarmReset) : board (clearingStep w s) = board s := by
  simp [clearingStep, board_foldl]

@[simp] theorem board_beginRevocation (w : WarmReset) : board (beginRevocation w s) = board s := by
  simp [beginRevocation]

@[simp] theorem board_writeBackStages : board (writeBackStages s) = board s := by
  unfold writeBackStages
  dsimp only
  (repeat' split) <;> simp

@[simp] theorem board_noteWriteEnded (line : Nat) (ok : Bool) : board (noteWriteEnded line ok s) = board s := by
  simp [noteWriteEnded]

@[simp] theorem board_afterSettling : board (afterSettling s) = board s := by
  unfold afterSettling
  dsimp only
  (repeat' split) <;> simp [board_foldl]

@[simp] theorem board_writeBackOk (key line : Nat) (changed : Bool) :
    board (writeBackOk key line changed s) = board s := by
  unfold writeBackOk
  (repeat' split) <;> simp

@[simp] theorem board_writeBackDone (key line : Nat) (changed ok : Bool) :
    board (writeBackDone key line changed ok s) = board s := by
  unfold writeBackDone
  dsimp only
  (repeat' split) <;> simp

@[simp] theorem board_jobEnded (o : Outstanding) (ok : Bool) : board (jobEnded o ok s) = board s := by
  unfold jobEnded
  split <;> simp

theorem board_writeCompletion (cls : ReqClass) (tag : Nat) (status : DownStatus) {t : State} (h :
      writeCompletion cls tag status s = some t) : board t = board s := by
  unfold writeCompletion at h
  (repeat' split at h) <;> simp at h <;> subst h <;> simp

theorem board_fillCompletion (tag : Nat) (reply : FillReply) {t : State} (h : fillCompletion tag reply s =
      some t) : board t = board s := by
  unfold fillCompletion at h
  (repeat' split at h) <;> simp at h <;> subst h <;> simp

theorem board_ownTimeout (tag : Nat) {t : State} (h : ownTimeout tag s = some t) : board t = board s := by
  unfold ownTimeout at h
  split at h <;> simp at h
  subst h
  simp

theorem board_heldTagRelease (tag : Nat) {t : State} (h : heldTagRelease tag s = some t) : board t = board s
      := by
  unfold heldTagRelease at h
  split at h <;> simp at h
  subst h
  simp

theorem board_staleDiscard (tag : Nat) {t : State} (h : staleDiscard tag s = some t) : board t = board s := by
  unfold staleDiscard at h
  split at h <;> simp at h
  subst h
  simp

theorem board_orphanLimit (i : Nat) {t : State} (h : orphanLimit i s = some t) : board t = board s := by
  unfold orphanLimit at h
  dsimp only at h
  (repeat' split at h) <;> simp at h <;> subst h <;> simp

@[simp] theorem board_dropOrdered (c : Nat) : board (dropOrdered c s) = board s := by
  unfold dropOrdered
  split <;> simp

@[simp] theorem board_abandon (c : Nat) : board (abandon s c) = board s := by
  simp [abandon]

@[simp] theorem board_dropUnissued : board (dropUnissued s) = board s := by
  simp [dropUnissued]

@[simp] theorem board_flushGoesOn : board (flushGoesOn s) = board s := by
  unfold flushGoesOn
  split <;> simp

@[simp] theorem board_powerEdge : board (powerEdge s) = board s := by
  simp [powerEdge, board_foldl]

/-! ### The check -/

@[simp] theorem board_takeGuestRequest (x : GuestRequest) : board (takeGuestRequest x s) = board s := by
  simp [takeGuestRequest]

@[simp] theorem board_guestWrite (r : Request) : board (guestWrite r s) = board s := by
  unfold guestWrite
  dsimp only
  split <;> simp

@[simp] theorem board_guestLine (r : Request) : board (guestLine r s) = board s := by
  unfold guestLine
  (repeat' split) <;> simp

@[simp] theorem board_submit (r : Request) (c : Nat) : board (submit r c s) = board s := by
  unfold submit
  dsimp only
  (repeat' split) <;> simp

@[simp] theorem board_readResponse (r : Request) (c : Nat) : board (readResponse r c s) = board s := by
  unfold readResponse
  dsimp only
  split <;> simp

@[simp] theorem board_management (r : Request) (offset : Nat) : board (management r offset s) = board s := by
  unfold management
  split <;> simp

@[simp] theorem board_refuseLogged (r : Request) (reason : Reason) (seen : Option TagRecord) (status : Status) :
    board (refuseLogged r reason seen status s) = board s := by
  simp [refuseLogged]

@[simp] theorem board_decideByRecord (r : Request) (g : Nat) (rec : TagRecord) :
    board (decideByRecord r g rec s) = board s := by
  unfold decideByRecord
  (repeat' split) <;> simp

@[simp] theorem board_checkRecordStep (r : Request) (g : Nat) : board (checkRecordStep r g s) = board s := by
  unfold checkRecordStep
  split
  · simp [board_lookup s ‹lookup _ _ = _›]
  · simp

@[simp] theorem board_checkGranule (r : Request) (g : Nat) : board (checkGranule r g s) = board s := by
  unfold checkGranule
  (repeat' split) <;> simp

@[simp] theorem board_checkDomain (r : Request) (g : Nat) : board (checkDomain r g s) = board s := by
  unfold checkDomain
  (repeat' split) <;> simp

@[simp] theorem board_checkGoverned (r : Request) (g : Nat) : board (checkGoverned r g s) = board s := by
  unfold checkGoverned
  (repeat' split) <;> simp

@[simp] theorem board_checkAperture (r : Request) (offset : Nat) :
    board (checkAperture r offset s) = board s := by
  unfold checkAperture
  (repeat' split) <;> simp

@[simp] theorem board_check (r : Request) : board (check r s) = board s := by
  unfold check
  (repeat' split) <;> simp

@[simp] theorem board_refuseDuplicate (r : Request) : board (refuseDuplicate r s) = board s := by
  simp [refuseDuplicate]

@[simp] theorem board_takeRequest (r : Request) : board (takeRequest r s) = board s := by
  unfold takeRequest
  split <;> simp

theorem board_offerRequest (r : Request) {t : State} (h : offerRequest r s = some t) : board t = board s := by
  unfold offerRequest at h
  split at h <;> simp at h
  subst h
  simp

theorem board_presentReleased  {t : State} (h : presentReleased s = some t) : board t = board s := by
  unfold presentReleased at h
  split at h <;> simp at h
  subst h
  simp

/-! ### Rows -/

theorem board_heldForward  {t : State} (h : heldForward s = some t) : board t = board s := by
  unfold heldForward at h
  split at h <;> simp at h
  subst h
  simp

theorem board_completionTaken  {t : State} (h : completionTaken s = some t) : board t = board s := by
  unfold completionTaken at h
  split at h <;> simp at h
  subst h
  simp

theorem board_noticeTaken  {t : State} (h : noticeTaken s = some t) : board t = board s := by
  unfold noticeTaken at h
  split at h <;> simp at h
  subst h
  simp

@[simp] theorem board_linkDown : board (linkDown s) = board { s with upLink := false } := by
  simp [linkDown, mapDrains]

theorem board_fillClaims (set way : Nat) {t : State} (h : fillClaims set way s = some t) : board t = board s
      := by
  unfold fillClaims at h
  (repeat' split at h) <;> simp at h <;> subst h <;> simp

theorem board_waitListStart  {t : State} (h : waitListStart s = some t) : board t = board s := by
  unfold waitListStart at h
  (repeat' split at h) <;> simp at h <;> subst h <;> simp

theorem board_formatDrained (c : Nat) {t : State} (h : formatDrained c s = some t) : board t = board s := by
  unfold formatDrained at h
  split at h <;> simp at h
  subst h
  simp

theorem board_unitGrant  {t : State} (h : unitGrant s = some t) : board t = board s := by
  unfold unitGrant at h
  split at h <;> simp at h
  subst h
  simp

theorem board_granuleDrained (c : Nat) {t : State} (h : granuleDrained c s = some t) : board t = board s := by
  unfold granuleDrained at h
  split at h <;> simp at h
  subst h
  simp

theorem board_clearanceDrained (c : Nat) {t : State} (h : clearanceDrained c s = some t) : board t = board s
      := by
  unfold clearanceDrained at h
  split at h <;> simp at h
  subst h
  simp

theorem board_claimReleased (c : Nat) {t : State} (h : claimReleased c s = some t) : board t = board s := by
  unfold claimReleased at h
  (repeat' split at h) <;> simp at h <;> subst h <;> simp

theorem board_removalDue (who : Remover) {t : State} (h : removalDue who s = some t) : board t = board s := by
  unfold removalDue at h
  (repeat' split at h) <;> simp at h <;> subst h <;> simp

theorem board_groupDrained (c : Nat) {t : State} (h : groupDrained c s = some t) : board t = board s := by
  unfold groupDrained at h
  split at h <;> simp at h
  subst h
  simp

theorem board_startHead (k : GuestKind) {t : State} (h : startHead k s = some t) : board t = board s := by
  unfold startHead at h
  (repeat' split at h) <;> simp at h <;> subst h <;> simp

theorem board_takeRun (cmd : Cmd) (c : Nat) {t : State} (h : takeRun cmd c s = some t) : board t = board s := by
  simp only [takeRun, Option.map_eq_some_iff] at h
  obtain ⟨b, -, rfl⟩ := h
  simp

theorem board_takeControl (cmd : Cmd) (c : Nat) {t : State} (h : takeControl cmd c s = some t) :
    board t = board s := by
  simp only [takeControl, Option.map_eq_some_iff] at h
  obtain ⟨b, -, rfl⟩ := h
  simp

theorem board_powerWarn {t : State} (h : powerWarn s = some t) : board t = board { s with warnLine := true }
      := by
  unfold powerWarn at h
  split at h <;> simp at h
  subst h
  split <;> simp

theorem board_faultAssert {t : State} (h : faultAssert s = some t) :
    board t = board { s with faultLine := true } := by
  unfold faultAssert at h
  split at h <;> simp at h
  subst h
  split <;> simp

/-- A row whose step keeps the board, when its step is possible, keeps it in every outcome. -/
theorem board_answerStep {o : Option State} (h : ∀ t, o = some t → board t = board s) {t : State}
    (ht : answerStep s o = .next t) : board t = board s := by
  unfold answerStep at ht
  split at ht <;> simp at ht <;> subst ht
  · simpa using h _ rfl
  · rfl

end Sys2Proof.Machine
end

