-- ==== Sys2Proof/Laws/PerInstr.lean ====
section
/-!
SUPPORT. A law of every command, one lemma for each constructor of `Instr`: an own-request tag that a
well-formed command names is one of the tags 256 to 607 (R10).
-/

namespace Sys2Proof.Laws

/-- An own-request tag that a well-formed command names is one of the part's own (R10). -/
def OwnTagInRange.Statement (i : Instr) : Prop :=
  i.wellFormed = true → ∀ t, i.ownTag = some t → 256 ≤ t.val ∧ t.val < 608

theorem isOwnTag_range {tag : Fin 1024} (h : isOwnTag tag = true) : 256 ≤ tag.val ∧ tag.val < 608 :=
  of_decide_eq_true h

theorem hasTag_range {cls : ReqClass} {tag : Fin 1024} (hc : cls ≠ .forwarded) (h : cls.hasTag tag = true) :
    256 ≤ tag.val ∧ tag.val < 608 := by
  have h' : cls.tagRange.1 ≤ tag.val ∧ tag.val < cls.tagRange.1 + cls.tagRange.2 := of_decide_eq_true h
  cases cls <;> simp only [ReqClass.tagRange] at h'
  · exact absurd rfl hc
  all_goals exact ⟨by omega, by omega⟩

theorem OwnTagInRange.coldReset (spanBase : Fin 1024) (spanSize : Fin 8) :
    OwnTagInRange.Statement (.coldReset spanBase spanSize) := by
  intro _ t ht
  cases ht

theorem OwnTagInRange.requestTaken (r : Request) :
    OwnTagInRange.Statement (.requestTaken r) := by
  intro _ t ht
  cases ht

theorem OwnTagInRange.presentReleasedWaiter :
    OwnTagInRange.Statement (.presentReleasedWaiter) := by
  intro _ t ht
  cases ht

theorem OwnTagInRange.heldTransactionForward :
    OwnTagInRange.Statement (.heldTransactionForward) := by
  intro _ t ht
  cases ht

theorem OwnTagInRange.completionTaken :
    OwnTagInRange.Statement (.completionTaken) := by
  intro _ t ht
  cases ht

theorem OwnTagInRange.noticePacketTaken :
    OwnTagInRange.Statement (.noticePacketTaken) := by
  intro _ t ht
  cases ht

theorem OwnTagInRange.upstreamLinkDown :
    OwnTagInRange.Statement (.upstreamLinkDown) := by
  intro _ t ht
  cases ht

theorem OwnTagInRange.upstreamLinkUp :
    OwnTagInRange.Statement (.upstreamLinkUp) := by
  intro _ t ht
  cases ht

theorem OwnTagInRange.downstreamLinkDown :
    OwnTagInRange.Statement (.downstreamLinkDown) := by
  intro _ t ht
  cases ht

theorem OwnTagInRange.downstreamLinkUp :
    OwnTagInRange.Statement (.downstreamLinkUp) := by
  intro _ t ht
  cases ht

theorem OwnTagInRange.downstreamOfferTaken :
    OwnTagInRange.Statement (.downstreamOfferTaken) := by
  intro _ t ht
  cases ht

theorem OwnTagInRange.downstreamTagGrant (cls : ReqClass) :
    OwnTagInRange.Statement (.downstreamTagGrant cls) := by
  intro _ t ht
  cases ht

theorem OwnTagInRange.forwardedCompletion (tag : Fin 256) (status : DownStatus) (data : Line) :
    OwnTagInRange.Statement (.forwardedCompletion tag status data) := by
  intro _ t ht
  cases ht

theorem OwnTagInRange.staleCompletionDiscard (tag : Fin 1024) :
    OwnTagInRange.Statement (.staleCompletionDiscard tag) := by
  intro _ t ht
  cases ht

theorem OwnTagInRange.forwardedTimeout (tag : Fin 256) :
    OwnTagInRange.Statement (.forwardedTimeout tag) := by
  intro _ t ht
  cases ht

theorem OwnTagInRange.orphanLimit (tag : Fin 256) :
    OwnTagInRange.Statement (.orphanLimit tag) := by
  intro _ t ht
  cases ht

theorem OwnTagInRange.ownRequestTimeout (tag : Fin 1024) :
    OwnTagInRange.Statement (.ownRequestTimeout tag) := by
  intro h t ht
  obtain rfl := Option.some.inj ht
  exact isOwnTag_range h

theorem OwnTagInRange.heldTagRelease (tag : Fin 1024) :
    OwnTagInRange.Statement (.heldTagRelease tag) := by
  intro h t ht
  obtain rfl := Option.some.inj ht
  exact isOwnTag_range h

theorem OwnTagInRange.fillReadCompletion (tag : Fin 1024) (reply : FillReply) :
    OwnTagInRange.Statement (.fillReadCompletion tag reply) := by
  intro h t ht
  obtain rfl := Option.some.inj ht
  exact hasTag_range (by decide) h

theorem OwnTagInRange.fillClaimsWay (set : Fin 256) (way : Fin 8) :
    OwnTagInRange.Statement (.fillClaimsWay set way) := by
  intro _ t ht
  cases ht

theorem OwnTagInRange.fillWaitListStart :
    OwnTagInRange.Statement (.fillWaitListStart) := by
  intro _ t ht
  cases ht

theorem OwnTagInRange.writeBackCompletion (tag : Fin 1024) (status : DownStatus) :
    OwnTagInRange.Statement (.writeBackCompletion tag status) := by
  intro h t ht
  obtain rfl := Option.some.inj ht
  exact hasTag_range (by decide) h

theorem OwnTagInRange.formatWriteCompletion (tag : Fin 1024) (status : DownStatus) :
    OwnTagInRange.Statement (.formatWriteCompletion tag status) := by
  intro h t ht
  obtain rfl := Option.some.inj ht
  exact hasTag_range (by decide) h

theorem OwnTagInRange.formatDrainDone (c : Fin 4) :
    OwnTagInRange.Statement (.formatDrainDone c) := by
  intro _ t ht
  cases ht

theorem OwnTagInRange.zeroWriteCompletion (tag : Fin 1024) (status : DownStatus) :
    OwnTagInRange.Statement (.zeroWriteCompletion tag status) := by
  intro h t ht
  obtain rfl := Option.some.inj ht
  exact hasTag_range (by decide) h

theorem OwnTagInRange.scrubUnitGrant :
    OwnTagInRange.Statement (.scrubUnitGrant) := by
  intro _ t ht
  cases ht

theorem OwnTagInRange.granuleDrainDone (c : Fin 4) :
    OwnTagInRange.Statement (.granuleDrainDone c) := by
  intro _ t ht
  cases ht

theorem OwnTagInRange.retireClearanceDrainsDone (c : Fin 4) :
    OwnTagInRange.Statement (.retireClearanceDrainsDone c) := by
  intro _ t ht
  cases ht

theorem OwnTagInRange.retireClaimReleased (c : Fin 4) :
    OwnTagInRange.Statement (.retireClaimReleased c) := by
  intro _ t ht
  cases ht

theorem OwnTagInRange.revocationRemoval (who : Remover) :
    OwnTagInRange.Statement (.revocationRemoval who) := by
  intro _ t ht
  cases ht

theorem OwnTagInRange.harvestGroupDrained (c : Fin 4) :
    OwnTagInRange.Statement (.harvestGroupDrained c) := by
  intro _ t ht
  cases ht

theorem OwnTagInRange.harvestWriteCompletion (tag : Fin 1024) (status : DownStatus) :
    OwnTagInRange.Statement (.harvestWriteCompletion tag status) := by
  intro h t ht
  obtain rfl := Option.some.inj ht
  exact hasTag_range (by decide) h

theorem OwnTagInRange.submission (tag : Fin 1024) (c : Fin 4) (block : Line) :
    OwnTagInRange.Statement (.submission tag c block) := by
  intro _ t ht
  cases ht

theorem OwnTagInRange.responseRead (tag : Fin 1024) (c : Fin 4) :
    OwnTagInRange.Statement (.responseRead tag c) := by
  intro _ t ht
  cases ht

theorem OwnTagInRange.apertureOtherWrite (tag : Fin 1024) (kind : AccessKind) (line : Fin 1024) (mask :
    ByteMask) (data : Line) :
    OwnTagInRange.Statement (.apertureOtherWrite tag kind line mask data) := by
  intro _ t ht
  cases ht

theorem OwnTagInRange.domainRequestWrite (tag : Fin 1024) (domain : Fin 512) (masked : Bool) (mask :
    ByteMask) (data : Line) :
    OwnTagInRange.Statement (.domainRequestWrite tag domain masked mask data) := by
  intro _ t ht
  cases ht

theorem OwnTagInRange.domainRequestRead (tag : Fin 1024) (domain : Fin 512) :
    OwnTagInRange.Statement (.domainRequestRead tag domain) := by
  intro _ t ht
  cases ht

theorem OwnTagInRange.offer :
    OwnTagInRange.Statement (.offer) := by
  intro _ t ht
  cases ht

theorem OwnTagInRange.withdraw :
    OwnTagInRange.Statement (.withdraw) := by
  intro _ t ht
  cases ht

theorem OwnTagInRange.pin :
    OwnTagInRange.Statement (.pin) := by
  intro _ t ht
  cases ht

theorem OwnTagInRange.unpin :
    OwnTagInRange.Statement (.unpin) := by
  intro _ t ht
  cases ht

theorem OwnTagInRange.query :
    OwnTagInRange.Statement (.query) := by
  intro _ t ht
  cases ht

theorem OwnTagInRange.format (c : Fin 4) :
    OwnTagInRange.Statement (.format c) := by
  intro _ t ht
  cases ht

theorem OwnTagInRange.assign (c : Fin 4) :
    OwnTagInRange.Statement (.assign c) := by
  intro _ t ht
  cases ht

theorem OwnTagInRange.release (c : Fin 4) :
    OwnTagInRange.Statement (.release c) := by
  intro _ t ht
  cases ht

theorem OwnTagInRange.restore (c : Fin 4) :
    OwnTagInRange.Statement (.restore c) := by
  intro _ t ht
  cases ht

theorem OwnTagInRange.queryGranules (c : Fin 4) :
    OwnTagInRange.Statement (.queryGranules c) := by
  intro _ t ht
  cases ht

theorem OwnTagInRange.retire (c : Fin 4) :
    OwnTagInRange.Statement (.retire c) := by
  intro _ t ht
  cases ht

theorem OwnTagInRange.revokeGrant (c : Fin 4) :
    OwnTagInRange.Statement (.revokeGrant c) := by
  intro _ t ht
  cases ht

theorem OwnTagInRange.trackStart (c : Fin 4) :
    OwnTagInRange.Statement (.trackStart c) := by
  intro _ t ht
  cases ht

theorem OwnTagInRange.trackCollect (c : Fin 4) :
    OwnTagInRange.Statement (.trackCollect c) := by
  intro _ t ht
  cases ht

theorem OwnTagInRange.flushTags (c : Fin 4) :
    OwnTagInRange.Statement (.flushTags c) := by
  intro _ t ht
  cases ht

theorem OwnTagInRange.regionSet (c : Fin 4) :
    OwnTagInRange.Statement (.regionSet c) := by
  intro _ t ht
  cases ht

theorem OwnTagInRange.create (c : Fin 4) :
    OwnTagInRange.Statement (.create c) := by
  intro _ t ht
  cases ht

theorem OwnTagInRange.start (c : Fin 4) :
    OwnTagInRange.Statement (.start c) := by
  intro _ t ht
  cases ht

theorem OwnTagInRange.pause (c : Fin 4) :
    OwnTagInRange.Statement (.pause c) := by
  intro _ t ht
  cases ht

theorem OwnTagInRange.resume (c : Fin 4) :
    OwnTagInRange.Statement (.resume c) := by
  intro _ t ht
  cases ht

theorem OwnTagInRange.unfence (c : Fin 4) :
    OwnTagInRange.Statement (.unfence c) := by
  intro _ t ht
  cases ht

theorem OwnTagInRange.setQuota (c : Fin 4) :
    OwnTagInRange.Statement (.setQuota c) := by
  intro _ t ht
  cases ht

theorem OwnTagInRange.setFence (c : Fin 4) :
    OwnTagInRange.Statement (.setFence c) := by
  intro _ t ht
  cases ht

theorem OwnTagInRange.clearDomainCounters (c : Fin 4) :
    OwnTagInRange.Statement (.clearDomainCounters c) := by
  intro _ t ht
  cases ht

theorem OwnTagInRange.domainStatus (c : Fin 4) :
    OwnTagInRange.Statement (.domainStatus c) := by
  intro _ t ht
  cases ht

theorem OwnTagInRange.activateGrant (c : Fin 4) :
    OwnTagInRange.Statement (.activateGrant c) := by
  intro _ t ht
  cases ht

theorem OwnTagInRange.grantRead (c : Fin 4) :
    OwnTagInRange.Statement (.grantRead c) := by
  intro _ t ht
  cases ht

theorem OwnTagInRange.trackStop (c : Fin 4) :
    OwnTagInRange.Statement (.trackStop c) := by
  intro _ t ht
  cases ht

theorem OwnTagInRange.trackStatus (c : Fin 4) :
    OwnTagInRange.Statement (.trackStatus c) := by
  intro _ t ht
  cases ht

theorem OwnTagInRange.violationPop (c : Fin 4) :
    OwnTagInRange.Statement (.violationPop c) := by
  intro _ t ht
  cases ht

theorem OwnTagInRange.noticeConfig (c : Fin 4) :
    OwnTagInRange.Statement (.noticeConfig c) := by
  intro _ t ht
  cases ht

theorem OwnTagInRange.noticeClear (c : Fin 4) :
    OwnTagInRange.Statement (.noticeClear c) := by
  intro _ t ht
  cases ht

theorem OwnTagInRange.noticeStatus (c : Fin 4) :
    OwnTagInRange.Statement (.noticeStatus c) := by
  intro _ t ht
  cases ht

theorem OwnTagInRange.regionClear (c : Fin 4) :
    OwnTagInRange.Statement (.regionClear c) := by
  intro _ t ht
  cases ht

theorem OwnTagInRange.regionLockdown (c : Fin 4) :
    OwnTagInRange.Statement (.regionLockdown c) := by
  intro _ t ht
  cases ht

theorem OwnTagInRange.freeze (c : Fin 4) :
    OwnTagInRange.Statement (.freeze c) := by
  intro _ t ht
  cases ht

theorem OwnTagInRange.setFaultPolicy (c : Fin 4) :
    OwnTagInRange.Statement (.setFaultPolicy c) := by
  intro _ t ht
  cases ht

theorem OwnTagInRange.contain (c : Fin 4) :
    OwnTagInRange.Statement (.contain c) := by
  intro _ t ht
  cases ht

theorem OwnTagInRange.resumePart (c : Fin 4) :
    OwnTagInRange.Statement (.resumePart c) := by
  intro _ t ht
  cases ht

theorem OwnTagInRange.ackIntegrity (c : Fin 4) :
    OwnTagInRange.Statement (.ackIntegrity c) := by
  intro _ t ht
  cases ht

theorem OwnTagInRange.clearIntegrityCount (c : Fin 4) :
    OwnTagInRange.Statement (.clearIntegrityCount c) := by
  intro _ t ht
  cases ht

theorem OwnTagInRange.setCorrectedLimit (c : Fin 4) :
    OwnTagInRange.Statement (.setCorrectedLimit c) := by
  intro _ t ht
  cases ht

theorem OwnTagInRange.poisonRead (c : Fin 4) :
    OwnTagInRange.Statement (.poisonRead c) := by
  intro _ t ht
  cases ht

theorem OwnTagInRange.partStatus (c : Fin 4) :
    OwnTagInRange.Statement (.partStatus c) := by
  intro _ t ht
  cases ht

theorem OwnTagInRange.abort (c : Fin 4) :
    OwnTagInRange.Statement (.abort c) := by
  intro _ t ht
  cases ht

theorem OwnTagInRange.resetEngines (c : Fin 4) :
    OwnTagInRange.Statement (.resetEngines c) := by
  intro _ t ht
  cases ht

theorem OwnTagInRange.warmResetSettled :
    OwnTagInRange.Statement (.warmResetSettled) := by
  intro _ t ht
  cases ht

theorem OwnTagInRange.powerWarn :
    OwnTagInRange.Statement (.powerWarn) := by
  intro _ t ht
  cases ht

theorem OwnTagInRange.powerWarnQuiesced :
    OwnTagInRange.Statement (.powerWarnQuiesced) := by
  intro _ t ht
  cases ht

theorem OwnTagInRange.platformFaultAssert :
    OwnTagInRange.Statement (.platformFaultAssert) := by
  intro _ t ht
  cases ht

theorem OwnTagInRange.platformFaultDeassert :
    OwnTagInRange.Statement (.platformFaultDeassert) := by
  intro _ t ht
  cases ht

theorem OwnTagInRange.powerWarnDeassert :
    OwnTagInRange.Statement (.powerWarnDeassert) := by
  intro _ t ht
  cases ht

end Sys2Proof.Laws
end

