-- ==== Sys2Proof/Laws/Refusals.lean ====
section
/-!
SUPPORT. The notice sources after a raising (R189), and the one lemma that says what recording a refusal raises (R75,
R101, R186).
-/

namespace Sys2Proof.Machine

variable {s t u : State}

/-- A raising sets the mark of its own source and leaves every other source (R189). -/
theorem sourceOf_raise (n : NoticeName) (y : Nat) : sourceOf (raise n s) y =
    if y = noticeNumber n ∧ (sourceOf s y).pending = false then
      { sourceOf s y with pending := true, notified := false } else sourceOf s y := by
  unfold raise; dsimp only; split
  · rename_i h
    split
    · rename_i h'; rw [← h'.1, h'.2] at h; cases h
    · rfl
  · rename_i h
    rw [sourceOf_setSource]
    by_cases hy : y = noticeNumber n
    · subst hy; simp [h]
    · simp [hy]

theorem RaisedOnly.nil (h : t.notices = s.notices) : RaisedOnly [] s t := fun n => by
  simp [sourceOf, h]

theorem RaisedOnly.trans {l m : List Nat} (h : RaisedOnly l s t) (k : RaisedOnly m t u) : RaisedOnly (l ++ m) s u :=
  fun n => ⟨(k n).1.trans (h n).1, by rw [(k n).2, (h n).2, List.mem_append, or_assoc]⟩

theorem raisedOnly_raise (n : NoticeName) (h : t.notices = s.notices) : RaisedOnly [noticeNumber n] s (raise n t) :=
  fun y => by
    have hs : sourceOf s y = sourceOf t y := by simp [sourceOf, h]
    rw [sourceOf_raise, hs]
    by_cases hy : y = noticeNumber n
    · subst hy; cases hp : (sourceOf t (noticeNumber n)).pending <;> simp [hp]
    · simp [hy]

/-- The log takes a record, raising VIOLATION in an empty log and LOG_FULL in a full one (R186). -/
theorem logViolation_raises (v : Violation) :
    RaisedOnly (if s.log = [] then [0] else if s.log.length < 32 then [] else [1]) s (logViolation v s) := by
  unfold logViolation
  simp only [List.length_eq_zero_iff]
  split
  · exact raisedOnly_raise .violation rfl
  · change RaisedOnly (if s.log.length < Config.logRecords then [] else [1]) s _
    split
    · exact .nil rfl
    · exact raisedOnly_raise .logFull rfl

/-- The log takes a record, or drops it where it is full (R186). -/
theorem logViolation_log (v : Violation) : (logViolation v s).log = logWith s.log v := by
  unfold logViolation logWith
  cases hl : s.log with
  | nil => simp
  | cons x l => simp only [List.length_cons, Nat.add_one_ne_zero, if_false]; split <;> simp_all [Config.logRecords]

/-- A counted refusal writes an entry and makes the fencing test, which decides the entry that stands (R100, R101). -/
theorem countViolation_entry (d a : Nat) : ∃ e, countViolation d a s = fenceTest d (setDom d e s) ∧
    countedEntry (dom s d) a = (if fences e then { e with state := .fenced } else e) ∧
      (fences e = true ↔ (countedEntry (dom s d) a).state ≠ (dom s d).state) := by
  refine ⟨_, rfl, ?_⟩
  unfold countedEntry fences
  cases hs : (dom s d).state <;> simp [Config.violationMax] <;> split <;> simp_all

/-- A counted refusal changes its domain's entry, and raises DOMAIN_FENCED where that fences it (R100, R101). -/
theorem countViolation_counted (d a : Nat) :
    RaisedOnly (if (countedEntry (dom s d) a).state ≠ (dom s d).state then [2] else []) s (countViolation d a s) ∧
      (countViolation d a s).log = s.log ∧ DomainNow d (countedEntry (dom s d) a) s (countViolation d a s) := by
  obtain ⟨e, hc, he, hf⟩ := countViolation_entry (s := s) d a
  rw [hc]
  unfold fenceTest
  simp only [dom_setDom_same]
  by_cases h : fences e = true
  · rw [if_pos h] at he ⊢
    rw [if_pos (hf.1 h), he]
    exact ⟨raisedOnly_raise .domainFenced rfl, by simp, by simp, fun x hx => by simp [dom_setDom, hx]⟩
  · rw [if_neg h] at he ⊢
    rw [if_neg (mt hf.2 h), he]
    exact ⟨.nil rfl, rfl, by simp, fun x hx => by simp [dom_setDom, hx]⟩

/-- What recording a refusal does (R75, R100, R101, R186). -/
theorem violate_recorded (r : Request) (reason : Reason) (seen : Option TagRecord) :
    Recorded r reason seen s (violate r.domain.val (decide (r.kind ≠ .read)) (lineOf r) reason seen s) := by
  have hd : ∀ x, dom (logViolation (violationOf r reason seen) s) x = dom s x :=
    fun x => by rw [logViolation_shape]; rfl
  have hl := logViolation_raises (s := s) (violationOf r reason seen)
  have hg := logViolation_log (s := s) (violationOf r reason seen)
  have hv : violate r.domain.val (decide (r.kind ≠ .read)) (lineOf r) reason seen s =
      if isCounted reason = true then
        countViolation r.domain.val (lineOf r) (logViolation (violationOf r reason seen) s)
      else logViolation (violationOf r reason seen) s := rfl
  rw [hv]
  generalize logViolation (violationOf r reason seen) s = t at hd hl hg ⊢
  obtain ⟨hr, hg', hn, ho⟩ := countViolation_counted (s := t) r.domain.val (lineOf r)
  rw [hd] at hr hn
  unfold Recorded raisedBy
  cases isCounted reason
  · exact ⟨by simpa using hl, hg, hd⟩
  · exact ⟨by simpa using hl.trans hr, hg'.trans hg, hn, fun x hx => (ho x hx).trans (hd x)⟩

end Sys2Proof.Machine
end

