-- ==== Sys2Proof/Laws/Work.lean ====
section
/-!
SUPPORT. Work commands (R168 to R170): what taking, refusing, starting and ending one leave.
-/

namespace Sys2Proof.Machine

variable {s t : State} {c : Nat} {b : Line} {cmd : Cmd}

/-! ### Control commands -/

/-- A channel that can take a control command runs it on the state from which its block has left (R168, R169). -/
theorem takeControl_eq (h : TakesControl cmd c b s) :
    takeControl cmd c s = some (runCommand cmd c b (dequeue c s)) := by
  unfold takeControl; rw [namedTake_control h]
  simp [takeCommand, h.2.2.2]

theorem takeRun_control (h : TakesControl cmd c b s) :
    takeRun cmd c s = some (settle (runCommand cmd c b (dequeue c s))) := by
  unfold takeRun; rw [namedTake_control h]
  simp [takeCommand, h.2.2.2]

@[simp] theorem granuleCount_dequeue (c : Nat) (s : State) : granuleCount (dequeue c s) = granuleCount s := by
  unfold granuleCount; rw [dequeue_size]

/-- A response alone changes no class and no pending mark but its channel's (R170, R190). -/
theorem noticesKept_respond {r : Result} {p : Report} (h : ∀ n, n ≠ 7 + c → sourceOf t n = sourceOf s n) :
    NoticesKept c s (finish (respond c b r p t)) := by
  intro n hn
  rw [sourceOf_finish_cls, sourceOf_finish_pending, sourceOf_respond_ne _ _ _ _ _ hn, h n hn]; exact ⟨rfl, rfl⟩

/-- A control command that only responds (R170). -/
theorem onlyAnswered_respond {r : Result} {p : Report} (hb : (chan s c).control.head? = some b) :
    OnlyAnswered c b r p s (finish (respond c b r p (dequeue c s))) :=
  ⟨answered_of_respond hb (fun _ => rfl), noticesKept_respond (fun n _ => sourceOf_dequeue s c n), by
    unfold Untouched; simp⟩

/-! ### Starts -/

/-- A channel that takes a work command runs it, and what it starts goes on (R168, R169). -/
theorem StartsWork.take (h : StartsWork cmd c b s) :
    takeRun cmd c s = some (settle (runCommand cmd c b (dequeue c s))) := by
  unfold takeRun; rw [namedTake_work h.1]
  simp [takeCommand, h.1.2.2.2.2.2.2]

theorem StartsWork.chan_dequeue (h : StartsWork cmd c b s) (x : Nat) :
    chan (dequeue c s) x =
      if x = c then { chan s c with work := [], reserved := (chan s c).reserved + 1 } else chan s x := by
  rw [chan_dequeue_work s h.1.2.1, h.2.1]; rfl

theorem StartsWork.warm (h : StartsWork cmd c b s) : s.warm = none := h.1.1.1
theorem StartsWork.flush (h : StartsWork cmd c b s) : s.flush = .none := h.1.1.2.1
theorem StartsWork.control (h : StartsWork cmd c b s) : (chan s c).control = [] := h.1.2.1
theorem StartsWork.active (h : StartsWork cmd c b s) : (chan s c).active = none := h.1.2.2.1
theorem StartsWork.undo (h : StartsWork cmd c b s) : (chan s c).undo = none := h.1.2.2.2.1
theorem StartsWork.quiet (h : StartsWork cmd c b s) : Quiet s := h.2.2

theorem sameDuty.refl (x : Channel) : sameDuty x x := ⟨rfl, rfl, rfl⟩

/-- A refused work command lets its channel take again, which ends the step (R170). -/
theorem comesTo_refused {u : State} {r : Result} {p : Report} (hq : Quiet s) (hc : c < 4)
    (hctl : (chan u c).control = []) (hwork : (chan u c).work = []) (ha : (chan u c).active = none)
    (hu : (chan u c).undo = none) (ho : ∀ x, x ≠ c → sameDuty (chan u x) (chan s x)) (h : SameRest s u) :
    ComesTo 1 (refuse c b r p u)
      (setChan c { chan (respond c b r p u) c with retake := false } (refuse c b r p u)) := by
  have hcr : ∀ x, chan (refuse c b r p u) x =
      if x = c then { chan (respond c b r p u) c with retake := true } else chan u x := by
    intro x; unfold refuse; dsimp only; rw [chan_setChan]; split
    · rfl
    · rename_i hx; rw [chan_respond, if_neg hx]
  have hrc : chan (respond c b r p u) c = { chan u c with
      reserved := (chan u c).reserved - 1, ready := (chan u c).ready ++ [mkResponse b c r p] } := by
    rw [chan_respond, if_pos rfl]
  have hS : SameRest s (refuse c b r p u) := h.trans ⟨by simp, by simp, by simp, by simp, by simp⟩
  have hO : ∀ x, x ≠ c → sameDuty (chan (refuse c b r p u) x) (chan s x) := by
    intro x hx; rw [hcr, if_neg hx]; exact ho x hx
  refine .next (j := .retake c) ?_ ?_
  · rw [nextJob_channel hq hc hO hS]
    apply channelJob_retake <;> rw [hcr, if_pos rfl]
    · simp [hrc, ha]
    · simp [hrc, hu]
  · have hstep : runJob (.retake c) (refuse c b r p u) =
        setChan c { chan (respond c b r p u) c with retake := false } (refuse c b r p u) := by
      show retakeStep c _ = _
      rw [retakeStep_idle (by simp [hcr, hrc, hctl]) (by simp [hcr, hrc, hwork])]
      rw [hcr, if_pos rfl]
    rw [hstep]
    apply ComesTo.here
    refine (nextJob_channel hq hc ?_ ?_).trans ?_
    · intro x hx; rw [chan_setChan, if_neg hx]; exact hO x hx
    · exact hS.trans ⟨rfl, rfl, rfl, rfl, rfl⟩
    · apply channelJob_none <;> rw [chan_setChan, if_pos rfl]
      · simp [hrc, ha]
      · simp [hrc, hu]

/-- What a refused work command leaves (R170). -/
theorem StartsWork.refused (h : StartsWork cmd c b s) (hc : c < 4) (r : Result) (p : Report) :
    WorkRefused c b r p s (finish (settle (refuse c b r p (dequeue c s)))) := by
  have hd := h.chan_dequeue
  have hrt := h.quiet.retake hc
  have hcome := comesTo_refused (b := b) (r := r) (p := p) (u := dequeue c s) h.quiet hc
    (by rw [hd, if_pos rfl]; exact h.control) (by rw [hd, if_pos rfl]) (by rw [hd, if_pos rfl]; exact h.active)
    (by rw [hd, if_pos rfl]; exact h.undo) (fun x hx => by rw [hd, if_neg hx]; exact .refl _)
    ⟨by simp, by simp, by simp, by simp, by simp⟩
  rw [hcome.settle (by decide)]
  refine ⟨?_, ?_, ?_, ?_, ?_⟩
  · rw [chan_finish, chan_setChan, if_pos rfl, chan_respond, if_pos rfl, hd, if_pos rfl]
    simp [← hrt]
  · intro x hx
    rw [chan_finish, chan_setChan, if_neg hx]; unfold refuse; dsimp only
    rw [chan_setChan, if_neg hx, chan_respond, if_neg hx, hd, if_neg hx]
  · rw [sourceOf_finish_pending, sourceOf_setChan]; unfold refuse; dsimp only
    rw [sourceOf_setChan]; exact sourceOf_respond_same _ _ _ _ _
  · intro n hn
    rw [sourceOf_finish_cls, sourceOf_finish_pending, sourceOf_setChan]; unfold refuse; dsimp only
    rw [sourceOf_setChan, sourceOf_respond_ne _ _ _ _ _ hn, sourceOf_dequeue]; exact ⟨rfl, rfl⟩
  · unfold Untouched; simp

/-- A command that has been taken and stands active at its channel. -/
theorem chan_activate (w : Work) (p : Phase) (x : Wait) (y : Nat) :
    chan (activate c b w p x s) y =
      if y = c then { chan s c with
        active := some { block := b, work := w, phase := p, wait := x, ending := none }, stop := false }
      else chan s y := chan_setChan s c y _

theorem runJob_command {u : State} {a : Active} (ha : (chan u c).active = some a)
    (hw : a.wait = .running) : runJob (.command c) u = chanStep c a u := by
  show (match (chan u c).active with
    | some a => chanStep c a (stepBegins c a u)
    | none => u) = _
  rw [ha]; dsimp only; rw [stepBegins_running c u hw]

/-- A command that waits for nothing makes its next step, where nothing else can go on. -/
theorem nextJob_command (hq : Quiet s) (hc : c < 4) {u : State} {a : Active}
    (ha : (chan u c).active = some a) (hw : a.wait = .running)
    (ho : ∀ x, x ≠ c → sameDuty (chan u x) (chan s x)) (hr : SameRest s u) : nextJob u = some (.command c) :=
  (nextJob_channel hq hc ho hr).trans (channelJob_command ha hw)

/-- The chain that begins with the next step of channel c's command. -/
theorem comesTo_command (hq : Quiet s) (hc : c < 4) {u v : State} {a : Active} {n : Nat}
    (ha : (chan u c).active = some a) (hw : a.wait = .running)
    (ho : ∀ x, x ≠ c → sameDuty (chan u x) (chan s x)) (hr : SameRest s u) (h : ComesTo n (chanStep c a u) v) :
    ComesTo (n + 1) u v :=
  .next (nextJob_command hq hc ha hw ho hr) (by rw [runJob_command ha hw]; exact h)

/-- A state in which channel c's command waits and the rest is as in a quiet state is quiet. -/
theorem quiet_of_waits (hq : Quiet s) (hc : c < 4) {u : State} {a : Active} (ha : (chan u c).active = some a)
    (hw : waitOver a.wait = false) (hu : (chan u c).undo = none) (hrt : (chan u c).retake = false)
    (ho : ∀ x, x ≠ c → sameDuty (chan u x) (chan s x)) (hr : SameRest s u) : Quiet u := by
  refine (nextJob_channel hq hc ho hr).trans ?_
  apply channelJob_none
  · intro a' ha'; rw [ha] at ha'; cases ha'; exact hw
  · rw [hu]; intro u hu; cases hu
  · exact hrt

/-- What a command leaves that has been taken and has ended in the same step, at its channel (R170). -/
theorem StartsWork.endsAtOnce (h : StartsWork cmd c b s) (hc : c < 4) {u : State} {a : Active} {r : Result}
    {p : Report} (hu : chan u c = { chan s c with
        work := [], reserved := (chan s c).reserved + 1, active := some a, stop := (chan u c).stop
        claim := (chan u c).claim })
    (hb : a.block = b) (ho : ∀ x, x ≠ c → chan u x = chan s x) (hr : SameRest s u) :
    ∃ v, ComesTo 1 (completeWork c r p u) v ∧ EndsAtOnce c b r p s (finish v) ∧
      v = setChan c { chan (completeWork c r p u) c with retake := false } (completeWork c r p u) := by
  subst hb
  have ha : (chan u c).active = some a := by rw [hu]
  have hw : u.warm = none := by rw [hr.warm]; exact h.warm
  refine ⟨_, comesTo_completed h.quiet hc ha hw r p (by rw [hu]; exact h.control) (by rw [hu])
    (by rw [hu]; exact h.undo) (fun x hx => by rw [ho x hx]; exact .refl _) hr, ⟨?_, ?_, ?_⟩, rfl⟩
  · rw [chan_finish, chan_setChan, if_pos rfl, chan_completeWork ha hw, if_pos rfl, hu]
    simp [← h.quiet.retake hc, ← h.active]
  · intro x hx; rw [chan_finish, chan_setChan, if_neg hx, chan_completeWork ha hw, if_neg hx, ho x hx]
  · rw [sourceOf_finish_pending, sourceOf_setChan]; exact (sourceOf_completeWork ha hw r p).1

/-- What a command leaves that was active and has ended, at its channel (R170). -/
theorem ends_of (hq : Quiet s) (hc : c < 4) {u : State} {a a' : Active} {r : Result} {p : Report}
    (hctl : (chan s c).control = []) (hwork : (chan s c).work = []) (hun : (chan s c).undo = none)
    (hw : s.warm = none) (hb : a'.block = a.block)
    (hu : chan u c = { chan s c with active := some a', stop := (chan u c).stop, claim := (chan u c).claim })
    (ho : ∀ x, x ≠ c → chan u x = chan s x) (hr : SameRest s u) :
    ∃ v, ComesTo 1 (completeWork c r p u) v ∧ Ends c a r p s (finish v) ∧
      v = setChan c { chan (completeWork c r p u) c with retake := false } (completeWork c r p u) := by
  have ha : (chan u c).active = some a' := by rw [hu]
  have hw' : u.warm = none := by rw [hr.warm]; exact hw
  refine ⟨_, comesTo_completed hq hc ha hw' r p (by rw [hu]; exact hctl) (by rw [hu]; exact hwork)
    (by rw [hu]; exact hun) (fun x hx => by rw [ho x hx]; exact .refl _) hr, ⟨?_, ?_, ?_⟩, rfl⟩
  · rw [chan_finish, chan_setChan, if_pos rfl, chan_completeWork ha hw', if_pos rfl, hu, hb]
    simp [← hq.retake hc]
  · intro x hx; rw [chan_finish, chan_setChan, if_neg hx, chan_completeWork ha hw', if_neg hx, ho x hx]
  · rw [sourceOf_finish_pending, sourceOf_setChan]; exact (sourceOf_completeWork ha hw' r p).1

/-! ### Tests that commands share, as the statements put them -/

theorem rangeBad_iff (s : State) (f n : Nat) : rangeBad s f n = true ↔ RangeRefused s f n := by
  unfold rangeBad RangeRefused Config.rangeMax; simp [or_assoc]

@[simp] theorem rangeBad_dequeue (s : State) (c f n : Nat) : rangeBad (dequeue c s) f n = rangeBad s f n := by
  unfold rangeBad; rw [granuleCount_dequeue]

@[simp] theorem recordAt_dequeue (s : State) (c g : Nat) : recordAt (dequeue c s) g = recordAt s g :=
  recordAt_congr (dequeue_ways s c) g

theorem claimed_iff (s : State) (g : Nat) : claimed s g = true ↔ Claimed s g := by
  unfold claimed claimant Claimed channelNumbers
  rw [List.find?_isSome]; simp

theorem inRegionEntry_iff (s : State) (g : Nat) : inRegionEntry s g = true ↔ InSomeRegion s g := by
  unfold inRegionEntry InSomeRegion Config.regionEntries; simp

theorem busy_iff {g : Nat} {r : TagRecord} : granuleBusy s g r = true ↔ Busy s g r := by
  unfold granuleBusy Busy; rw [Bool.or_eq_true, claimed_iff]
  unfold isClearing; simp [or_assoc]

theorem set_warm_none (h : s.warm = none) : { s with warm := none } = s := by rw [← h]

/-- A claim test sees the claims only. -/
theorem claimed_congr {s u : State} (h : ∀ x, (chan u x).claim = (chan s x).claim) (g : Nat) :
    claimed u g = claimed s g := by
  rw [Bool.eq_iff_iff, claimed_iff, claimed_iff]; unfold Claimed; simp only [h]

/-! ### Fills that a step joins (R47, R51) -/

theorem noteIssue_lines (x : Nat) (j : OwnJob) (s : State) : (noteIssue x j s).fills.map (·.line) =
    s.fills.map (·.line) := by
  unfold noteIssue; split
  · simp only [List.map_map]; congr 1; funext f; simp only [Function.comp]; split <;> rfl
  · split <;> rfl
  · rfl

theorem issueJob_lines (j : OwnJob) (s : State) : (issueJob j s).fills.map (·.line) = s.fills.map (·.line) := by
  unfold issueJob; split
  · rfl
  · split
    · unfold sendJob; rw [noteIssue_lines]
    · rfl

theorem issueProduced_lines (old s : State) :
    (issueProduced old s).fills.map (·.line) = s.fills.map (·.line) := by
  have h : ∀ (l : List OwnJob) (u : State),
      (l.foldl (fun t j => issueJob j t) u).fills.map (·.line) = u.fills.map (·.line) := by
    intro l; induction l with
    | nil => exact fun _ => rfl
    | cons j l ih => intro u; rw [List.foldl_cons, ih, issueJob_lines]
  unfold issueProduced; rw [h]

/-- The lines being filled are not changed by the end of a step. -/
theorem issueProduced_filled {old s : State} {l : Nat} (h : ∃ f ∈ s.fills, f.line = l) :
    ∃ f ∈ (issueProduced old s).fills, f.line = l := by
  have e := issueProduced_lines old s
  have : l ∈ s.fills.map (·.line) := by simpa using h
  rw [← e] at this; simpa using this

theorem claimFor_lines (n set way : Nat) (s : State) : (claimFor n set way s).fills.map (·.line) =
    s.fills.map (·.line) := by
  have h : ∀ (l : List Fill), (l.map (fun f => if f.serial = n then { f with way := some way } else f)).map
      (·.line) = l.map (·.line) := by
    intro l; simp only [List.map_map]; congr 1; funext f; simp only [Function.comp]; split <;> rfl
  unfold claimFor; dsimp only; split
  · split
    · exact h _
    · exact h _
  · exact h _

theorem startFill_lines (l : Nat) (s : State) : (startFill l s).fills.map (·.line) = s.fills.map (·.line) ++ [l] := by
  unfold startFill; dsimp only; split
  · rw [claimFor_lines]; simp
  · simp

theorem joinFill_joined (l : Nat) (s : State) : (∃ f ∈ (joinFill l s).fills, f.line = l) ∨ l ∈ (joinFill l
    s).fillWaits := by
  unfold joinFill; split
  · rename_i h
    rw [Bool.or_eq_true, List.any_eq_true] at h
    rcases h with ⟨f, hf, he⟩ | h
    · exact .inl ⟨f, hf, by simpa using he⟩
    · exact .inr (by simpa using h)
  · split
    · left
      have := startFill_lines l s
      have hm : l ∈ (startFill l s).fills.map (·.line) := by rw [this]; simp
      simpa using hm
    · right; simp

theorem StartsWork.miss {s : State} {c : Nat} {b : Line} {cmd : Cmd} (h : StartsWork cmd c b s) (hc : c < 4)
    {w : Work} {p p' : Phase} {g : Nat} {f : TagRecord → State → State} {u : State}
    (hu : ∀ x, chan u x = if x = c then { chan s c with
        work := [], stop := false, reserved := (chan s c).reserved + 1,
        active := some { block := b, work := w, phase := p, wait := .running, ending := none } } else chan s x)
    (hS : SameRest s u) (hrec : recordAt u g = none) (hways : u.ways = s.ways)
    (hstep : chanStep c { block := b, work := w, phase := p, wait := .running, ending := none } u =
        withRecord c g f (goPhase c p' .running u)) :
    StartsWithFill c b w p' g s (finish (issueProduced s (settle u))) ∧ settle u = joinFill (g / 4) (goWait c
        (.fill (g / 4)) (goPhase c p' .running u)) := by
  have hrec' : recordAt (goPhase c p' .running u) g = none := by simpa using hrec
  have hch : ∀ x, chan (joinFill (g / 4) (goWait c (.fill (g / 4)) (goPhase c p' .running u))) x =
     if x = c then { chan s c with
        work := [], stop := false, reserved := (chan s c).reserved + 1,
        active := some { block := b, work := w, phase := p', wait := .fill (g / 4), ending := none } } else chan s x := by
    intro x; rw [chan_joinFill, chan_goWait, chan_goPhase, chan_goPhase]; split
    · rw [if_pos rfl, hu, if_pos rfl]; rfl
    · rename_i hx; rw [hu, if_neg hx]
  have hcome : ComesTo 1 u (joinFill (g / 4) (goWait c (.fill (g / 4)) (goPhase c p' .running u))) := by
    refine comesTo_command h.quiet hc (by rw [hu, if_pos rfl]) rfl (fun x hx => by rw [hu, if_neg hx]; exact .refl _) hS ?_
    rw [hstep, withRecord_miss hrec']
    apply ComesTo.here
    refine quiet_of_waits h.quiet hc (by rw [show tagLineOf g = g / 4 from rfl, hch, if_pos rfl]) (by rfl) ?_ ?_ ?_ ?_
    · rw [show tagLineOf g = g / 4 from rfl, hch, if_pos rfl]; exact h.undo
    · rw [show tagLineOf g = g / 4 from rfl, hch, if_pos rfl]; exact h.quiet.retake hc
    · intro x hx; rw [show tagLineOf g = g / 4 from rfl, hch, if_neg hx]; exact .refl _
    · exact hS.trans ⟨by simp, by simp, by simp, by simp, by simp⟩
  have he := hcome.settle (by decide)
  refine ⟨⟨⟨?_, ?_⟩, ?_, ?_⟩, he⟩
  · rw [he, chan_finish, chan_issueProduced, hch, if_pos rfl]
  · intro x hx; rw [he, chan_finish, chan_issueProduced, hch, if_neg hx]
  · rw [he]; simp [hways]
  · rw [he]
    rcases joinFill_joined (g / 4) (goWait c (.fill (g / 4)) (goPhase c p' .running u)) with h | h
    · left; simpa using issueProduced_filled (old := s) h
    · right; simpa using h

/-! ### A channel's command between its steps -/

/-- Command a is active at channel c of u, where no other command waits, and the rest of u can do what s can. -/
structure At (c : Nat) (a : Active) (s u : State) : Prop where
  active : (chan u c).active = some a
  control : (chan u c).control = []
  work : (chan u c).work = []
  undo : (chan u c).undo = none
  retake : (chan u c).retake = false
  others : ∀ x, x ≠ c → chan u x = chan s x
  rest : SameRest s u

theorem At.step {c : Nat} {a : Active} {s u v : State} {n : Nat} (hq : Quiet s) (hc : c < 4) (h : At c a s u)
    (hw : a.wait = .running) (hv : ComesTo n (chanStep c a u) v) : ComesTo (n + 1) u v :=
  comesTo_command hq hc h.active hw (fun x hx => by rw [h.others x hx]; exact .refl _) h.rest hv

theorem At.quiet {c : Nat} {a : Active} {s u : State} (hq : Quiet s) (hc : c < 4) (h : At c a s u)
    (hw : waitOver a.wait = false) : Quiet u :=
  quiet_of_waits hq hc h.active hw h.undo h.retake (fun x hx => by rw [h.others x hx]; exact .refl _) h.rest

/-- An update of other tables leaves the command where it is. -/
theorem At.congr {c : Nat} {a : Active} {s u u' : State} (h : At c a s u) (hch : u'.channels = u.channels)
    (hr : SameRest u u') : At c a s u' := by
  have e : ∀ x, chan u' x = chan u x := fun x => by unfold chan; rw [hch]
  exact ⟨by rw [e]; exact h.active, by rw [e]; exact h.control, by rw [e]; exact h.work, by rw [e]; exact
      h.undo, by rw [e]; exact h.retake, fun x hx => by rw [e]; exact h.others x hx, h.rest.trans hr⟩

theorem At.goPhase {c : Nat} {a : Active} {s u : State} (h : At c a s u) (p : Phase) (w : Wait) :
    At c { a with phase := p, wait := w } s (goPhase c p w u) := by
  have e : chan (Machine.goPhase c p w u) c = { chan u c with active := some { a with phase := p, wait := w } } := by
    rw [chan_goPhase, if_pos rfl, h.active]; rfl
  exact ⟨by rw [e], by rw [e]; exact h.control, by rw [e]; exact h.work, by rw [e]; exact h.undo, by rw [e]; exact h.retake,
    fun x hx => by rw [chan_goPhase, if_neg hx]; exact h.others x hx, h.rest.trans ⟨rfl, rfl, rfl, rfl, rfl⟩⟩

theorem At.goWork {c : Nat} {a : Active} {s u : State} (h : At c a s u) (w : Work) :
    At c { a with work := w } s (goWork c w u) := by
  have e : chan (Machine.goWork c w u) c = { chan u c with active := some { a with work := w } } := by
    rw [chan_goWork, if_pos rfl, h.active]; rfl
  exact ⟨by rw [e], by rw [e]; exact h.control, by rw [e]; exact h.work, by rw [e]; exact h.undo, by rw [e]; exact h.retake,
    fun x hx => by rw [chan_goWork, if_neg hx]; exact h.others x hx, h.rest.trans ⟨rfl, rfl, rfl, rfl, rfl⟩⟩

theorem At.setClaim {c : Nat} {a : Active} {s u : State} (h : At c a s u) (g : Option Nat) :
    At c a s (setClaim c g u) := by
  have e : chan (Machine.setClaim c g u) c = { chan u c with claim := g } := by
    rw [chan_setClaim, if_pos rfl]
  exact ⟨by rw [e]; exact h.active, by rw [e]; exact h.control, by rw [e]; exact h.work, by rw [e]; exact
      h.undo, by rw [e]; exact h.retake,
    fun x hx => by rw [chan_setClaim, if_neg hx]; exact h.others x hx, h.rest.trans ⟨rfl, rfl, rfl, rfl, rfl⟩⟩

theorem At.started {c : Nat} {b : Line} {cmd : Cmd} {s : State} (h : StartsWork cmd c b s) (hc : c < 4) (w :
    Work) (p : Phase) (x : Wait) :
    At c { block := b, work := w, phase := p, wait := x, ending := none } s (activate c b w p x (dequeue c s)) := by
  have e : chan (activate c b w p x (dequeue c s)) c = { chan s c with
      work := [], reserved := (chan s c).reserved + 1, stop := false,
      active := some { block := b, work := w, phase := p, wait := x, ending := none } } := by
    rw [chan_activate, if_pos rfl, h.chan_dequeue, if_pos rfl]
  exact ⟨by rw [e], by rw [e]; exact h.control, by rw [e], by rw [e]; exact h.undo, by rw [e]; exact h.quiet.retake hc,
    fun x hx => by rw [chan_activate, if_neg hx, h.chan_dequeue, if_neg hx], ⟨by simp, by simp, by simp, by simp, by simp⟩⟩

theorem startGranuleDrain_none {c g : Nat} {u : State} (hn : NoTraffic g u) (hd : NoDrain (.command c) u) :
    startGranuleDrain c g u = goPhase c .afterDrain .running u := by
  unfold startGranuleDrain
  rw [beginDrain_empty]
  · dsimp only; rw [if_pos (drained_iff.mpr hd)]
  · intro p hp; simpa [keyMatches] using hn.1 p hp
  · intro h hh; simpa [keyMatches] using hn.2 h hh

theorem startGranuleDrain_some {c g : Nat} {u : State} (hn : ¬NoTraffic g u) :
    ∃ d, d.user = .command c ∧ startGranuleDrain c g u = goPhase c .drain .drain { u with drains := u.drains ++ [d] } := by
  have hm : (∃ p ∈ u.inFlight, keyMatches (.granule g) p.2.granule p.2.domain = true) ∨
      ∃ h, u.stage = some h ∧ keyMatches (.granule g) h.granule h.request.domain.val = true := by
    unfold NoTraffic at hn; by_contra hcon; apply hn; push Not at hcon
    refine ⟨fun p hp => ?_, fun h hh => ?_⟩
    · have := hcon.1 p hp; simpa [keyMatches] using this
    · have := hcon.2 h hh; simpa [keyMatches] using this
  obtain ⟨d, hd, hu⟩ := beginDrain_some (s := u) (u := .command c) hm
  refine ⟨d, hu, ?_⟩
  unfold startGranuleDrain; dsimp only
  rw [not_drained_of_mem (d := d) (by rw [hd]; simp) hu]
  have : beginDrain (.command c) (.granule g) u = { u with drains := u.drains ++ [d] } := by
    rw [beginDrain_shape, hd]
  rw [this]; rfl

theorem settle_to {n : Nat} {u v : State} (h : ComesTo n u v) (hn : n ≤ 100) : settle u = v :=
  h.settle (by unfold Config.stepFuel; omega)

/-- A command's step at a cached line. -/
theorem At.hit {c : Nat} {a : Active} {s u v : State} {n g : Nat} {r : TagRecord} {f : TagRecord → State → State}
    (hq : Quiet s) (hc : c < 4) (h : At c a s u) (hw : a.wait = .running) (hrec : recordAt u g = some r)
    (hs : chanStep c a u = withRecord c g f u) (hv : ∀ k, ComesTo n (f r (touch k u)) v) : ComesTo (n + 1) u v := by
  apply h.step hq hc hw; rw [hs]
  obtain ⟨k, hk⟩ := withRecord_hit (c := c) (f := f) hrec
  rw [hk]; exact hv k

end Sys2Proof.Machine
end

