-- ==== Sys2Proof/Tests/Slice0.lean ====
section
/-!
SUPPORT. Tests: the checks of WellFormed, single steps with the values the manual's worked examples give, and for
every statement with hypotheses a state and operands that meet them, with what the step then answers.

`live` is the part of the worked case of 2.6, formatted: B = 64 GiB, S = 1 TiB, T = 267,386,880.
-/

set_option Elab.async false

namespace Sys2Proof.Tests

open Sys2Proof.Machine

/-! ### Small states -/

/-- The fields of words A, B, … of a command block (R180). -/
def wordFields : Nat → List Nat → List (Nat × Nat × Nat)
  | _, [] => []
  | off, w :: ws => (off, 8, w) :: wordFields (off + 8) ws

/-- A command block with cookie 7 (R180). -/
def cmd (code : Nat) (ws : List Nat) : Line := packLine ((0, 2, code) :: (4, 4, 7) :: wordFields 8 ws)

def live : State :=
  { coldState 1 2 false false with mode := .operational, tagBase := some 267386880, upLink := true }

/-- Block b waits in the control queue of channel c. -/
def ctl (c : Nat) (b : Line) (s : State) : State := setChan c { chan s c with control := [b] } s

/-- Block b waits in the work queue of channel c. -/
def wrk (c : Nat) (b : Line) (s : State) : State := setChan c { chan s c with work := [b] } s

def inState (d : Nat) (x : DState) (s : State) : State := setDom d { dom s d with state := x } s

/-- Granule g's tag line is cached in way 0 of its set: g has record r, the line's other granules are OPEN. -/
def cached (g : Nat) (r : TagRecord) (s : State) : State :=
  let way : Way :=
    { line := g / 4, dirty := false, records := quadSet ⟨openRecord, openRecord, openRecord, openRecord⟩ (g % 4) r }
  { s with ways := tblPut s.ways (8 * (g / 4 % 256)) way }

/-- A PRIVATE record. -/
def priv (d : Nat) : TagRecord := { owner := some d, state := .gPrivate, pinned := false, dirty := false, count := 0 }

/-- A grant entry of granule g from d to e. -/
def grant (g d e : Nat) (st : GrantState) : Grant :=
  { serial := 5, granule := g, owner := d, grantee := e, readWrite := false, state := st }

/-- An In-Flight entry of domain d on granule g. -/
def flight (d g : Nat) (write : Bool) : InFlight :=
  { upstreamTag := 17, domain := d, granule := g, write := write, orphaned := false, suppress := false
    unformatted := false, timer := 0, limitReached := false }

def req (kind : AccessKind) (tag : Fin 1024) (d : Fin 512) (a : Nat) : Request :=
  { kind := kind, tag := tag, domain := d, address := BitVec.ofNat 46 a, mask := 0, data := 0 }

/-! ### What a step gives -/

def after (i : Instr) (s : State) : State :=
  match exec i s with
  | .next t => t
  | _ => s

/-- The newest response of channel c after a command: its result and value words 0 and 1. -/
def answer (c : Nat) (i : Instr) (s : State) : Option (Result × Nat × Nat) :=
  ((chan (after i s) c).ready.getLast?).map (fun r => (r.result, r.w0, r.w1))

def result (c : Nat) (i : Instr) (s : State) : Option Result := (answer c i s).map (·.1)

/-- The newest completion after a command: its tag, status and data. -/
def completion (i : Instr) (s : State) : Option (Nat × Status × Option Line) :=
  ((after i s).completions.getLast?).map (fun x => (x.tag, x.status, x.data))

/-! ### The checks of a command -/

theorem test_wellFormed_refuses : ∀ i ∈
    [Instr.ownRequestTimeout 255, .ownRequestTimeout 608, .heldTagRelease 255, .heldTagRelease 608,
      .fillReadCompletion 255 .error, .fillReadCompletion 272 .error, .writeBackCompletion 271 .ok,
      .writeBackCompletion 304 .ok, .formatWriteCompletion 303 .ok, .formatWriteCompletion 336 .ok,
      .zeroWriteCompletion 335 .ok, .zeroWriteCompletion 592 .ok, .harvestWriteCompletion 591 .ok,
      .harvestWriteCompletion 608 .ok, .downstreamTagGrant .forwarded, .apertureOtherWrite 0 .write 64 0 0,
      .apertureOtherWrite 0 .read 193 0 0, .apertureOtherWrite 0 .read 960 0 0,
      .domainRequestWrite 0 0 false 0 0, .domainRequestRead 0 0], i.wellFormed = false := by
  decide +kernel

theorem test_wellFormed_accepts : ∀ i ∈
    [Instr.ownRequestTimeout 256, .ownRequestTimeout 607, .heldTagRelease 256, .fillReadCompletion 271 .error,
      .writeBackCompletion 272 .ok, .writeBackCompletion 303 .ok, .formatWriteCompletion 304 .ok,
      .formatWriteCompletion 335 .ok, .zeroWriteCompletion 336 .ok, .zeroWriteCompletion 591 .ok,
      .harvestWriteCompletion 592 .ok, .harvestWriteCompletion 607 .ok, .downstreamTagGrant .harvestWrite,
      .apertureOtherWrite 0 .writeMasked 0 0 0, .apertureOtherWrite 0 .read 0 0 0,
      .apertureOtherWrite 0 .write 1023 0 0, .domainRequestWrite 0 511 true 0 0, .domainRequestRead 0 1,
      .coldReset 1023 7, .platformFaultAssert], i.wellFormed = true := by
  decide +kernel

/-- No row of the table gives bits, so no word spells a command. -/
theorem test_decodeTableWord : decodeTableWord 16 0x40 = none := by decide

theorem test_withFetchWord : live.withFetchWord 16 0x40 = live := by decide +kernel

/-! ### Domain commands (5.2) -/

theorem witness_create : ∀ p ∈
    [([1, 268435456, 15], Result.done), ([511, 0, 0], .done), ([0, 1, 1], .parameter), ([512, 1, 1], .parameter),
      ([1, 268435457, 15], .parameter), ([1, 1, 16], .parameter), ([3, 1, 1], .domainInUse)],
    TakesControl .create 0 (cmd 0x40 p.1) (ctl 0 (cmd 0x40 p.1) (inState 3 .paused live)) ∧
      result 0 (.create 0) (ctl 0 (cmd 0x40 p.1) (inState 3 .paused live)) = some p.2 := by
  unfold TakesControl CanTake; decide +kernel

theorem witness_moves : ∀ p ∈
    [(Cmd.start, 0x41, DState.preparing), (.pause, 0x42, .running), (.resume, 0x43, .paused),
      (.unfence, 0x44, .fenced)],
    ∀ q ∈ [(511, Result.done), (512, .parameter), (0, .domainState), (4, .domainState)],
      TakesControl p.1 3 (cmd p.2.1 [q.1]) (ctl 3 (cmd p.2.1 [q.1]) (inState 511 p.2.2 live)) ∧
        result 3 (rowOf p.1 3) (ctl 3 (cmd p.2.1 [q.1]) (inState 511 p.2.2 live)) = some q.2 := by
  unfold TakesControl CanTake; decide +kernel

/-- 10.9: UNFENCE(33) leaves the domain PAUSED with counter 0 and no first-violation address. -/
theorem test_unfence_clears :
    let e := { Domain.reset with state := .fenced, threshold := 3, violations := 4, firstAddress := some 0x1001068000 }
    dom (after (.unfence 0) (ctl 0 (cmd 0x44 [33]) (setDom 33 e live))) 33 =
      { Domain.reset with state := .paused, threshold := 3 } := by
  decide +kernel

def tried : State :=
  setDom 511 { Domain.reset with state := .running, quota := 40, owned := 12, violations := 3, threshold := 4
                                 firstAddress := some 0x1001068000, given := 1, held := 2 } live

theorem witness_setQuota : ∀ p ∈
    [([511, 268435456], (Result.done, 40, 12)), ([511, 0], (.done, 40, 12)), ([511, 268435457], (.parameter, 0, 0)),
      ([512, 1], (.parameter, 0, 0)), ([0, 1], (.domainState, 0, 0)), ([1, 1], (.domainState, 0, 0)),
      ([2, 1], (.domainState, 0, 0))],
    TakesControl .setQuota 0 (cmd 0x45 p.1) (ctl 0 (cmd 0x45 p.1) (inState 2 .retiring tried)) ∧
      answer 0 (.setQuota 0) (ctl 0 (cmd 0x45 p.1) (inState 2 .retiring tried)) = some p.2 := by
  unfold TakesControl CanTake; decide +kernel

theorem witness_setFence : ∀ p ∈
    [([511, 15], (Result.done, 4, 0)), ([511, 16], (.parameter, 0, 0)), ([512, 0], (.parameter, 0, 0)),
      ([511, 3], (.done, 4, 1)), ([511, 4], (.done, 4, 0)), ([511, 0], (.done, 4, 0)), ([0, 1], (.domainState, 0, 0)),
      ([1, 1], (.domainState, 0, 0)), ([2, 1], (.domainState, 0, 0)), ([3, 1], (.done, 0, 0))],
    let s := inState 3 .fenced (inState 2 .retiring tried)
    TakesControl .setFence 0 (cmd 0x46 p.1) (ctl 0 (cmd 0x46 p.1) s) ∧
      answer 0 (.setFence 0) (ctl 0 (cmd 0x46 p.1) s) = some p.2 := by
  unfold TakesControl CanTake; decide +kernel

theorem witness_clearDomainCounters : ∀ p ∈
    [(511, (Result.done, 3, 0x1001068000)), (0, (.done, 0, 2 ^ 64 - 1)), (512, (.parameter, 0, 0))],
    TakesControl .clearDomainCounters 0 (cmd 0x47 [p.1]) (ctl 0 (cmd 0x47 [p.1]) tried) ∧
      answer 0 (.clearDomainCounters 0) (ctl 0 (cmd 0x47 [p.1]) tried) = some p.2 := by
  unfold TakesControl CanTake; decide +kernel

/-- R181: state RUNNING 2, no active RETIRE, counter 3, threshold 4; quota 40. -/
theorem witness_domainStatus : ∀ p ∈
    [(511, (Result.done, 0x4030002, 40)), (0, (.done, 6, 0)), (512, (.parameter, 0, 0))],
    TakesControl .domainStatus 0 (cmd 0x48 [p.1]) (ctl 0 (cmd 0x48 [p.1]) tried) ∧
      answer 0 (.domainStatus 0) (ctl 0 (cmd 0x48 [p.1]) tried) = some p.2 := by
  unfold TakesControl CanTake; decide +kernel

/-! ### Grant, track and violation commands -/

def shared : State :=
  { live with grants := [(20, grant 7001 5 9 .active), (1022, grant 7002 5 9 .offered),
      (1023, grant 7003 5 9 .revoking)] }

theorem witness_activateGrant : ∀ p ∈
    [(1022, (Result.done, 7002, 5 + 9 * 2 ^ 16 + 2 ^ 32 + 2 ^ 41)),
      (1023, (.grantState, 7003, 5 + 9 * 2 ^ 16 + 2 ^ 32 + 3 * 2 ^ 40)),
      (20, (.grantState, 7001, 5 + 9 * 2 ^ 16 + 2 ^ 32 + 2 ^ 41)), (0, (.noEntry, 0, 0)), (1024, (.parameter, 0, 0))],
    TakesControl .activateGrant 2 (cmd 0x49 [p.1]) (ctl 2 (cmd 0x49 [p.1]) shared) ∧
      answer 2 (.activateGrant 2) (ctl 2 (cmd 0x49 [p.1]) shared) = some p.2 := by
  unfold TakesControl CanTake; decide +kernel

theorem witness_grantRead : ∀ p ∈
    [(1023, (Result.done, 7003, 5 + 9 * 2 ^ 16 + 2 ^ 32 + 3 * 2 ^ 40)), (0, (.noEntry, 0, 0)), (1024, (.parameter, 0, 0))],
    TakesControl .grantRead 2 (cmd 0x4A [p.1]) (ctl 2 (cmd 0x4A [p.1]) shared) ∧
      answer 2 (.grantRead 2) (ctl 2 (cmd 0x4A [p.1]) shared) = some p.2 := by
  unfold TakesControl CanTake; decide +kernel

def tracked : State :=
  setSlot 3
    { state := .active, domain := some 21, fillMark := 384, collecting := none, armedBy := none
      queue := [{ granule := 100000, group := false, keep := false }] }
    (setDom 21 { Domain.reset with state := .running, slot := some 3, owned := 10, quota := 40 } live)

theorem witness_trackStop : ∀ p ∈
    [(3, (Result.done, 21, 1)), (2, (.slotState, 0, 0)), (4, (.parameter, 0, 0))],
    TakesControl .trackStop 1 (cmd 0x4B [p.1]) (ctl 1 (cmd 0x4B [p.1]) tracked) ∧
      Quiet (ctl 1 (cmd 0x4B [p.1]) tracked) ∧ (slotOf (ctl 1 (cmd 0x4B [p.1]) tracked) 3).collecting = none ∧
      answer 1 (.trackStop 1) (ctl 1 (cmd 0x4B [p.1]) tracked) = some p.2 := by
  unfold TakesControl CanTake Quiet; decide +kernel

theorem witness_trackStatus : ∀ p ∈
    [(3, (Result.done, 2 + 21 * 2 ^ 16 + 384 * 2 ^ 32, 1)), (0, (.done, 65535 * 2 ^ 16 + 512 * 2 ^ 32, 0)),
      (4, (.parameter, 0, 0))],
    TakesControl .trackStatus 1 (cmd 0x4C [p.1]) (ctl 1 (cmd 0x4C [p.1]) tracked) ∧
      answer 1 (.trackStatus 1) (ctl 1 (cmd 0x4C [p.1]) tracked) = some p.2 := by
  unfold TakesControl CanTake; decide +kernel

/-- The 31st pop of 10.9: domain 33, READ, NOT_OWNER, counted, PRIVATE, owner 5. -/
def seen31 : Violation :=
  { domain := 33, write := false, address := 0x1001068000, reason := .notOwner, counted := true
    ownerSeen := some 5, stateSeen := some .gPrivate }

theorem witness_violationPop : ∀ p ∈
    [([seen31], (Result.done, 0x1001068000, 33 + 2 ^ 16 + 5 * 2 ^ 24 + 2 ^ 32 + 2 ^ 40 + 5 * 2 ^ 48)),
      ([], (.noEntry, 0, 0))],
    TakesControl .violationPop 0 (cmd 0x4D []) { ctl 0 (cmd 0x4D []) live with log := p.1 } ∧
      answer 0 (.violationPop 0) { ctl 0 (cmd 0x4D []) live with log := p.1 } = some p.2 := by
  unfold TakesControl CanTake; decide +kernel

/-! ### Notice commands (10.6) -/

def raised : State := setSource 13 { cls := 2, pending := true, notified := true } live

theorem witness_noticeConfig : ∀ p ∈
    [([13, 3], (Result.done, 2, 3)), ([3, 0], (.done, 3, 0)), ([14, 3], (.parameter, 0, 0)), ([13, 4], (.parameter, 0, 0))],
    TakesControl .noticeConfig 0 (cmd 0x4E p.1) (ctl 0 (cmd 0x4E p.1) raised) ∧
      answer 0 (.noticeConfig 0) (ctl 0 (cmd 0x4E p.1) raised) = some p.2 := by
  unfold TakesControl CanTake; decide +kernel

theorem witness_noticeClear : ∀ p ∈
    [(2 ^ 14 - 1, (Result.done, 2 ^ 13, 0)), (2 ^ 13, (.done, 2 ^ 13, 0)), (0, (.done, 0, 0)), (2 ^ 14, (.parameter, 0, 0))],
    TakesControl .noticeClear 0 (cmd 0x4F [p.1]) (ctl 0 (cmd 0x4F [p.1]) raised) ∧
      answer 0 (.noticeClear 0) (ctl 0 (cmd 0x4F [p.1]) raised) = some p.2 := by
  unfold TakesControl CanTake; decide +kernel

theorem witness_noticeStatus :
    TakesControl .noticeStatus 0 (cmd 0x50 []) (ctl 0 (cmd 0x50 []) raised) ∧
      (∀ n, n < 14 → (sourceOf (ctl 0 (cmd 0x50 []) raised) n).cls ≤ 3) ∧
      answer 0 (.noticeStatus 0) (ctl 0 (cmd 0x50 []) raised) = some (.done, 0xE2222223333222, 2 ^ 64 - 1) := by
  unfold TakesControl CanTake; decide +kernel

/-! ### Regions and Mode Control (chapter 11) -/

def regions : State :=
  setRegion 7 { first := 4096, count := 16, noAccess := true, state := .set }
    (setRegion 6 { first := 8192, count := 16, noAccess := false, state := .lockedDown }
      (setRegion 5 { first := 16384, count := 1, noAccess := false, state := .pending } live))

theorem witness_regionCommands : ∀ q ∈ [(Cmd.regionClear, 0x51, 0), (.regionLockdown, 0x52, 3)], ∀ p ∈
    [(7, (Result.done, 4096, 16 + 2 ^ 33 + q.2.2 * 2 ^ 40)), (8, (.parameter, 0, 0)),
      (6, (.locked, 8192, 16 + 2 ^ 32 + 3 * 2 ^ 40)), (5, (.regionConflict, 16384, 1 + 2 ^ 32 + 2 ^ 40)),
      (0, (.noEntry, 0, 2 ^ 32))],
    TakesControl q.1 0 (cmd q.2.1 [p.1]) (ctl 0 (cmd q.2.1 [p.1]) regions) ∧
      answer 0 (rowOf q.1 0) (ctl 0 (cmd q.2.1 [p.1]) regions) = some p.2 ∧
      (p.1 ≤ 7 → result 0 (rowOf q.1 0) { ctl 0 (cmd q.2.1 [p.1]) regions with freeze := true } = some .frozen) := by
  unfold TakesControl CanTake; decide +kernel

/-- R197: a FROZEN response carries the entry's fields like every other. -/
theorem test_region_frozen : ∀ p ∈ [(7, (4096, 16 + 2 ^ 33 + 2 * 2 ^ 40)), (6, (8192, 16 + 2 ^ 32 + 3 * 2 ^ 40))],
    answer 0 (.regionClear 0) { ctl 0 (cmd 0x51 [p.1]) regions with freeze := true } = some (.frozen, p.2) := by
  decide +kernel

theorem witness_freeze : ∀ f ∈ [(false, 1), (true, 0)],
    TakesControl .freeze 0 (cmd 0x53 []) { ctl 0 (cmd 0x53 []) live with freeze := f.1 } ∧
      answer 0 (.freeze 0) { ctl 0 (cmd 0x53 []) live with freeze := f.1 } = some (.done, f.2, 0) := by
  unfold TakesControl CanTake; decide +kernel

theorem witness_freeze_stays : exec .powerWarnDeassert { live with freeze := true, warnLine := true } =
    .next { live with freeze := true } ∧ ∀ b k, Instr.powerWarnDeassert ≠ .coldReset b k :=
  ⟨rfl, fun _ _ => Instr.noConfusion⟩

theorem witness_setFaultPolicy : ∀ p ∈
    [(1, Result.done), (2, .done), (0, .parameter), (3, .parameter)],
    TakesControl .setFaultPolicy 0 (cmd 0x54 [p.1]) (ctl 0 (cmd 0x54 [p.1]) live) ∧
      answer 0 (.setFaultPolicy 0) (ctl 0 (cmd 0x54 [p.1]) live) = some (p.2, if p.2 = .done then 1 else 0, 0) ∧
      (p.2 = .done → result 0 (.setFaultPolicy 0) { ctl 0 (cmd 0x54 [p.1]) live with freeze := true } = some .frozen) := by
  unfold TakesControl CanTake; decide +kernel

theorem test_platformFaultAssert : (after .platformFaultAssert live).cause = some .platformFault ∧
    (after .platformFaultAssert live).mode = .contained ∧
    (after .platformFaultAssert { live with policy := .ignore }).mode = .operational := by
  decide +kernel

theorem witness_policy_after_cold_reset : ∃ t, exec (.coldReset 0 0) { live with policy := .ignore } = .next t ∧
    t.policy = .contain := ⟨_, rfl, rfl⟩

theorem witness_contain : ∀ p ∈ [(Mode.operational, Result.done), (.contained, .mode)],
    TakesControl .contain 0 (cmd 0x55 []) { ctl 0 (cmd 0x55 []) live with mode := p.1 } ∧
      result 0 (.contain 0) { ctl 0 (cmd 0x55 []) live with mode := p.1 } = some p.2 := by
  unfold TakesControl CanTake; decide +kernel

/-- 11.5, step 6: the integrity mark keeps the part CONTAINED, and word 0 is the cause COMMAND. -/
theorem witness_resumePart : ∀ p ∈
    [((Mode.contained, some Cause.command, false, true), (Result.done, 2, 0)),
      ((.contained, some .command, true, false), (.mode, 2, 0)), ((.operational, none, false, false), (.mode, 0, 0)),
      ((.contained, some .platformFault, false, true), (.lineAsserted, 1, 0)),
      ((.contained, some .platformFault, false, false), (.done, 1, 0))],
    let s := { ctl 0 (cmd 0x56 []) live with
      mode := p.1.1, cause := p.1.2.1, integrityMark := p.1.2.2.1, faultLine := p.1.2.2.2 }
    TakesControl .resumePart 0 (cmd 0x56 []) s ∧ answer 0 (.resumePart 0) s = some p.2 := by
  unfold TakesControl CanTake; decide +kernel

/-! ### The Integrity Checker's commands (3.5) -/

def worn : State :=
  { live with hold := some 7001, corrected := 16, firstCorrected := some 70958300
              poisonList := [{ granule := 7001, owner := some 5, cause := .record }] }

theorem witness_integrity : ∀ p ∈
    [(Cmd.ackIntegrity, 0x57, 0, (Result.done, 7001, 0)), (.clearIntegrityCount, 0x58, 0, (.done, 16, 70958300)),
      (.setCorrectedLimit, 0x59, 255, (.done, 0, 0)), (.setCorrectedLimit, 0x59, 1, (.done, 0, 0)),
      (.setCorrectedLimit, 0x59, 0, (.parameter, 0, 0)), (.setCorrectedLimit, 0x59, 256, (.parameter, 0, 0)),
      (.poisonRead, 0x5A, 0, (.done, 7001, 5)), (.poisonRead, 0x5A, 15, (.noEntry, 0, 0)),
      (.poisonRead, 0x5A, 16, (.parameter, 0, 0)), (.partStatus, 0x5B, 0, (.done, 0x1010001000002, 267386880 * 2 ^ 32))],
    TakesControl p.1 0 (cmd p.2.1 [p.2.2.1]) (ctl 0 (cmd p.2.1 [p.2.2.1]) worn) ∧
      answer 0 (rowOf p.1 0) (ctl 0 (cmd p.2.1 [p.2.2.1]) worn) = some p.2.2.2 := by
  unfold TakesControl CanTake; decide +kernel

/-- R53, SET_CORRECTED_LIMIT: a limit that the counter has reached raises TAG_CORRECTED_LIMIT, one above does not. -/
theorem test_setCorrectedLimit : ∀ p ∈ [(16, true), (17, false)],
    (sourceOf (after (.setCorrectedLimit 0) (ctl 0 (cmd 0x59 [p.1]) worn)) 3).pending = p.2 := by
  decide +kernel

/-- R34: the progress (word 0) and the total N/4 (word 4) of PART_STATUS. -/
theorem test_partStatus_total :
    ((chan (after (.partStatus 0) (ctl 0 (cmd 0x5B []) live)) 0).ready.map (·.w4)) = [67108864] := by decide +kernel

/-! ### The queue, the idle step and the invariants -/

theorem witness_front : step { live with pending := [.platformFaultDeassert, .powerWarn] } =
    exec .platformFaultDeassert { live with pending := [.powerWarn] } := rfl

theorem witness_idle : live.pending = [] ∧
    ∃ t, step { live with inFlight := [(42, flight 5 100 false)], heldTags := [⟨256, 1000⟩, ⟨257, 7⟩] } = .next t ∧
      t.inFlight = [(42, { flight 5 100 false with timer := 1 })] ∧ t.heldTags = [⟨256, 1000⟩, ⟨257, 8⟩] :=
  ⟨rfl, _, rfl, rfl, by decide +kernel⟩

theorem witness_sound : Sound worn := by
  constructor <;> first | decide +kernel | (unfold TableForm; decide +kernel) | (unfold TableBelow; decide +kernel)

theorem witness_sound_step : Sound { worn with pending := [.powerWarnDeassert] } ∧
    step { worn with pending := [.powerWarnDeassert] } = .next worn :=
  ⟨{ witness_sound with }, rfl⟩

theorem witness_legal : SpanLegal live ∧ SpanLegal { live with pending := [.powerWarnDeassert] } ∧
    step { live with pending := [.powerWarnDeassert] } = .next live :=
  ⟨⟨⟨1, by decide⟩, ⟨2, by decide⟩, by decide⟩, ⟨⟨1, by decide⟩, ⟨2, by decide⟩, by decide⟩, rfl⟩

/-! ### Cold reset and the links (chapter 1) -/

/-- 2.6 and R18, R19: the strap values, their limits, and the clamp of the size. -/
theorem test_span : ∀ p ∈
    [((1, 2), (0x1000000000, 2 ^ 40)), ((960, 0), (960 * 2 ^ 36, 2 ^ 38)), ((961, 4), (960 * 2 ^ 36, 2 ^ 41)),
      ((1023, 7), (960 * 2 ^ 36, 2 ^ 41)), ((0, 4), (0, 2 ^ 42))],
    ((after (.coldReset p.1.1 p.1.2) live).base, (after (.coldReset p.1.1 p.1.2) live).size) = p.2 := by
  decide +kernel

theorem witness_span_kept : ∃ t, exec .powerWarnDeassert live = .next t ∧ t.size = live.size ∧
    ∀ b k, Instr.powerWarnDeassert ≠ .coldReset b k := ⟨_, rfl, rfl, fun _ _ => Instr.noConfusion⟩

def answered : Completion := { tag := 17, status := .ok, data := none, duplicate := false }

theorem witness_upstreamLinkUp : let s := { live with upLink := false, completions := [answered] }
    s.upLink = false ∧ s.txOffered = none ∧ s.completions ≠ [] ∧
      (after .upstreamLinkUp s).txOffered = some .completion := by decide +kernel

theorem test_upstreamLinkDown :
    let s := { live with completions := [answered], tagsInUse := [17], fillWaits := [4], flush := .waiting, drains :=
      [{ user := .command 0, members := [], held := true }, { user := .request, members := [3], held := true }] }
    (after .upstreamLinkDown s).completions = [] ∧ (after .upstreamLinkDown s).tagsInUse = [] ∧
      (after .upstreamLinkDown s).fillWaits = [4] ∧
      (after .fillWaitListStart (after .upstreamLinkDown s)).fills.map (·.line) = [4] ∧
      (after .upstreamLinkDown s).drains = [{ user := .request, members := [3], held := false }] := by decide +kernel

theorem witness_completionTaken :
    let s := { live with txOffered := some .completion, txLast := some .completion, tagsInUse := [17, 30]
                         completions := [answered, { answered with tag := 30 }]
                         noticeSlot := some { source := 1, cls := 2 } }
    s.txOffered = some .completion ∧ (after .completionTaken s).tagsInUse = [30] ∧
      (after .completionTaken s).txOffered = some .notice ∧
      (after .completionTaken { s with noticeSlot := none }).txOffered = some .completion := by decide +kernel

/-- 10.9, step 5: the LOG_FULL packet is taken, and DOMAIN_FENCED, of class 3, is placed and notified. -/
theorem witness_noticePacketTaken :
    let s := setSource 2 { cls := 3, pending := true, notified := false }
      { live with txOffered := some .notice, noticeSlot := some { source := 1, cls := 2 } }
    s.txOffered = some .notice ∧ s.upLink = true ∧ s.completions = [] ∧
      (after .noticePacketTaken s).noticeSlot = some { source := 2, cls := 3 } ∧
      (after .noticePacketTaken s).txOffered = some .notice ∧
      (sourceOf (after .noticePacketTaken s) 2).notified = true := by decide +kernel

/-- After the clearing step the packet is placed all the same, and the completion is offered (R190, R174). -/
theorem witness_noticePacketTaken_cleared : ∀ p ∈ [([], none), ([answered], some TxSort.completion)],
    let s := setSource 2 { cls := 3, pending := true, notified := false }
      { live with txOffered := some .notice, noticeSlot := some { source := 1, cls := 2 }, completions := p.1
                  warm := some { newWarmReset 2 0 with stage := .revocation [] false .drain } }
    s.upLink = true ∧ (after .noticePacketTaken s).noticeSlot = some { source := 2, cls := 3 } ∧
      (after .noticePacketTaken s).txOffered = p.2 := by decide +kernel

def offerOf (tag : Nat) : DownRequest :=
  { tag := tag, kind := .write, domain := 0, address := 0, mask := 0, data := .none }

/-- R11: after a zero write, the rotation comes to the harvest write before the fill. -/
theorem witness_downstreamOfferTaken :
    let s := { live with offers := [offerOf 336, offerOf 256, offerOf 592], downOffered := some 336 }
    s.downLink = true ∧ tagInClass .zeroWrite 336 = true ∧
      (after .downstreamOfferTaken s).downOffered = some 592 ∧
      (after .downstreamOfferTaken s).lastClass = some .zeroWrite ∧
      (after .downstreamOfferTaken { s with offers := [offerOf 336, offerOf 607] }).downOffered = some 607 ∧
      (after .downstreamOfferTaken { s with offers := [offerOf 336] }).downOffered = none := by decide +kernel

theorem witness_downstreamTagGrant :
    let s := { live with
      tagWaits := [.writeBack 0 0, .zeroLine 0 3, .zeroLine 0 4]
      outstanding := [{ tag := 336, job := .zeroLine 0 0, changed := false, timer := 0 }]
      heldTags := [{ tag := 337, timer := 5 }] }
    s.tagWaits.find? (fun j => jobClass j == .zeroWrite) = some (.zeroLine 0 3) ∧
      freeTag .zeroWrite s = some 338 ∧
      (after (.downstreamTagGrant .zeroWrite) s).tagWaits = [.writeBack 0 0, .zeroLine 0 4] := by decide +kernel

/-- The packets of 2.6 and 3.8: a fill read and a format write of a tag line, and a zero write of 6.8. -/
theorem witness_packets : ∀ p ∈
    [((OwnJob.fill 9 17739575, 256), (AccessKind.read, 0x10F43ABCDC0, DownData.none)),
      ((.formatLine 0, 304), (.write, 0x10F00000000, .tagLine ⟨openRecord, openRecord, openRecord, openRecord⟩)),
      ((.formatLine 66846720, 304), (.write, 0x10FFF000000,
        .tagLine ⟨reservedRecord, reservedRecord, reservedRecord, reservedRecord⟩)),
      ((.zeroLine 1 63, 336), (.write, 0x1000000000 + 4096 * 5003 + 4032, .line 0))],
    let s := { live with tagWaits := [p.1.1], units := [(1, ⟨0, 5003, 63, 63, false, false⟩)] }
    s.tagWaits.find? (fun j => jobClass j == jobClass p.1.1) = some p.1.1 ∧
      freeTag (jobClass p.1.1) s = some p.1.2 ∧
      (after (.downstreamTagGrant (jobClass p.1.1)) s).offers.map (fun r => (r.kind, r.address, r.data)) = [p.2] := by
  decide +kernel

/-! ### Forwarded transactions and own requests (4.5, 1.5) -/

/-- 1.8, at 120 µs: entry 42 is ORPHANED, entry 43 FORWARDED, and tag 17 is in use. -/
def reused : State :=
  { live with
    inFlight := [(42, { flight 5 100 false with orphaned := true }), (43, flight 5 100 true)], tagsInUse := [17] }

/-- 1.8: the late completion of entry 42 answers nobody, that of entry 43 answers tag 17. -/
theorem witness_forwardedCompletion :
    (tblGet reused.inFlight 42).map (·.limitReached) = some false ∧
      (tblGet reused.inFlight 43).map (·.limitReached) = some false ∧
      (after (.forwardedCompletion 42 .ok 0) reused).completions = [] ∧
      (after (.forwardedCompletion 42 .ok 0) reused).inFlight = [(43, flight 5 100 true)] ∧
      completion (.forwardedCompletion 43 .ok 0) reused = some (17, .ok, none) ∧
      completion (.forwardedCompletion 43 .error 0) reused = some (17, .downstreamError, none) := by decide +kernel

/-- 1.8, at 100 µs: TIMEOUT for tag 17 with zero data, and DOWNSTREAM_TIMEOUT. -/
theorem witness_forwardedTimeout :
    let s := { live with inFlight := [(42, flight 5 100 false)], tagsInUse := [17] }
    (tblGet s.inFlight 42).map (·.orphaned) = some false ∧
      completion (.forwardedTimeout 42) s = some (17, .timeout, some 0) ∧
      (tblGet (after (.forwardedTimeout 42) s).inFlight 42).map (·.orphaned) = some true ∧
      (sourceOf (after (.forwardedTimeout 42) s) 12).pending = true := by decide +kernel

/-- R84: the limit of an orphaned read frees its entry; that of a write poisons its granule. -/
theorem witness_orphanLimit :
    let e := { flight 5 7000 true with orphaned := true }
    let s := cached 7000 (priv 5) { live with inFlight := [(42, e), (43, { e with write := false })] }
    tblGet s.inFlight 42 = some e ∧ s.flush = .none ∧ Quiet s ∧ recordAt s 7000 = some (priv 5) ∧
      tblGet s.inFlight 43 = some { e with write := false } ∧
      recordAt (after (.orphanLimit 42) s) 7000 = some { priv 5 with state := .gPoisoned } ∧
      (after (.orphanLimit 42) s).poisonList = [{ granule := 7000, owner := some 5, cause := .orphanWrite }] ∧
      (after (.orphanLimit 43) s).poisonList = [] := by
  unfold Quiet; decide +kernel

theorem witness_ownRequestTimeout :
    let s := { live with outstanding := [{ tag := 336, job := .zeroLine 0 0, changed := false, timer := 100 }] }
    (outstandingAt s 336).isSome = true ∧
      (after (.ownRequestTimeout 336) s).heldTags = [{ tag := 336, timer := 0 }] := by decide +kernel

/-- R12: a timeout tells the engine of each class of own request of a failure, as an ERROR completion does. -/
theorem test_timeout_is_an_error : ∀ j ∈
    [OwnJob.fill 0 17739575, .writeBack 443 4, .formatLine 3, .zeroLine 0 5, .harvest 1],
    let s := { live with outstanding := [{ tag := 400, job := j, changed := false, timer := 100 }]
                         fills := [{ serial := 0, line := 17739575, way := none, tag := some 400, data := none }] }
    after (.ownRequestTimeout 400) s =
      { after (errorRow j 400) s with heldTags := [{ tag := 400, timer := 0 }] } := by decide +kernel

theorem witness_heldTags :
    let s := { live with heldTags := [{ tag := 256, timer := 1000 }, { tag := 607, timer := 3 }] }
    (∃ h ∈ s.heldTags, h.tag = 256) ∧ (after (.heldTagRelease 256) s).heldTags = [{ tag := 607, timer := 3 }] ∧
      outstandingAt s 607 = none ∧ tblGet s.inFlight 607 = none ∧ outstandingAt s 0 = none ∧
      (after (.staleCompletionDiscard 607) s).heldTags = [{ tag := 256, timer := 1000 }] ∧
      after (.staleCompletionDiscard 0) s = s := by decide +kernel

/-! ### The upstream port and the check (chapters 1, 2 and 4) -/

/-- 2.6: the classes of the worked addresses and of the addresses at the edges of the span and the aperture. -/
theorem test_classes : ∀ p ∈
    [(0x53ABCDE040, AddressClass.governed 70958302), (0xFFFFFFFC0, .outside), (0x1000000000, .governed 0),
      (0x10F00000000, .governed 267386880), (0x10FFFFFFFFF, .governed 268435455), (0x11000000000, .aperture 0),
      (0x11000008000, .aperture 0x8000), (0x1100000FFFF, .aperture 0xFFC0), (0x11000010000, .outside)],
    classify live (BitVec.ofNat 46 p.1) = p.2 := by decide +kernel

theorem test_tagLine : ∀ g ∈ [70958300, 70958301, 70958302, 70958303],
    tagLineOf g = 17739575 ∧ cacheSet (tagLineOf g) = 55 ∧ tagLineAddress live (tagLineOf g) = 0x10F43ABCDC0 := by
  decide +kernel

theorem test_quantities : granuleCount live = 268435456 ∧ tagRegionSize live = 1048576 ∧
    tagLineCount live = 67108864 ∧ apertureBase live = 0x11000000000 := by decide +kernel

/-- Each condition of R7 keeps the request on the link. -/
theorem witness_waits : ∀ s ∈
    [{ live with upLink := false }, { live with stage := some ⟨req .read 1 0 0, 0, false⟩ },
      { live with missQueue := [⟨req .read 1 0 0x1000000000, 0, 0, true⟩] },
      { live with missQueue := (List.range 64).map (fun i => ⟨req .read (Fin.ofNat 1024 i) 0 0x1000000000, 0, 0, false⟩) },
      { live with warm := some (newWarmReset 0 0) }, { live with flush := .waiting }],
    ¬PortTakes s ∧ (after (.requestTaken (req .read 900 0 0)) s).tagsInUse = [] := by
  unfold PortTakes; decide +kernel

/-- 1.8, at 3 µs: REFUSED for tag 17, zero data. -/
theorem witness_duplicate : PortTakes reused ∧ (17 : Fin 1024).val ∈ reused.tagsInUse ∧
    completion (.requestTaken (req .read 17 5 0x1000000000)) reused = some (17, .refused, some 0) ∧
    (after (.requestTaken (req .read 17 5 0x1000000000)) reused).tagsInUse = [17] := by
  unfold PortTakes; decide +kernel

/-- Domain 33 of 10.9 before its step 1, with granules 4200, 4204 and 300 cached. -/
def fencing : State :=
  cached 4200 (priv 5) (cached 4204 { priv 5 with count := 1 } (cached 300 openRecord
    { setDom 33 { Domain.reset with state := .running, threshold := 3 } live with
      grants := [(8, grant 4204 5 33 .offered)] }))

/-- The steps of the check before the record, for the domain and the mode given. -/
theorem witness_before_record : ∀ p ∈
    [((Mode.halted, (33 : Fin 512), 0x11000000000), (Status.halted, ([] : List Reason))),
      ((.operational, 33, 0x11000000000), (.blocked, [.management])),
      ((.unformatted, 33, 0x1100000FFC0), (.blocked, [.management])),
      ((.operational, 0, 0xFFFFFFFC0), (.addressError, [])), ((.halted, 0, 0x11000010000), (.halted, [])),
      ((.halted, 0, 0x1000000000), (.halted, [])), ((.unformatted, 1, 0x1000000000), (.stopped, [])),
      ((.formatting, 1, 0x1000000000), (.stopped, [])), ((.formatting, 0, 0x10F00000000), (.blocked, [.tagRegion])),
      ((.contained, 33, 0x1000000000), (.blocked, [])), ((.operational, 1, 0x1000000000), (.blocked, [.unknownDomain])),
      ((.operational, 2, 0x1000000000), (.blocked, [])), ((.operational, 3, 0x1000000000), (.stopped, [])),
      ((.operational, 4, 0x1000000000), (.stopped, [])), ((.operational, 6, 0x1000000000), (.stopped, [])),
      ((.operational, 0, 0x10FFFFFFFC0), (.blocked, [.tagRegion])), ((.contained, 0, 0x10F00000000), (.blocked, [.tagRegion])),
      ((.operational, 33, 0x1000000000 + 4096 * 8192), (.blocked, [.region])),
      ((.operational, 0, 0x1000000000 + 4096 * 4111), (.blocked, [.region]))],
    let s := { inState 2 .fenced (inState 3 .preparing (inState 4 .paused (inState 6 .retiring
      { fencing with regions := regions.regions }))) with mode := p.1.1 }
    let r := req .write 5 p.1.2.1 p.1.2.2
    Arrives r s ∧ completion (.requestTaken r) s = some (5, p.2.1, none) ∧
      (after (.requestTaken r) s).log.map (·.reason) = p.2.2 := by
  unfold Arrives PortTakes; decide +kernel

/-- The requests that those steps forward: a root request while UNFORMATTED, one outside the tag region while
FORMATTING, and one in a ROOT_ONLY region. -/
theorem witness_forwarded_early : ∀ p ∈
    [(Mode.unformatted, 0x10F00000000), (.formatting, 0x1000000000), (.operational, 0x1000000000 + 4096 * 8207)],
    let s := { fencing with regions := regions.regions, mode := p.1 }
    Arrives (req .read 5 0 p.2) s ∧ ((after (.requestTaken (req .read 5 0 p.2)) s).inFlight.map (·.1)) = [0] ∧
      (after (.requestTaken (req .read 5 0 p.2)) s).offers.map (·.tag) = [0] := by
  unfold Arrives PortTakes; decide +kernel

/-- What step 9 is asked about: an address, its granule and record, by a state. -/
abbrev Asks (r : Request) (g : Nat) (rec : TagRecord) (s : State) : Prop :=
  Arrives r s ∧ ReachesStepNine r g s ∧ recordAt s g = some rec

/-- A request that the record permits: of the root on an OPEN granule, of an owner, and of a grantee. -/
theorem witness_permits : ∀ p ∈
    [((0 : Fin 512), AccessKind.write, openRecord), (33, .writeMasked, priv 33),
      (33, .read, { priv 5 with count := 1 }), (0, .read, { priv 5 with count := 1 })],
    let s := cached 4200 p.2.2 { fencing with grants := [(8, grant 4200 5 33 .active), (9, grant 4200 5 0 .active)] }
    let r := req p.2.1 5 p.1 0x1001068000
    Asks r 4200 p.2.2 s ∧ Permits r 4200 p.2.2 s ∧
      (after (.requestTaken r) s).inFlight.map (fun x => (x.1, x.2.granule)) = [(0, 4200)] := by
  intro p hp
  simp only [List.mem_cons, List.not_mem_nil, or_false] at hp
  rcases hp with rfl | rfl | rfl | rfl
  · exact ⟨by unfold Asks Arrives PortTakes ReachesStepNine; decide +kernel, .inl (by decide +kernel),
      by decide +kernel⟩
  · exact ⟨by unfold Asks Arrives PortTakes ReachesStepNine; decide +kernel, .inr (.inl (by decide +kernel)),
      by decide +kernel⟩
  · exact ⟨by unfold Asks Arrives PortTakes ReachesStepNine; decide +kernel,
      .inr (.inr ⟨rfl, by decide, 8, grant 4200 5 33 .active, by decide +kernel, rfl, .inl rfl⟩), by decide +kernel⟩
  · exact ⟨by unfold Asks Arrives PortTakes ReachesStepNine; decide +kernel,
      .inr (.inr ⟨rfl, by decide, 9, grant 4200 5 0 .active, by decide +kernel, rfl, .inl rfl⟩), by decide +kernel⟩

/-- 10.9, step 1: NOT_OWNER, counted, with the first-violation address. -/
theorem witness_notOwner : let r := req .read 5 33 0x1001068000
    Asks r 4200 (priv 5) fencing ∧ StepNine r 4200 (priv 5) fencing .notOwner ∧
      completion (.requestTaken r) fencing = some (5, .blocked, some 0) ∧
      (after (.requestTaken r) fencing).log = [seen31] ∧
      dom (after (.requestTaken r) fencing) 33 =
        { Domain.reset with state := .running, threshold := 3, violations := 1, firstAddress := some 0x1001068000 } :=
  ⟨by unfold Asks Arrives PortTakes ReachesStepNine; decide +kernel,
    .noGrant rfl (by decide) rfl, by decide +kernel, by decide +kernel, by decide +kernel⟩

/-- 10.9, step 2: GRANT_INACTIVE, not counted. -/
theorem witness_inactive : let r := req .write 5 33 0x100106C040
    Asks r 4204 { priv 5 with count := 1 } fencing ∧
      StepNine r 4204 { priv 5 with count := 1 } fencing .grantInactive ∧
      completion (.requestTaken r) fencing = some (5, .blocked, none) ∧
      (after (.requestTaken r) fencing).log.map (fun v => (v.reason, v.counted)) = [(.grantInactive, false)] ∧
      (dom (after (.requestTaken r) fencing) 33).violations = 0 :=
  ⟨by unfold Asks Arrives PortTakes ReachesStepNine; decide +kernel,
    .inactive rfl (by decide) (by decide) ⟨8, grant 4204 5 33 .offered, by decide +kernel, by decide⟩,
    by decide +kernel, by decide +kernel, by decide +kernel⟩

/-- 10.9, step 4: a counted refusal that reaches the threshold fences the domain in the same step. -/
theorem test_fenced : let s := setDom 33 { dom fencing 33 with violations := 2 } fencing
    (dom (after (.requestTaken (req .read 5 33 0x100012C000)) s) 33).state = .fenced ∧
      (sourceOf (after (.requestTaken (req .read 5 33 0x100012C000)) s) 2).pending = true := by decide +kernel

/-- The other refusals of step 9, by the record's state and the grant. -/
theorem witness_refusals : ∀ p ∈
    [((33 : Fin 512), openRecord, Reason.notOwner, Status.blocked),
      (0, { priv 5 with state := .gClearingIn }, .clearing, .blocked),
      (33, { priv 33 with state := .gClearingOut }, .clearing, .blocked),
      (33, { priv 33 with state := .gPoisoned }, .poisoned, .poisoned), (0, reservedRecord, .tagRegion, .blocked),
      (0, { priv 5 with count := 1 }, .notOwner, .blocked),
      (33, { priv 5 with count := 1 }, .grantMode, .blocked)],
    let s := cached 4200 p.2.1 { fencing with grants := [(8, grant 4200 5 33 .active)] }
    let r := req .write 5 p.1 0x1001068000
    Asks r 4200 p.2.1 s ∧ StepNine r 4200 p.2.1 s p.2.2.1 ∧
      completion (.requestTaken r) s = some (5, p.2.2.2, none) ∧
      (after (.requestTaken r) s).log.map (·.reason) = [p.2.2.1] := by
  intro p hp
  simp only [List.mem_cons, List.not_mem_nil, or_false] at hp
  rcases hp with rfl | rfl | rfl | rfl | rfl | rfl | rfl <;>
    refine ⟨by unfold Asks Arrives PortTakes ReachesStepNine; decide +kernel, ?_, by decide +kernel,
      by decide +kernel⟩
  · exact .openToGuest rfl (by decide)
  · exact .clearingIn rfl
  · exact .clearingOut rfl
  · exact .poisoned rfl
  · exact .reserved rfl
  · exact .noEntry rfl (by decide) (by decide +kernel)
  · exact .readOnly rfl (by decide) (by decide) ⟨8, grant 4200 5 33 .active, by decide +kernel, rfl, rfl⟩ (by decide)

/-- R186, R101: a refused check raises VIOLATION for the record of an empty log, nothing for one behind others,
LOG_FULL for one that a full log drops, and DOMAIN_FENCED where it fences. -/
theorem test_refusal_raises : ∀ p ∈
    [((0, 0), ([0] : List Nat)), ((1, 0), []), ((31, 0), []), ((32, 0), [1]), ((0, 2), [0, 2]), ((32, 2), [1, 2])],
    let s := setDom 33 { dom fencing 33 with violations := p.1.2 } { fencing with log := List.replicate p.1.1 seen31 }
    let t := after (.requestTaken (req .read 5 33 0x1001068000)) s
    (t.notices.filter (·.2.pending)).map (·.1) = p.2 ∧ t.log.length = min (p.1.1 + 1) 32 := by decide +kernel

/-- 3.8, at 0 µs: the miss starts a fill under tag 256. -/
theorem witness_miss :
    let s := setDom 5 { Domain.reset with state := .running } live
    let r := req .read 30 5 0x53ABCDE040
    Arrives r s ∧ ReachesStepNine r 70958302 s ∧ recordAt s 70958302 = none ∧ s.fillWaits = [] ∧
      s.fills.length < 8 ∧ (∀ f ∈ s.fills, f.line ≠ 70958302 / 4) ∧ freeTag .fill s = some 256 ∧ s.tagWaits = [] ∧
      (after (.requestTaken r) s).fills.map (fun f => (f.line, f.tag)) = [(17739575, some 256)] ∧
      (after (.requestTaken r) s).offers.map (·.address) = [0x10F43ABCDC0] := by
  unfold Arrives PortTakes ReachesStepNine; decide +kernel

theorem witness_guest_traffic :
    let s := inState 5 .running fencing
    let r := req .read 5 5 0x1001068000
    (∀ d, d ≠ 0 → (dom s d).state ≠ .root) ∧ r.domain ≠ 0 ∧
      tblGet (after (.requestTaken r) s).inFlight 0 = some (entryFor r 4200 false) ∧
      tblGet s.inFlight 0 ≠ some (entryFor r 4200 false) :=
  ⟨guest_not_root (GuestsClean.of_listed (by decide +kernel)), by decide +kernel⟩

/-- R71: the answer to a released waiter: by a record that permits or refuses it, by a step before the record, and a
line that has left the cache again. -/
theorem witness_released :
    let m : Miss := ⟨req .read 5 5 0x1001068000, 4200, 1050, true⟩
    let s := { inState 5 .running fencing with missQueue := [m] }
    let guest := { m with request := req .read 5 33 0x1001068000 }
    let s' := { s with missQueue := [guest] }
    let gone := { setDom 5 { Domain.reset with state := .running } live with missQueue := [m] }
    s.stage = none ∧ s.missQueue.find? (·.released) = some m ∧ ReachesStepNine m.request 4200 s ∧
      recordAt s 4200 = some (priv 5) ∧ (after .presentReleasedWaiter s).missQueue = [] ∧
      (after .presentReleasedWaiter s).inFlight.map (·.1) = [0] ∧
      s'.stage = none ∧ s'.missQueue.find? (·.released) = some guest ∧ ReachesStepNine guest.request 4200 s' ∧
      completion .presentReleasedWaiter s' = some (5, .blocked, some 0) ∧
      gone.missQueue.find? (·.released) = some m ∧ ReachesStepNine m.request 4200 gone ∧ recordAt gone 4200 = none ∧
      (after .presentReleasedWaiter gone).missQueue = [{ m with released := false }] ∧
      (after .presentReleasedWaiter gone).fills.map (·.line) = [1050] ∧
      ∀ p ∈ [(Mode.halted, DState.running, Status.halted), (.contained, .running, .blocked),
          (.operational, .paused, .stopped), (.operational, .fenced, .blocked)],
        completion .presentReleasedWaiter { inState 5 p.2.1 s with mode := p.1 } =
          some (5, p.2.2, some 0) := by
  unfold ReachesStepNine; decide +kernel

theorem witness_held :
    let h : HeldTx := ⟨req .write 5 5 0x1001068000, 4200, false⟩
    let s := { fencing with stage := some h, inFlight := [(0, flight 5 4200 false)]
                            drains := [{ user := .command 0, members := [0], held := true },
                              { user := .command 1, members := [0], held := false }] }
    s.stage = some h ∧ tblFree 256 s.inFlight = some 1 ∧
      (after .heldTransactionForward s).drains.map (fun d => (d.members, d.held)) = [([0, 1], false), ([0], false)] ∧
      (after .heldTransactionForward s).offers = [offerFor h.request 1] ∧ (after .heldTransactionForward s).stage = none ∧
      tblGet (after .heldTransactionForward s).inFlight 1 = some (entryFor h.request 4200 false) := by decide +kernel

/-- R156: a permitted write marks the granule and lists it in the slot's queue. -/
theorem witness_marks :
    let s := cached 100000 (priv 21) tracked
    let r := req .write 5 21 (0x1000000000 + 4096 * 100000)
    Asks r 100000 (priv 21) s ∧ Permits r 100000 (priv 21) s ∧ (dom s 21).slot = some 3 ∧
      (slotOf s 3).state = .active ∧ (∀ e ∈ (slotOf s 3).queue, e.group = false) ∧
      recordAt (after (.requestTaken r) s) 100000 = some { priv 21 with dirty := true } ∧
      (slotOf (after (.requestTaken r) s) 3).queue.map (·.granule) = [100000, 100000] :=
  ⟨by unfold Asks Arrives PortTakes ReachesStepNine; decide +kernel, .inr (.inl ⟨rfl, by decide, rfl⟩),
    by decide +kernel, by decide +kernel, by decide +kernel, by decide +kernel, by decide +kernel⟩

/-- R155: a write to a granule of a domain whose slot has OVERFLOWED sets DIRTY; while the slot is ARMING it does not. -/
theorem witness_isMarked :
    let r := req .write 5 21 (0x1000000000 + 4096 * 100000)
    let s := fun x => cached 100000 (priv 21) (setSlot 3 { slotOf tracked 3 with state := x } tracked)
    IsMarked r (priv 21) (s .overflowed) ∧ ¬IsMarked r (priv 21) (s .arming) ∧
      ∀ p ∈ [(SlotState.overflowed, true), (.arming, false)],
        Asks r 100000 (priv 21) (s p.1) ∧ Permits r 100000 (priv 21) (s p.1) ∧
          (recordAt (after (.requestTaken r) (s p.1)) 100000).map (·.dirty) = some p.2 ∧
          (slotOf (after (.requestTaken r) (s p.1)) 3).queue.length = 1 := by
  refine ⟨⟨by decide, rfl, rfl, 21, 3, rfl, by decide, by decide +kernel, .inr (by decide +kernel)⟩, ?_, ?_⟩
  · rintro ⟨-, -, -, d, k, h1, -, h2, h3⟩
    cases h1
    cases (by decide +kernel : (dom (cached 100000 (priv 21) (setSlot 3 { slotOf tracked 3 with state := .arming } tracked))
      21).slot = some 3).symm.trans h2
    revert h3
    decide +kernel
  · intro p hp
    simp only [List.mem_cons, List.not_mem_nil, or_false] at hp
    rcases hp with rfl | rfl <;>
    exact ⟨by unfold Asks Arrives PortTakes ReachesStepNine; decide +kernel, .inr (.inl ⟨rfl, by decide, rfl⟩),
      by decide +kernel, by decide +kernel⟩

/-! ### The management aperture (chapter 9) -/

theorem witness_submission : ∀ p ∈
    [((0x53, 0, 0), (Status.ok, 1, 0, 0)), ((0x53, 4, 0), (.refused, 4, 0, 0)), ((0x11, 0, 0), (.ok, 0, 1, 0)),
      ((0x11, 0, 4), (.refused, 0, 4, 0)), ((0x11, 4, 3), (.ok, 4, 4, 0)), ((0x99, 0, 0), (.ok, 0, 0, 1))],
    let ch := { Channel.reset with control := List.replicate p.1.2.1 0, work := List.replicate p.1.2.2 0 }
    let s := setChan 1 ch live
    let t := after (.submission 17 1 (cmd p.1.1 [])) s
    PortTakes s ∧ (17 : Fin 1024).val ∉ s.tagsInUse ∧ s.mode ≠ .halted ∧
      completion (.submission 17 1 (cmd p.1.1 [])) s = some (17, p.2.1, none) ∧
      ((chan t 1).control.length, (chan t 1).work.length, (chan t 1).ready.length) = p.2.2 := by
  unfold PortTakes; decide +kernel

theorem witness_submission_full : let s := setChan 1 { Channel.reset with reserved := 8 } live
    SpanLegal s ∧ completion (.submission 17 1 (cmd 0x99 [])) s = some (17, .refused, none) :=
  ⟨witness_legal.1, by decide +kernel⟩

def readyOne : Response :=
  { code := 0x11, result := .aborted, channel := 1, cookie := 7, finished := 3, remaining := 61, next := 5003
    w0 := 13, w1 := 100, w2 := 0, w3 := 0, w4 := 0 }

/-- 9.10: the ASSIGN response in its 64 bytes; and the EMPTY record of an empty list. -/
theorem witness_responseRead :
    let s := setChan 1 { Channel.reset with ready := [readyOne, { readyOne with cookie := 8 }] } live
    PortTakes s ∧ s.mode ≠ .halted ∧ Quiet s ∧ (chan s 1).control = [] ∧ (chan s 1).work = [] ∧
      completion (.responseRead 17 1) s = some (17, .ok, some (packLine [(0, 2, 0x11), (2, 1, 1), (3, 1, 1), (4, 4, 7),
        (8, 4, 3), (12, 4, 61), (16, 8, 5003), (24, 8, 13), (32, 8, 100)])) ∧
      (chan (after (.responseRead 17 1) s) 1).ready = [{ readyOne with cookie := 8 }] ∧
      completion (.responseRead 17 2) s = some (17, .ok, some (packLine [(2, 1, 2), (3, 1, 2)])) := by
  unfold PortTakes Quiet; decide +kernel

theorem witness_otherAccess : ∀ p ∈
    [(AccessKind.read, (0 : Fin 1024)), (.write, 1), (.writeMasked, 0), (.read, 2), (.write, 960), (.write, 1023)],
    PortTakes live ∧ isOwnAccess p.1 p.2 = false ∧
      completion (.apertureOtherWrite 17 p.1 p.2 0 0) live =
        some (17, .refused, if p.1 = .read then some 0 else none) := by
  unfold PortTakes; decide +kernel

/-- R177, R184: the identity line of the part of 2.6 begins with B, S and N. -/
theorem witness_identity : let r := req .read 17 0 (0x11000000000 + 0xF000)
    Arrives r live ∧ classify live r.address = .aperture 0xF000 ∧
      (completion (.requestTaken r) live).map (fun x => (x.2.1, x.2.2.map (fun d => (d.toNat % 2 ^ 192)))) =
        some (.ok, some (0x1000000000 + 2 ^ 40 * 2 ^ 64 + 268435456 * 2 ^ 128)) := by
  unfold Arrives PortTakes; decide +kernel

/-! ### The domain request line and guest requests (chapter 7) -/

/-- The 64 bytes of a guest request (R182). -/
def guest (kind access grantee granule : Nat) : Line :=
  packLine [(0, 1, kind), (1, 1, access), (2, 2, grantee), (8, 8, granule)]

theorem witness_domainRequestWrite : ∀ p ∈
    [((false, 1, 5), (Status.ok, 1)), ((false, 5, 5), (.ok, 1)), ((false, 0, 5), (.refused, 0)),
      ((true, 1, 5), (.refused, 0))],
    let s := inState 5 .running live
    PortTakes s ∧ Quiet s ∧ (dom s 5).state = .running ∧ s.requests = [] ∧ lineField (guest p.1.2.1 1 9 7001) 0 1 ≤ 5 ∧
      (completion (.domainRequestWrite 17 5 p.1.1 0 (guest p.1.2.1 1 9 7001)) s).map (·.2.1) = some p.2.1 ∧
      (after (.domainRequestWrite 17 5 p.1.1 0 (guest p.1.2.1 1 9 7001)) s).requests.length = p.2.2 := by
  unfold PortTakes Quiet; decide +kernel

def asked (d : Nat) : GuestRequest := { requester := d, kind := 2, granule := 0, grantee := 0, access := 0 }

/-- R139: a second request of a domain is refused, and so is any in a full queue. -/
theorem witness_domainRequestWrite_refused : ∀ q ∈ [[asked 5], (List.range 16).map (fun i => asked (i + 10))],
    let s := inState 5 .running { live with requests := q }
    PortTakes s ∧ Quiet s ∧
      (completion (.domainRequestWrite 17 5 false 0 (guest 1 1 9 7001)) s).map (·.2.1) = some .refused := by
  unfold PortTakes Quiet; decide +kernel

theorem witness_domainRequestRead : ∀ p ∈
    [((Mode.operational, DState.running), (Status.ok, 0)), ((.halted, .running), (.halted, 0)),
      ((.unformatted, .running), (.stopped, 0)), ((.formatting, .running), (.stopped, 0)),
      ((.contained, .running), (.blocked, 0)), ((.operational, .free), (.blocked, 1)),
      ((.operational, .fenced), (.blocked, 0)), ((.operational, .paused), (.stopped, 0))],
    let s := { inState 5 p.1.2 live with mode := p.1.1 }
    PortTakes s ∧ (completion (.domainRequestRead 17 5) s).map (·.2.1) = some p.2.1 ∧
      (after (.domainRequestRead 17 5) s).log.length = p.2.2 := by
  unfold PortTakes; decide +kernel

/-- A state whose head request is x, with granule 7000 PRIVATE to domain 5 of this record. -/
def asks (x : GuestRequest) (rec : TagRecord) : State :=
  inState 5 .running (inState 9 .paused (inState 11 .retiring (cached 7000 rec { live with requests := [x] })))

def offered (grantee access : Nat) : GuestRequest :=
  { requester := 5, kind := 1, granule := 7000, grantee := grantee, access := access }

theorem witness_offer : ∀ p ∈
    [((offered 9 2, priv 5), Result.done), ((offered 0 1, priv 5), .done), ((offered 9 1, priv 6), .granuleState),
      ((offered 9 1, { priv 5 with state := .gClearingOut }), .granuleState), ((offered 5 1, priv 5), .parameter),
      ((offered 512 1, priv 5), .parameter), ((offered 511 1, priv 5), .domainState), ((offered 9 0, priv 5), .parameter),
      ((offered 9 3, priv 5), .parameter), ((offered 10 1, priv 5), .domainState), ((offered 11 1, priv 5), .domainState),
      ((offered 9 1, { priv 5 with count := 7 }), .grantLimit)],
    HeadStarts 1 p.1.1 [] (asks p.1.1 p.1.2) ∧ Quiet (asks p.1.1 p.1.2) ∧
      recordAt (asks p.1.1 p.1.2) 7000 = some p.1.2 ∧
      (resultOf (after .offer (asks p.1.1 p.1.2)) 5).result = p.2 := by
  intro p hp
  unfold HeadStarts Quiet
  simp only [List.mem_cons, List.not_mem_nil, or_false] at hp
  rcases hp with rfl | rfl | rfl | rfl | rfl | rfl | rfl | rfl | rfl | rfl | rfl | rfl <;>
    exact ⟨⟨by decide +kernel, by decide +kernel, rfl, rfl, rfl, rfl, by decide +kernel, by decide +kernel,
      fun _ h => nomatch h⟩, by decide +kernel, by decide +kernel, by decide +kernel⟩

/-- R140: the start tests in their order, for a head request of each kind: the mode, the requester's state, the
granule. -/
theorem witness_requestRefused : ∀ k ∈ [(Instr.offer, 1), (.withdraw, 2), (.pin, 3), (.unpin, 4), (.query, 5)],
    ∀ p ∈ [((Mode.contained, DState.paused, 2 ^ 40), Result.mode), ((.operational, .paused, 2 ^ 40), .domainState),
      ((.operational, .running, 268435456), .parameter)],
    let x : GuestRequest := { offered 9 1 with kind := k.2, granule := p.1.2.2 }
    let s := inState 5 p.1.2.1 { live with requests := [x], mode := p.1.1 }
    (s.requests = [x] ∧ s.running = none ∧ s.warm = none ∧ s.flush = .none ∧ x.kind = k.2) ∧ Quiet s ∧
      startRefusal x s = some p.2 ∧ (resultOf (after k.1 s) 5).result = p.2 ∧ (after k.1 s).requests = [] := by
  unfold Quiet; decide +kernel

/-- R51, R140: a request whose granule is not cached waits for the fill; a WITHDRAW's entry is REVOKING meanwhile. -/
theorem witness_requestWaits : ∀ k ∈ [(Instr.offer, 1, none), (.pin, 3, none), (.unpin, 4, none), (.query, 5, none),
      (.withdraw, 2, some (3, 5))],
    let x : GuestRequest := { offered 9 1 with kind := k.2.1 }
    let s := inState 5 .running { live with requests := [x], grants := [(3, grant 7000 5 9 .active)] }
    (s.requests = [x] ∧ s.running = none ∧ s.warm = none ∧ s.flush = .none ∧ x.kind = k.2.1 ∧
      s.mode = .operational ∧ (dom s 5).state = .running ∧ 7000 < granuleCount s) ∧ Quiet s ∧
      recordAt s 7000 = none ∧ (∀ d ∈ s.drains, d.user ≠ .request) ∧
      (after k.1 s).running = some { wait := .fill 1750, entry := k.2.2 } ∧ (after k.1 s).requests = [x] ∧
      (after k.1 s).fills.map (·.line) = [1750] := by
  unfold Quiet; decide +kernel

/-- R142: a second entry for the same granule and grantee. -/
theorem witness_duplicate_offer :
    let s := { asks (offered 9 1) { priv 5 with count := 1 } with grants := [(0, grant 7000 5 9 .offered)] }
    (grantFor s 7000 9).isSome = true ∧ (resultOf (after .offer s) 5).result = .duplicate := by
  decide +kernel

theorem tblGet_of_mem {α : Type} {t : Table α} {p : Nat × α} (h : p ∈ t) : (tblGet t p.1).isSome = true := by
  induction t with
  | nil => cases h
  | cons q t ih =>
    simp only [tblGet]
    split
    · rfl
    · rcases List.mem_cons.1 h with rfl | h
      · exact absurd rfl ‹_›
      · exact ih h

/-- R142: with 1024 entries no index is free, and none of them is of the granule. -/
theorem witness_full_table :
    let s := { live with grants := (List.range 1024).map (fun i => (i, grant (8000 + i) 5 9 .active)) }
    tblFree 1024 s.grants = none ∧ grantFor s 7000 9 = none := by
  refine ⟨List.find?_eq_none.2 fun k hk => ?_, by decide +kernel⟩
  have := tblGet_of_mem (List.mem_map.2 ⟨k, hk, rfl⟩ :
    (k, grant (8000 + k) 5 9 .active) ∈ (List.range 1024).map (fun i => (i, grant (8000 + i) 5 9 .active)))
  simpa [Option.isNone_iff_eq_none, Option.isSome_iff_ne_none] using this

/-- 7.8: the entry is created at the lowest free index, in state OFFERED. -/
theorem test_offer_entry : let s := { asks (offered 9 2) (priv 5) with grants := [(0, grant 1 5 9 .active)] }
    (grantAt (after .offer s) 1).map (fun g => (g.granule, g.owner, g.grantee, g.readWrite, g.state)) =
        some (7000, 5, 9, true, .offered) ∧
      (resultOf (after .offer s) 5).grant = some 1 ∧ (dom (after .offer s) 9).held = 1 := by decide +kernel

def asking (kind : Nat) : GuestRequest := { offered 9 1 with kind := kind }

/-- What every start of domain 5's request needs, at `asks`. -/
theorem headStarts (kind : Nat) (rec : TagRecord) : HeadStarts kind (asking kind) [] (asks (asking kind) rec) :=
  ⟨rfl, rfl, rfl, rfl, rfl, rfl, rfl, (by decide +kernel : 7000 < granuleCount live), fun _ h => nomatch h⟩

theorem witness_pin : ∀ p ∈
    [(priv 5, Result.done, true), ({ priv 5 with pinned := true }, .done, true), (priv 6, .granuleState, false),
      ({ priv 5 with state := .gClearingIn }, .granuleState, false)],
    Quiet (asks (asking 3) p.1) ∧ recordAt (asks (asking 3) p.1) 7000 = some p.1 ∧
      (resultOf (after .pin (asks (asking 3) p.1)) 5).result = p.2.1 ∧
      (recordAt (after .pin (asks (asking 3) p.1)) 7000).map (·.pinned) = some p.2.2 := by
  unfold Quiet; decide +kernel

theorem witness_unpin : ∀ p ∈
    [({ priv 5 with pinned := true }, Result.done, false), (priv 5, .done, false),
      ({ priv 6 with pinned := true }, .granuleState, true)],
    Quiet (asks (asking 4) p.1) ∧ recordAt (asks (asking 4) p.1) 7000 = some p.1 ∧
      (resultOf (after .unpin (asks (asking 4) p.1)) 5).result = p.2.1 ∧
      (recordAt (after .unpin (asks (asking 4) p.1)) 7000).map (·.pinned) = some p.2.2 := by
  unfold Quiet; decide +kernel

theorem witness_query : ∀ p ∈
    [(priv 5, [], (Result.done, none, QueryPart.ownerView .gPrivate false 0)),
      ({ priv 6 with count := 1 }, [(3, grant 7000 6 5 .offered)],
        (.done, some 3, .granteeView .gPrivate .offered false)), (priv 6, [], (.notOwner, none, .absent))],
    let s := { asks (asking 5) p.1 with grants := p.2.1 }
    Quiet s ∧ recordAt s 7000 = some p.1 ∧ ((resultOf (after .query s) 5).result,
      (resultOf (after .query s) 5).grant, (resultOf (after .query s) 5).query) = p.2.2 := by
  unfold Quiet; decide +kernel

/-- WITHDRAW by its grantee field, the entries and the traffic: refused, at once, or after a drain. -/
theorem witness_withdraw : ∀ p ∈
    [((9, [(3, grant 7000 5 9 .active)], []), (Result.done, none, some 0)),
      ((9, [(3, grant 7000 5 9 .active)], [(0, flight 9 7000 false)]), (.empty, some .revoking, some 1)),
      ((9, [(3, grant 7000 6 9 .active)], []), (.notOwner, some .active, some 1)), ((9, [], []), (.noEntry, none, some 1)),
      ((511, [], []), (.noEntry, none, some 1)), ((512, [], []), (.parameter, none, some 1))],
    let x := { asking 2 with grantee := p.1.1 }
    let s := { asks x { priv 5 with count := 1 } with grants := p.1.2.1, inFlight := p.1.2.2 }
    Quiet s ∧ (∀ d ∈ s.drains, d.user ≠ .request) ∧ s.stage = none ∧ s.requests = [x] ∧ s.running = none ∧
      ((resultOf (after .withdraw s) 5).result, (grantAt (after .withdraw s) 3).map (·.state),
        (recordAt (after .withdraw s) 7000).map (·.count)) = p.2 := by
  unfold Quiet; decide +kernel

/-! ### Drains (R85) -/

/-- Transactions 7 to 9 are in flight on granules 5000 and 5001, and one of domain 9 on granule 5000 holds the check
stage. -/
def busy (s : State) : State :=
  { s with
    inFlight := [(7, flight 9 5000 true), (8, flight 9 5001 false), (9, flight 33 5000 false)]
    stage := some { request := req .write 40 9 (0x1000000000 + 4096 * 5000), granule := 5000, unformatted := false } }

/-- The drains that begin count each matching entry, and the held transaction where it matches: by granule, by granule
and grantee, by range, and RETIRE's by domain and by each entry that it owns. -/
theorem witness_drains : ∀ p ∈
    [((Cmd.assign, 0x11, [21, 5000, 6, 1]), openRecord, live, [([7, 9], true)]),
      ((.assign, 0x11, [21, 5001, 6, 1]), openRecord, live, [([8], false)]),
      ((.release, 0x12, [21, 5000, 6]), priv 21, live, [([7, 9], true)]),
      ((.restore, 0x13, [5000]), poisonedRecord none, live, [([7, 9], true)]),
      ((.revokeGrant, 0x16, [20]), priv 9, { live with grants := [(20, grant 5000 5 9 .active)] }, [([7], true)]),
      ((.revokeGrant, 0x16, [20]), priv 9, { live with grants := [(20, grant 5000 5 33 .active)] }, [([9], false)]),
      ((.retire, 0x15, [9, 0, 1]), priv 9, { live with grants := [(20, grant 5000 9 33 .active)] },
        [([7, 8], true), ([9], false)]),
      ((.format, 0x10, [0]), openRecord, { live with mode := .unformatted, tagBase := none }, [([7, 8, 9], true)]),
      ((.format, 0x10, [5001]), openRecord, { live with mode := .unformatted, tagBase := none }, [([8], false)])],
    let b := cmd p.1.2.1 p.1.2.2
    let s := wrk 1 b (busy (inState 9 .fenced (setDom 21 { Domain.reset with state := .running, quota := 40, owned := 10 }
      (cached 5000 p.2.1 (cached 5004 openRecord p.2.2.1)))))
    let t := after (rowOf p.1.1 1) s
    StartsWork p.1.1 1 b s ∧ recordAt s 5000 = some p.2.1 ∧ (∀ d ∈ s.drains, d.user ≠ .command 1) ∧
      t.drains.map (fun d => (d.members, d.held)) = p.2.2.2 ∧
      (∀ d ∈ t.drains, d.user = if p.1.1 = .retire then .clearance 1 else .command 1) ∧
      (p.1.1 = .retire → clearanceDrains 1 9 s = t.drains) ∧ (chan t 1).active.map (·.wait) = some .drain := by
  unfold StartsWork TakesWork CanTake Quiet; decide +kernel

/-- WITHDRAW drains the grantee's transactions on the granule alone. -/
theorem witness_withdraw_drain :
    let x := { asking 2 with grantee := 9 }
    let s := { asks x { priv 5 with count := 1 } with
      grants := [(3, grant 7000 5 9 .active)]
      inFlight := [(1, flight 5 7000 true), (2, flight 9 7000 false), (4, flight 9 7001 false)] }
    (∀ d ∈ s.drains, d.user ≠ .request) ∧ Quiet s ∧
      (after .withdraw s).drains = [{ user := .request, members := [2], held := false }] := by
  unfold Quiet; decide +kernel

/-! ### Taking commands (9.3, 9.4) -/

/-- R168: with no free slot, an empty queue, another command in front, or an active work command in front of a work
command, the named command is not taken. -/
theorem witness_not_taken : ∀ s ∈
    [setChan 0 { Channel.reset with control := [cmd 0x53 []], reserved := 8 } live, live, ctl 0 (cmd 0x55 []) live,
      { ctl 0 (cmd 0x53 []) live with warm := some (newWarmReset 1 0) }, { ctl 0 (cmd 0x53 []) live with flush := .done }],
    (¬CanTake 0 s ∨ ((chan s 0).control = [] ∧ (chan s 0).work = []) ∨
      ((chan s 0).control.head?.map (fun b => cmdOfCode (blockCode b))) = some (some .contain)) ∧
      after (.freeze 0) s = s := by
  unfold CanTake; decide +kernel

theorem witness_not_started :
    let a : Active := { block := cmd 0x19 [], work := .restore 7, phase := .visit, wait := .fill 1, ending := none }
    let s := setChan 0 { Channel.reset with work := [cmd 0x13 [7]], active := some a, reserved := 1 } live
    (chan s 0).control = [] ∧ (chan s 0).active ≠ none ∧ after (.restore 0) s = s ∧
      after (.format 0) (wrk 0 (cmd 0x13 [7]) live) = wrk 0 (cmd 0x13 [7]) live := by decide +kernel

/-- R169: the commands that UNFORMATTED and FORMATTING refuse with MODE. -/
theorem witness_mode_refused : ∀ p ∈ [(Cmd.create, 0x40), (.freeze, 0x53), (.contain, 0x55), (.setCorrectedLimit, 0x59)],
    ∀ m ∈ [Mode.unformatted, .formatting],
    let s := { ctl 0 (cmd p.2 [1]) live with mode := m }
    CanTake 0 s ∧ Quiet s ∧ isWork p.1 = false ∧ (chan s 0).control.head? = some (cmd p.2 [1]) ∧
      cmdOfCode (blockCode (cmd p.2 [1])) = some p.1 ∧ result 0 (rowOf p.1 0) s = some .mode := by
  unfold CanTake Quiet; decide +kernel

/-- R169: every work command but FORMAT is refused with MODE, with its counts as at a refusal. -/
theorem witness_work_mode_refused : ∀ p ∈ [(Cmd.assign, 0x11), (.restore, 0x13), (.flushTags, 0x19), (.regionSet, 0x1A)],
    ∀ m ∈ [Mode.unformatted, .formatting],
    let s := { wrk 0 (cmd p.2 [1]) live with mode := m }
    CanTake 0 s ∧ Quiet s ∧ isWork p.1 = true ∧ (chan s 0).control = [] ∧ (chan s 0).active = none ∧
      (chan s 0).undo = none ∧ (chan s 0).work = [cmd p.2 [1]] ∧ cmdOfCode (blockCode (cmd p.2 [1])) = some p.1 ∧
      result 0 (rowOf p.1 0) s = some .mode := by
  unfold CanTake Quiet; decide +kernel

/-- R169: REVOKE_GRANT names no range, so its MODE response reports no count. -/
theorem test_revokeGrant_mode :
    let s := { wrk 0 (cmd 0x16 [1]) live with mode := .unformatted }
    (chan (after (.revokeGrant 0) s) 0).ready.map (fun r => (r.result, r.finished, r.remaining, r.next)) =
      [(.mode, 0, 0, 0)] := by decide +kernel

/-- The ASSIGN of 9.10 as it stands with 3 granules finished, in the phase given. -/
def assigning (phase : Phase) (wait : Wait) : Active :=
  { block := cmd 0x11 [21, 5000, 64, 1], work := .assign 21 5000 64 false 3, phase := phase, wait := wait
    ending := none }

/-- 9.10 at step 8, with the ASSIGN of channel 1 in the phase given. -/
def midAssign (phase : Phase) (wait : Wait) : State :=
  setChan 1 { Channel.reset with active := some (assigning phase wait), reserved := 1, claim := some 5003
                                 work := [] }
    (setDom 21 { Domain.reset with state := .running, quota := 100, owned := 14 }
      (cached 5003 { priv 21 with state := .gClearingIn } live))

theorem witness_abort_params : ∀ p ∈
    [([0, 0], (Result.done, 0, 0)), ([3, 1], (.done, 0, 4)), ([4, 0], (.parameter, 0, 0)), ([3, 2], (.parameter, 0, 0))],
    let s := ctl 0 (cmd 0x5C p.1) (setChan 3 { Channel.reset with work := [1, 2, 3, 4] } live)
    TakesControl .abort 0 (cmd 0x5C p.1) s ∧ Quiet s ∧ (chan s (wordA (cmd 0x5C p.1))).active = none ∧
      answer 0 (.abort 0) s = some p.2 := by
  unfold TakesControl CanTake Quiet; decide +kernel

/-- 9.10: ABORT answers DONE with word 0 = 1 and the code of ASSIGN; a drained ASSIGN undoes its granule and
completes ABORTED with done 3, remaining 61, next 5003, the owned count after the undo and the quota. -/
theorem witness_abort_assign : ∀ p ∈ [(Phase.visit, Wait.fill 1250, 14), (.drain, .drain, 13)],
    let s := ctl 0 (cmd 0x5C [1, 0]) (midAssign p.1 p.2.1)
    TakesControl .abort 0 (cmd 0x5C [1, 0]) s ∧ Quiet s ∧ Runs 1 (assigning p.1 p.2.1) s ∧
      (chan s 1).stop = false ∧ (chan s 1).claim = some 5003 ∧
      recordAt s 5003 = some { priv 21 with state := .gClearingIn } ∧
      (((chan (after (.abort 0) s) 0).ready.getLast?).map (fun r => (r.result, r.w0, r.w1, r.w2))) =
        some (.done, 1, 0, 0x11) ∧
      (((chan (after (.abort 0) s) 1).ready.getLast?).map (fun r => (r.result, r.finished, r.remaining, r.next))) =
        some (.aborted, 3, 61, 5003) ∧
      answer 1 (.abort 0) s = some (.aborted, p.2.2, 100) := by
  unfold TakesControl CanTake Runs Quiet; decide +kernel

/-- Channel 1 with this command active and one work command waiting; channel c holds an ABORT of it that flushes. -/
def aborting (c : Nat) (a : Active) (claim : Option Nat) (s : State) : State :=
  ctl c (cmd 0x5C [1, 1])
    (setChan 1 { Channel.reset with active := some a, reserved := 1, claim := claim, work := [cmd 0x19 []] } s)

/-- R172: an ABORT from another channel and one from the channel's own find the command; channel 1's ready responses
after it: ABORT's own first. -/
theorem witness_abort_atOnce : ∀ c ∈ [(0 : Fin 4), 1], ∀ p ∈
    [((Work.release 21 5000 4 1, Phase.visit, Wait.fill 1250), (1, 3, 5001)),
      ((.restore 5003, .visit, .fill 1250), (0, 1, 5003)),
      ((.queryGranules 5000 5 [7, 8], .visit, .fill 1250), (2, 3, 5002)),
      ((.revoke { index := 20, serial := 5, granule := 7000, owner := 5, grantee := 9, readWrite := true }, .drain, .drain),
        (0, 1, 7000)),
      ((.trackStart 2 21 5000 6 4 1, .clearing, .fill 1251), (4, 2, 5004)),
      ((.regionSet 3 5000 6 false 2, .visit, .fill 1250), (2, 4, 5002)),
      ((.trackCollect { slot := 3, buffer := 5000, capacity := 9, count := 0, delivered := 0, lines := 0, group := []
                        visited := 0 }, .buffer, .fill 1250), (0, 9, 268435456))],
    let a : Active := { block := cmd 0x11 [], work := p.1.1, phase := p.1.2.1, wait := p.1.2.2, ending := none }
    let s := aborting c.val a none live
    AbortFinds c.val 1 (cmd 0x5C [1, 1]) a s ∧ stopsAtOnce a = true ∧
      (chan (after (.abort c) s) 1).ready.map (fun r => (r.result, r.finished, r.remaining, r.next)) =
        (if c = 1 then [(.done, 0, 0, 0)] else []) ++ [(.aborted, p.2)] ∧
      (chan (after (.abort c) s) 1).work = [] ∧ (chan (after (.abort c) s) 1).active = none := by
  unfold AbortFinds TakesControl CanTake Quiet; decide +kernel

/-- R172: a stop already requested goes on; the ABORT is answered and its flush made. -/
theorem witness_abort_again :
    let s := setChan 1 { Channel.reset with active := some (assigning .zero .zero), stop := true, reserved := 1,
                                            work := [cmd 0x19 []] } live
    let t := ctl 0 (cmd 0x5C [1, 1]) s
    TakesControl .abort 0 (cmd 0x5C [1, 1]) t ∧ Quiet t ∧ (chan t 1).active = some (assigning .zero .zero) ∧
      (chan t 1).stop = true ∧ answer 0 (.abort 0) t = some (.done, 1, 1) ∧ (chan (after (.abort 0) t) 1).work = [] ∧
      (chan (after (.abort 0) t) 1).active = (chan t 1).active := by
  unfold TakesControl CanTake Quiet; decide +kernel

/-- R129, R130: an ABORT of a command that waits for a unit or for a later lookup undoes its granule, or waits for its
line; the granule's record after it, and the result. -/
theorem witness_abort_undo : ∀ p ∈
    [((Work.assign 21 5003 4 false 0, Phase.unit, Wait.unit), GState.gClearingIn, some GState.gOpen, some Result.aborted),
      ((.release 21 5003 4 0, .unit, .unit), .gClearingOut, some .gPrivate, some .aborted),
      ((.release 21 5003 4 0, .drain, .drain), .gPoisoned, some .gPoisoned, some .aborted),
      ((.restore 5003, .unit, .unit), .gPoisoned, some .gPoisoned, some .aborted),
      ((.release 21 5003 4 0, .unit, .unit), .gReserved, none, none)],
    let a : Active := { block := cmd 0x11 [], work := p.1.1, phase := p.1.2.1, wait := p.1.2.2, ending := none }
    let s := aborting 1 a (some 5003)
      (if p.2.2.1.isSome then cached 5003 { priv 21 with state := p.2.1 } live else live)
    AbortFinds 1 1 (cmd 0x5C [1, 1]) a s ∧ undoesGranules a.work = true ∧ 5003 = granuleAt a.work ∧
      (chan s 1).claim = some 5003 ∧ (recordAt s 5003).map (·.state) = (if p.2.2.1.isSome then some p.2.1 else none) ∧
      ((recordAt (after (.abort 1) s) 5003).map (·.state)) = p.2.2.1 ∧
      ((chan (after (.abort 1) s) 1).active.map (fun a => (a.phase, a.wait))) =
        (if p.2.2.1.isSome then none else some (.undo, .fill 1250)) ∧
      (((chan (after (.abort 1) s) 1).ready[1]?).map (·.result)) = p.2.2.2 := by
  unfold AbortFinds TakesControl CanTake Quiet; decide +kernel

/-! ### Resets and power warning (9.7, 11.3) -/

/-- R190, R174: a notice raised after the clearing step is placed, and offered once traffic resumes; a packet kept from
before that step is offered (R8). -/
theorem test_notices_wait_for_resumption : ∀ p ∈ [(WarmStage.settling, some TxSort.notice), (.tagCache ⟨[], []⟩, none),
    (.revocation [] false .drain, none)],
    let s := { live with warm := some { newWarmReset 2 0 with stage := p.1 } }
    (finish (raise .tagFetchFailed s)).noticeSlot.isSome ∧ (finish (raise .tagFetchFailed s)).txOffered = p.2 ∧
      (finish { s with noticeSlot := some { source := 5, cls := 2 } }).txOffered = some .notice := by decide +kernel

theorem witness_resetEngines :
    let s := ctl 2 (cmd 0x5D []) { live with drains := [{ user := .request, members := [0], held := false }]
                                             inFlight := [(0, flight 5 1 false)] }
    TakesControl .resetEngines 2 (cmd 0x5D []) s ∧ Quiet s ∧ (∀ x, x < 4 → (chan s x).active = none) ∧
      (after (.resetEngines 2) s).warm = some (newWarmReset 2 (cmd 0x5D [])) ∧
      (after (.resetEngines 2) s).drains = [] := by
  unfold TakesControl CanTake Quiet; decide +kernel

theorem witness_warmResetSettled :
    let w := { newWarmReset 2 (cmd 0x5D []) with stopped := 1 }
    let s := setChan 2 { Channel.reset with reserved := 1, ready := [readyOne] }
      (setChan 1 { Channel.reset with work := [1, 2], ready := [readyOne] }
        { cached 7000 (priv 5) live with
          warm := some w, log := [seen31], requests := [asked 5], grants := [(20, grant 7001 5 9 .active)] })
    w.stage = .settling ∧ w.channel < 4 ∧ s.flush = .none ∧ Quiet s ∧ s.stage = none ∧
      (∀ p ∈ s.inFlight, p.2.orphaned = true) ∧ s.missQueue = [] ∧ s.running = none ∧ s.units = [] ∧
      (∀ x, x < 4 → (chan s x).active = none ∧ (chan s x).undo = none) ∧ s.fills = [] ∧ s.fillWaits = [] ∧
      s.poisonings = [] ∧ (∀ p ∈ s.ways, p.2.dirty = false) ∧ writeBackCount s = 0 ∧
      (∀ p ∈ s.grants, p.2.state ≠ .revoking) ∧ (after .warmResetSettled s).warm = none ∧
      (chan (after .warmResetSettled s) 1).ready = [] ∧
      (((chan (after .warmResetSettled s) 2).ready).map (fun r => (r.result, r.w0, r.w1, r.w2))) =
        [(.done, 1, 2, 2)] := by
  unfold Quiet; decide +kernel

theorem witness_powerWarn :
    let s := { live with inFlight := [(0, flight 5 1 false)] }
    s.warnLine = false ∧ s.flush = .none ∧ Quiet s ∧ (∃ p ∈ s.inFlight, p.2.orphaned = false) ∧
      (after .powerWarn s).flush = .waiting ∧ (after .powerWarn s).mode = .operational ∧
      (after .powerWarn { s with inFlight := [] }).mode = .halted ∧
      (after .powerWarn { s with warnLine := true }).flush = .none := by
  unfold Quiet; decide +kernel

def dirtyWay : Way := { line := 17739575, dirty := true, records := ⟨priv 5, priv 9, priv 5, openRecord⟩ }

/-- The flush ends at once with a clean cache, and writes a dirty line back first. -/
theorem witness_powerWarnQuiesced : ∀ p ∈ [([(443, { dirtyWay with dirty := false })], Mode.halted, []),
    ([(443, dirtyWay)], .operational, [0x10F43ABCDC0])],
    let s := { live with flush := .waiting, warnLine := true, ways := p.1 }
    s.flush = .waiting ∧ s.stage = none ∧ s.missQueue = [] ∧ (∀ q ∈ s.inFlight, q.2.orphaned = true) ∧
      s.fills = [] ∧ s.fillWaits = [] ∧ writeBackCount s = 0 ∧ (after .powerWarnQuiesced s).mode = p.2.1 ∧
      (after .powerWarnQuiesced s).offers.map (·.address) = p.2.2 := by decide +kernel

/-- The edge withdraws the drains of what it abandons and no other; the entries that they count stay. -/
theorem test_powerWarn_drains :
    let d := fun u => ({ user := u, members := [0], held := false } : Drain)
    let s := { live with inFlight := [(0, flight 5 1 false)]
                         drains := [d .request, d (.command 3), d (.command 4), d .warmReset, d (.group 0)] }
    (after .powerWarn s).drains = [d (.command 4)] ∧ (after .powerWarn s).inFlight = s.inFlight := by decide +kernel

/-- The flush runs, and a write-back of line 17739575 is outstanding: its own, or, with the line in `x.earlier`, not. -/
def writingAll (x : CacheWrites) (ways : Table Way) : State :=
  { live with
    flush := .writing x, warnLine := true, ways := ways
    outstanding := [{ tag := 272, job := .writeBack 443 17739575, changed := false, timer := 0 }] }

/-- R61, R62, R202: the end of the flush's last write halts the part, the failure of its own leaving the line dirty;
after the failure of one that was outstanding before the flush the line is written back again (log entry 42). -/
theorem witness_flush_writing : ∀ p ∈
    [((DownStatus.ok, [], [(443, dirtyWay)]), (Mode.halted, Flush.done, [], [false])),
      ((.error, [], [(443, dirtyWay)]), (.halted, .done, [], [true])),
      ((.error, [17739575], [(443, dirtyWay)]), (.operational, .writing ⟨[], []⟩, [0x10F43ABCDC0], [true])),
      ((.ok, [], [(443, dirtyWay), (444, { dirtyWay with line := 311 })]),
        (.operational, .writing ⟨[], []⟩, [0x10F00000000 + 64 * 311], [false, true])),
      ((.error, [], [(443, dirtyWay), (444, { dirtyWay with line := 311 })]),
        (.operational, .writing ⟨[17739575], []⟩, [0x10F00000000 + 64 * 311], [true, true]))],
    let s := writingAll ⟨[], p.1.2.1⟩ p.1.2.2
    let t := after (.writeBackCompletion 272 p.1.1) s
    (outstandingAt s 272).map (·.job) = some (.writeBack 443 17739575) ∧ tblGet s.ways 443 = some dirtyWay ∧
      s.fills = [] ∧ Quiet s ∧ s.channels = [] ∧
      (t.mode, t.flush, t.offers.map (·.address), t.ways.map (·.2.dirty)) = p.2 ∧ t.cause = none := by
  unfold Quiet; decide +kernel

/-! ### The Tag Cache and the Fill Table (chapter 3) -/

/-- 3.8 while its fill read is outstanding: three waiters, way 3 claimed and clean. -/
def filling : State :=
  { live with
    fills := [{ serial := 0, line := 17739575, way := some 3, tag := some 256, data := none }]
    outstanding := [{ tag := 256, job := .fill 0 17739575, changed := false, timer := 1 }]
    missQueue := [⟨req .read 30 5 0x53ABCDE040, 70958302, 17739575, false⟩,
      ⟨req .write 31 5 0x53ABCDE040, 70958302, 17739575, false⟩,
      ⟨req .read 32 9 0x53ABCDD000, 70958301, 17739575, false⟩]
    tagsInUse := [30, 31, 32] }

def goodPart : StatePart := { state := .gPrivate, pinned := false, dirty := false, count := 0 }
def openPart : StatePart := { goodPart with state := .gOpen }

/-- The four records of 3.8, with what the check codes of slots 0 and 1 say. -/
def reply (o0 : PartRead (Option (Fin 512))) (p1 : PartRead StatePart) : FillReply :=
  .records ⟨o0, .good goodPart⟩ ⟨.good (some 9), p1⟩ ⟨.good (some 5), .good goodPart⟩ ⟨.good (some 0), .good openPart⟩

/-- R176, R165: the edge drops a pending undo that is a poisoning, and the fill of its line poisons nothing; the
poisoning ordered for an active command stays pending and is made (R51, R202). -/
theorem test_powerWarn_drops_ordered_poisoning : ∀ p ∈ [(true, []), (false, [5003])],
    let w : Work := .release 21 5003 1 0
    let u : PendingUndo := { granule := 5003, work := w, poison := true, wait := .poison }
    let a : Active := { block := cmd 0x11 [], work := w, phase := .scrubFailed, wait := .poison, ending := none }
    let ch := if p.1 then { Channel.reset with claim := some 5003, undo := some u }
      else { Channel.reset with claim := some 5003, active := some a, reserved := 1 }
    let s := setChan 1 ch { live with
      fills := [{ serial := 0, line := 1250, way := some 3, tag := some 256, data := none }]
      outstanding := [{ tag := 256, job := .fill 0 1250, changed := false, timer := 1 }]
      poisonings := [{ granule := 5003, cause := .scrubFailed, source := .scrub 1, wait := .fill 1250 }] }
    let t := after (.fillReadCompletion 256 (reply (.good (some 5)) (.good goodPart))) (after .powerWarn s)
    (chan t 1).undo = none ∧ (chan t 1).claim = none ∧ t.fills = [] ∧ t.poisonings = [] ∧
      t.poisonList.map (·.granule) = p.2 := by decide +kernel

theorem witness_fill_state :
    let o : Outstanding := { tag := 256, job := .fill 0 17739575, changed := false, timer := 1 }
    let f : Fill := { serial := 0, line := 17739575, way := some 3, tag := some 256, data := none }
    outstandingAt filling 256 = some o ∧ o.job = .fill f.serial f.line ∧
      filling.fills.find? (fun x => x.serial == f.serial) = some f ∧ NoStepWaits f.line filling ∧ Quiet filling ∧
      f.way = some 3 ∧ (∀ v, tblGet filling.ways (8 * (f.line % 256) + 3) = some v → v.dirty = false) :=
  ⟨by decide +kernel, rfl, by decide +kernel,
    ⟨by simp [filling, live, coldState, chan, tblGet, Channel.reset], by simp [filling, live, coldState],
      by simp [filling, live, coldState], by simp [filling, live, coldState]⟩,
    by unfold Quiet; decide +kernel, rfl, by simp [filling, live, coldState, tblGet]⟩

/-- 3.8, at 2.0 µs: slot 0's owner part is corrected, the line is installed dirty and the waiters are released. -/
theorem test_fill_lands : let t := after (.fillReadCompletion 256 (reply (.corrected (some 5)) (.good goodPart))) filling
    tblGet t.ways 443 = some dirtyWay ∧ t.corrected = 1 ∧ t.firstCorrected = some 70958300 ∧
      t.missQueue.map (·.released) = [true, true, true] ∧ t.fills = [] := by decide +kernel

/-- 11.5, R55: an uncorrectable state part poisons the granule, keeps its owner and sets the hold; an uncorrectable
owner part contains the part, without the hold (R56). -/
theorem test_fill_lost : ∀ p ∈
    [((PartRead.good (some 5), PartRead.lost), (poisonedRecord (some 9), some (70958301 : Nat), Mode.operational)),
      ((.lost, .good goodPart), (priv 9, none, .contained))],
    let t := after (.fillReadCompletion 256 (reply p.1.1 p.1.2)) filling
    (recordAt t 70958301, t.hold, t.mode) = (some p.2.1, p.2.2) := by decide +kernel

/-- R54 to R57, R198: a lost state part removes every grant of its granule and lists it; a full list contains the part
first, and a listed granule takes the new owner in its place. -/
theorem witness_landing_poisons : ∀ p ∈
    [((0, 15), (16, none, none)), ((0, 16), (16, some Cause.poisonFull, none)), ((70958286, 16), (16, none, some (9 : Nat)))],
    let l := (List.range p.1.2).map (fun i => ({ granule := p.1.1 + i, owner := some 40, cause := .orphanWrite } : PoisonEntry))
    let s := { setDom 9 { Domain.reset with state := .running, given := 2, held := 3 } filling with
      poisonList := l
      grants := [(3, grant 70958301 9 5 .active), (4, grant 70958302 5 9 .active), (7, grant 70958301 9 33 .offered)] }
    let t := after (.fillReadCompletion 256 (reply (.good (some 5)) .lost)) s
    tblWf s.grants = true ∧ Quiet s ∧
      (t.poisonList.length, t.cause,
        (t.poisonList.find? (fun e => e.granule == 70958301 && e.cause == .orphanWrite)).bind (·.owner)) = p.2 ∧
      t.grants.map (·.1) = [4] ∧ (dom t 9).given = 0 ∧ (dom t 9).held = 3 ∧ t.hold = some 70958301 := by
  unfold Quiet; decide +kernel

/-- R53, R55: a landing's corrections raise the limit's notice only where the counter meets it; its first lost state
part takes a clear hold, and a set hold makes it CASCADE. -/
theorem test_landing_counts : ∀ p ∈
    [((15, none, PartRead.corrected openPart), (16, none, true, Mode.operational, none)),
      ((16, none, .corrected openPart), (17, none, false, .operational, none)),
      ((254, some 9, .corrected openPart), (255, some 9, false, .operational, none)),
      ((255, some 9, .corrected openPart), (255, some 9, false, .operational, none)),
      ((0, none, .lost), (0, some (70958301 : Nat), false, .operational, none)),
      ((0, some (9 : Nat), .lost), (0, some 9, false, .contained, some Cause.cascade))],
    let t := after (.fillReadCompletion 256 (reply (.good (some 5)) p.1.2.2))
      { filling with corrected := p.1.1, hold := p.1.2.1 }
    (t.corrected, t.hold, (sourceOf t 3).pending, t.mode, t.cause) = p.2 := by decide +kernel

theorem test_fill_fails :
    (after (.fillReadCompletion 256 .error) filling).completions.map (fun x => (x.tag, x.status)) =
        [(30, .tagUnavailable), (31, .tagUnavailable), (32, .tagUnavailable)] ∧
      (sourceOf (after (.fillReadCompletion 256 .error) filling) 5).pending = true := by decide +kernel

/-- A fill that waits for a way of set 55 claims one that has left use and writes its dirty line back. -/
theorem witness_fillClaimsWay :
    let f : Fill := { serial := 3, line := 17739575, way := none, tag := some 256, data := none }
    let s := { live with fills := [f], ways := [(443, { dirtyWay with line := 55 })] }
    s.fills.find? (waitsForWay 55) = some f ∧ (∀ x ∈ s.fills, x.serial = f.serial → x.data = none) ∧
      wayInUse s (8 * 55 + 3) = false ∧ Quiet s ∧
      (after (.fillClaimsWay 55 3) s).fills.map (·.way) = [some 3] ∧
      (after (.fillClaimsWay 55 3) s).outstanding.map (fun o => (o.tag, o.job)) = [(272, .writeBack 443 55)] := by
  unfold Quiet; decide +kernel

theorem witness_fillWaitList :
    let s := { live with fillWaits := [17739575, 4] }
    let m : Miss := ⟨req .read 30 5 0x53ABCDE040, 70958302, 17739575, false⟩
    s.fillWaits = [17739575, 4] ∧ s.fills.length < 8 ∧ s.warm = none ∧ s.flush = .none ∧
      (after .fillWaitListStart s).fills.map (·.line) = [17739575] ∧
      (after .fillWaitListStart s).offers.map (·.tag) = [256] ∧
      (after .fillWaitListStart { s with flush := .waiting, missQueue := [m] }).fillWaits = [4] := by decide +kernel

/-- R174: once the warm reset has settled but for its fills, a line that only a poisoning waits for starts no fill and
does not keep the stage from ending; a line that nothing waits for starts its fill, and the stage waits for it. -/
theorem witness_withheld : ∀ p ∈ [([4], [4], true), ([4, 9], [4], false)],
    let w := newWarmReset 0 (cmd 0x5D [])
    let s := { live with
      warm := some w, fillWaits := p.1
      poisonings := [{ granule := 17, cause := .scrubFailed, source := .scrub 1, wait := .fill 4 }] }
    w.stage = .settling ∧ (∀ x, x < 4 → (chan s x).active = none) ∧ s.fills.length < 8 ∧
      (after .fillWaitListStart s).fillWaits = p.2.1 ∧
      (after .fillWaitListStart s).fills.map (·.line) = p.1.filter (· != 4) ∧
      ((after .warmResetSettled s).warm = none) = p.2.2 := by decide +kernel

/-- R202, R13, R51: at the edge the line that only a poisoning waits for leaves the wait list; the line of an abandoned
command stays, starts its fill, and the flush waits for it. -/
theorem test_powerWarn_keeps_waiting_lines :
    let a : Active := { block := cmd 0x11 [], work := .release 21 36 1 0, phase := .visit, wait := .fill 9, ending := none }
    let s := setChan 1 { Channel.reset with active := some a, reserved := 1 }
      { live with
        fillWaits := [4, 9]
        poisonings := [{ granule := 17, cause := .orphanWrite, source := .orphan 3, wait := .fill 4 }] }
    let t := after .powerWarn s
    t.fillWaits = [9] ∧ t.poisonings.map (·.wait) = [.suspended] ∧ t.flush = .waiting ∧
      after .powerWarnQuiesced t = t ∧ (after .fillWaitListStart t).fills.map (·.line) = [9] := by decide +kernel

/-- R84, R47, R174: a poisoning ordered while the warm reset withholds new fills joins the fill of its line that is
under way, and starts none where there is none. -/
theorem test_poisoning_joins_fill : ∀ p ∈ [(1750, Wait.fill 1750), (4, .suspended)],
    let e := { flight 5 7000 true with orphaned := true }
    let f : Fill := { serial := 0, line := p.1, way := some 3, tag := some 256, data := none }
    let w := { newWarmReset 2 0 with stage := .revocation [(20, 5)] false (.fill p.1) }
    let s := { live with inFlight := [(42, e)], warm := some w, fills := [f]
                         grants := [(20, grant 7000 5 9 .revoking)] }
    (after (.orphanLimit 42) s).poisonings.map (·.wait) = [p.2] ∧
      (after (.orphanLimit 42) s).fills = [f] := by decide +kernel

/-- R10: the write-backs of two victims that one step claims are issued in order of tag line index. -/
theorem test_writeBacks_in_line_order :
    let s := { live with ways := [(0, { dirtyWay with line := 256 }), (2040, { dirtyWay with line := 255 })] }
    let t := produceJob (.writeBack 2040 255) (produceJob (.writeBack 0 256) s)
    (issueProduced s t).offers.map (fun r => (r.tag, r.address)) =
      [(272, 0x10F00000000 + 64 * 255), (273, 0x10F00000000 + 64 * 256)] := by decide +kernel

/-- R43: the way of a line whose fill has resumed a command step stays in use until that step has been made. -/
theorem test_resumed_step_holds_its_way : ∀ p ∈ [(Wait.landed 17739575, true), (.fill 4, false)],
    wayInUse (midAssign .visit p.1) 443 = false ∧
      wayInUse { midAssign .visit p.1 with ways := [(443, dirtyWay)] } 443 = p.2 := by decide +kernel

def writingBack : State :=
  { live with ways := [(443, dirtyWay)]
              outstanding := [{ tag := 272, job := .writeBack 443 17739575, changed := false, timer := 0 }] }

theorem witness_writeBack :
    outstandingAt writingBack 272 = some { tag := 272, job := .writeBack 443 17739575, changed := false, timer := 0 } ∧
      tblGet writingBack.ways 443 = some dirtyWay ∧ Quiet writingBack ∧ writingBack.warm = none ∧
      writingBack.flush = .none ∧ (∀ f ∈ writingBack.fills, ∀ w, f.way = some w → 8 * (f.line % 256) + w ≠ 443) ∧
      (∀ c a x, (chan writingBack c).active = some a → a.work = .flushTags x → 17739575 ∉ x.waiting) :=
  ⟨by decide +kernel, rfl, by unfold Quiet; decide +kernel, rfl, rfl, by simp [writingBack, live, coldState],
    by simp [writingBack, live, coldState, chan, tblGet, Channel.reset]⟩

/-- R46, R198: a completed write-back cleans the way; a failed one leaves it dirty and contains the part. -/
theorem test_writeBack :
    (tblGet (after (.writeBackCompletion 272 .ok) writingBack).ways 443).map (·.dirty) = some false ∧
      (tblGet (after (.writeBackCompletion 272 .error) writingBack).ways 443).map (·.dirty) = some true ∧
      (after (.writeBackCompletion 272 .error) writingBack).cause = some .tagWrite := by decide +kernel

theorem witness_flushTags : ∀ p ∈ [([(443, dirtyWay)], none, [272]), ([(443, { dirtyWay with dirty := false })],
    some Result.done, [])],
    let s := wrk 0 (cmd 0x19 []) { live with ways := p.1 }
    StartsWork .flushTags 0 (cmd 0x19 []) s ∧ result 0 (.flushTags 0) s = p.2.1 ∧
      (after (.flushTags 0) s).offers.map (·.tag) = p.2.2 := by
  unfold StartsWork TakesWork CanTake Quiet; decide +kernel

/-- A FLUSH_TAGS that has counted these lines, all of which it waits for. -/
def flushing (lines issued : List Nat) : Active :=
  { block := cmd 0x19 []
    work := .flushTags { position := 2048, waiting := lines, found := lines, issued := issued, good := 0, failed := 0
                         lowest := none }
    phase := .writes, wait := .writes, ending := none }

/-- R44, R45, R48, R49: way 443 is the victim of a fill of line 55 + 256, whose data waits or not: cleaned, landed,
written back anew, or failed with its fill. -/
theorem witness_writeBack_victim : ∀ p ∈
    [((none, false, DownStatus.ok), ([17739575], [311], [false], Mode.operational)),
      ((some ((⟨.good none, .good openPart⟩ : RecordRead), ⟨.good none, .good openPart⟩, ⟨.good none, .good openPart⟩,
        ⟨.good none, .good openPart⟩), false, .ok), ([311], [], [false], .operational)),
      ((none, true, .ok), ([17739575], [311], [true], .operational)),
      ((none, false, .error), ([17739575], [], [true], .contained))],
    let f : Fill := { serial := 4, line := 311, way := some 3, tag := none, data := p.1.1 }
    let s := { writingBack with
      fills := [f]
      outstanding := [{ tag := 272, job := .writeBack 443 17739575, changed := p.1.2.1, timer := 0 }] }
    let t := after (.writeBackCompletion 272 p.1.2.2) s
    (outstandingAt s 272).map (·.job) = some (.writeBack 443 17739575) ∧ tblGet s.ways 443 = some dirtyWay ∧ Quiet s ∧
      443 = 8 * (f.line % 256) + 3 ∧ s.channels = [] ∧ s.running = none ∧ s.poisonings = [] ∧
      s.fills.find? (fun y => y.way.any (fun n => 8 * (y.line % 256) + n == 443)) = some f ∧
      (t.ways.map (·.2.line), t.fills.map (·.line), t.ways.map (·.2.dirty), t.mode) = p.2 ∧
      writeBackPending t 443 = p.1.2.1 := by
  unfold Quiet; decide +kernel

/-- R60, R61: the end of the one line that FLUSH_TAGS waits for ends the command, its way having passed all, and
otherwise issues the next dirty way, which it had not reached; one that an ABORT stops issues none and ends ABORTED. -/
theorem witness_flushTags_goesOn : ∀ p ∈
    [((DownStatus.ok, 2048, [(443, dirtyWay)]), none, (some (Result.done, 0, 0), [])),
      ((.error, 2048, [(443, dirtyWay)]), none, (some (.downstreamError, 1, 0), [])),
      ((.ok, 444, [(443, dirtyWay), (444, { dirtyWay with line := 311 })]), none, (none, [311])),
      ((.error, 444, [(443, dirtyWay), (444, { dirtyWay with line := 311 })]), none, (none, [311])),
      ((.ok, 444, [(443, dirtyWay), (444, { dirtyWay with line := 311 })]), some Result.aborted, (some (.aborted, 0, 0), []))],
    let a : Active := { flushing [] [] with
      ending := p.2.1
      work := .flushTags { position := p.1.2.1, waiting := [17739575], found := [17739575], issued := [17739575]
                           good := 0, failed := 0, lowest := none } }
    let s := setChan 1 { Channel.reset with active := some a, reserved := 1 } { writingBack with ways := p.1.2.2 }
    let t := after (.writeBackCompletion 272 p.1.1) s
    (chan s 1).active = some a ∧ (chan s 1).control = [] ∧ (chan s 1).work = [] ∧ (chan s 1).undo = none ∧
      s.warm = none ∧ Quiet s ∧ (outstandingAt s 272).map (·.job) = some (.writeBack 443 17739575) ∧ s.fills = [] ∧
      tblGet s.ways 443 = some dirtyWay ∧ s.flush = .none ∧ (∀ c, c < 4 → c ≠ 1 → (chan s c).active = none) ∧
      (answer 1 (.writeBackCompletion 272 p.1.1) s, t.outstanding.filterMap (fun o => match o.job with
        | .writeBack _ l => some l
        | _ => none)) = p.2.2 ∧
      t.mode = if p.1.1 = .ok then .operational else .contained := by
  unfold Quiet; decide +kernel

/-- R62, R174, R175: in the warm reset's Tag Cache stage the next dirty line is written back; after the last the clean
ways are not valid, a line whose own write failed stays dirty, and the reset ends, or drains its first revocation. -/
theorem witness_tagCache_stage : ∀ p ∈
    [((DownStatus.ok, [], [(443, dirtyWay)], [], []), (none, [], Mode.operational)),
      ((.error, [], [(443, dirtyWay)], [], []), (none, [443], .contained)),
      ((.error, [17739575], [(443, dirtyWay)], [], []), (some (.tagCache ⟨[], []⟩), [443], .contained)),
      ((.ok, [], [(443, dirtyWay), (444, { dirtyWay with line := 311 })], [], []),
        (some (.tagCache ⟨[], []⟩), [443, 444], .operational)),
      ((.ok, [], [(443, dirtyWay)], [(20, grant 7000 5 9 .revoking)], [(0, flight 9 7000 false)]),
        (some (.revocation [(20, 5)] true .drain), [], .operational))],
    let w := { newWarmReset 2 (cmd 0x5D []) with stage := .tagCache ⟨[], p.1.2.1⟩ }
    let s := setChan 2 { Channel.reset with reserved := 1 }
      { writingBack with ways := p.1.2.2.1, warm := some w, grants := p.1.2.2.2.1, inFlight := p.1.2.2.2.2 }
    let t := after (.writeBackCompletion 272 p.1.1) s
    (outstandingAt s 272).map (·.job) = some (.writeBack 443 17739575) ∧ tblGet s.ways 443 = some dirtyWay ∧
      s.flush = .none ∧ s.fills = [] ∧ Quiet s ∧ (∀ c, c < 4 → (chan s c).active = none ∧ (chan s c).undo = none) ∧
      s.poisonings = [] ∧ s.requests = [] ∧
      (t.warm.map (·.stage), t.ways.map (·.1), t.mode) = p.2 ∧
      (chan t 2).ready.map (·.result) = (if t.warm = none then [.done] else []) ∧
      t.drains.length = p.1.2.2.2.1.length := by
  unfold Quiet; decide +kernel

/-- R61: an ABORT of FLUSH_TAGS drops the write-back of line 8 that it has not issued; that of line 4 is awaited. -/
theorem test_abort_flushTags :
    let s := ctl 0 (cmd 0x5C [1, 0]) (setChan 1 { Channel.reset with active := some (flushing [4, 8] [4, 8]), reserved := 1 }
      { live with ways := [(32, { dirtyWay with line := 4 }), (64, { dirtyWay with line := 8 })]
                  tagWaits := [.writeBack 64 8]
                  outstanding := [{ tag := 272, job := .writeBack 32 4, changed := false, timer := 0 }] })
    let t := after (.abort 0) s
    t.tagWaits = [] ∧ (chan t 1).ready = [] ∧
      (((chan (after (.writeBackCompletion 272 .ok) t) 1).ready).map (fun r => (r.result, r.finished))) =
        [(.aborted, 1)] := by decide +kernel

/-- R61: an unissued write-back that the FLUSH_TAGS of channels 1 and 2 both wait for stays at the first's stop and
is withdrawn at the second's. -/
theorem test_abort_flushTags_both :
    let s := setChan 2 { Channel.reset with active := some (flushing [8] []), reserved := 1 }
      (setChan 1 { Channel.reset with active := some (flushing [8] [8]), reserved := 1 }
        { live with ways := [(64, { dirtyWay with line := 8 })], tagWaits := [.writeBack 64 8] })
    let t := after (.abort 0) (ctl 0 (cmd 0x5C [1, 0]) s)
    t.tagWaits = [.writeBack 64 8] ∧ (chan t 1).active = none ∧
      (after (.abort 0) (ctl 0 (cmd 0x5C [2, 0]) t)).tagWaits = [] := by decide +kernel

/-- R10, R61: with no tag free, the FLUSH_TAGS taken in the step that stops another produces the same write-backs
afresh, and they wait in tag line order. -/
theorem test_produced_in_line_order :
    let s := ctl 0 (cmd 0x5C [1, 0])
      (setChan 1 { Channel.reset with active := some (flushing [256, 255] [256, 255]), reserved := 1, work := [cmd 0x19 []] }
        { live with ways := [(0, { dirtyWay with line := 256 }), (2040, { dirtyWay with line := 255 })]
                    tagWaits := [.writeBack 0 256, .writeBack 2040 255]
                    heldTags := (List.range 32).map (fun i => { tag := 272 + i, timer := 0 }) })
    let t := after (.abort 0) s
    t.tagWaits = [.writeBack 2040 255, .writeBack 0 256] ∧ t.produced = [] ∧
      (chan t 1).ready.map (·.result) = [.aborted] ∧ (chan t 1).active.isSome = true := by decide +kernel

/-- R61: a line whose write-back has ended, and which a fill's victim has queued again, is still found dirty. -/
theorem test_abort_flushTags_counts_requeued :
    let x : FlushWork := { position := 2048, waiting := [8], found := [4, 8], issued := [8], good := 1, failed := 0
                           lowest := none }
    let s := setChan 1 { Channel.reset with active := some { flushing [8] [8] with work := .flushTags x }, reserved := 1 }
      { live with ways := [(32, { dirtyWay with line := 4 }), (64, { dirtyWay with line := 8 })]
                  tagWaits := [.writeBack 32 4]
                  fills := [{ serial := 9, line := 260, way := some 0, tag := none, data := none }]
                  outstanding := [{ tag := 272, job := .writeBack 64 8, changed := false, timer := 0 }] }
    answer 1 (.writeBackCompletion 272 .ok) (after (.abort 0) (ctl 0 (cmd 0x5C [1, 0]) s)) =
      some (.aborted, 1, 0) := by decide +kernel

/-- R60: a line that was written back, evicted and found dirty again is one line. -/
theorem test_flushTags_counts_lines :
    let a := flushing [4] [4]
    let x : FlushWork := { position := 2048, waiting := [4], found := [4, 4], issued := [4], good := 1, failed := 0
                           lowest := none }
    let s := setChan 1 { Channel.reset with active := some { a with work := .flushTags x }, reserved := 1 }
      { live with ways := [(33, { dirtyWay with line := 4 })]
                  outstanding := [{ tag := 272, job := .writeBack 33 4, changed := false, timer := 0 }] }
    answer 1 (.writeBackCompletion 272 .error) s = some (.downstreamError, 1, 0) := by decide +kernel

theorem witness_abort_flushTags : ∀ p ∈
    [(([4, 8], [4, 8], [OwnJob.writeBack 64 8]), some Phase.writes), (([8], [8], [.writeBack 64 8]), none),
      (([4], [], []), some .writes)],
    let a := flushing p.1.1 p.1.2.1
    let s := aborting 1 a none
      { live with ways := [(32, { dirtyWay with line := 4 }), (64, { dirtyWay with line := 8 })], tagWaits := p.1.2.2
                  outstanding := [{ tag := 272, job := .writeBack 32 4, changed := false, timer := 0 }] }
    AbortFinds 1 1 (cmd 0x5C [1, 1]) a s ∧ (withoutUnissued ⟨2048, p.1.1, p.1.1, p.1.2.1, 0, 0, none⟩ s).waiting =
        p.1.1.filter (· == 4) ∧
      (after (.abort 1) s).tagWaits = [] ∧ ((chan (after (.abort 1) s) 1).active.map (·.phase)) = p.2 := by
  unfold AbortFinds TakesControl CanTake Quiet; decide +kernel

/-! ### FORMAT (chapter 2) -/

def blank : State := { coldState 1 2 false false with upLink := true }

/-- FORMAT at T: the last legal base, one above it, in a mode that refuses, and with traffic in the tag region. -/
theorem witness_format : ∀ p ∈
    [((267386880, Mode.unformatted, []), (Mode.formatting, none)),
      ((267386881, .unformatted, []), (.unformatted, some Result.parameter)),
      ((267386880, .operational, []), (.operational, some .mode)),
      ((267386880, .unformatted, [(0, flight 0 268435455 true)]), (.formatting, none))],
    let s := wrk 3 (cmd 0x10 [p.1.1]) { blank with mode := p.1.2.1, inFlight := p.1.2.2 }
    StartsWork .format 3 (cmd 0x10 [p.1.1]) s ∧ formatWrites s = 0 ∧ NoDrain (.command 3) s ∧ s.stage = none ∧
      ((after (.format 3) s).mode, result 3 (.format 3) s) = p.2 ∧
      (after (.format 3) s).offers.length = if p.2.2 = none ∧ p.1.2.2 = [] then 16 else 0 := by
  unfold StartsWork TakesWork CanTake Quiet NoDrain; decide +kernel

theorem witness_blank_legal : SpanLegal (wrk 3 (cmd 0x10 [267386880]) blank) :=
  ⟨⟨1, by decide⟩, ⟨2, by decide⟩, by decide⟩

/-- FORMAT active at channel 3, with `next` lines issued and `progress` of them complete. -/
def formatActive (next : Nat) (phase : Phase) (wait : Wait) : Active :=
  { block := cmd 0x10 [267386880], work := .format 267386880 next none, phase := phase, wait := wait, ending := none }

def formatting (next progress : Nat) (phase : Phase) (wait : Wait) : State :=
  setChan 3 { Channel.reset with active := some (formatActive next phase wait), reserved := 1 }
    { blank with mode := .formatting, tagBase := some 267386880, progress := progress }

/-- R37: an ABORT of FORMAT in its drain, and in its writing with and without a write outstanding; line 5 is not
issued. -/
theorem witness_abort_format : ∀ p ∈
    [((Phase.drain, 0, 0), Mode.unformatted, some (0, 67108864, 0)), ((.writes, 4, 4), .unformatted, some (4, 67108860, 20)),
      ((.writes, 4, 3), .formatting, none)],
    let a : Active := { formatActive 0 p.1.1 .writes with
      work := .format 267386880 (if p.1.1 = .drain then 0 else 6) none }
    let s := ctl 0 (cmd 0x5C [3, 0])
      (setChan 3 { Channel.reset with active := some a, reserved := 1 }
        { formatting 6 p.1.2.2 p.1.1 .writes with
          tagWaits := if p.1.1 = .drain then [] else [.formatLine 5]
          outstanding := (List.range (p.1.2.1 - p.1.2.2)).map
            (fun i => { tag := 304 + i, job := .formatLine i, changed := false, timer := 0 }) })
    AbortFinds 0 3 (cmd 0x5C [3, 0]) a s ∧ (after (.abort 0) s).mode = p.2.1 ∧ (after (.abort 0) s).tagWaits = [] ∧
      ((chan (after (.abort 0) s) 3).ready.getLast?.map (fun r => (r.finished, r.remaining, r.next))) = p.2.2 := by
  unfold AbortFinds TakesControl CanTake Quiet; decide +kernel

/-- R172 step 1: an ABORT of a FORMAT that stops for a failed write, and waits for another, gives it ABORTED. -/
theorem test_abort_format_failed :
    let a := { formatActive 2 .writes .writes with ending := some .downstreamError }
    let s := ctl 0 (cmd 0x5C [3, 0]) (setChan 3 { Channel.reset with active := some a, reserved := 1 }
      { formatting 2 0 .writes .writes with
        outstanding := [{ tag := 304, job := .formatLine 1, changed := false, timer := 0 }] })
    AbortFinds 0 3 (cmd 0x5C [3, 0]) a s ∧
      result 3 (.formatWriteCompletion 304 .ok) (after (.abort 0) s) = some .aborted := by
  unfold AbortFinds TakesControl CanTake Quiet; decide +kernel

theorem witness_formatDrainDone : let s := formatting 0 0 .drain .drain
    Runs 3 (formatActive 0 .drain .drain) s ∧ NoDrain (.command 3) s ∧ formatWrites s = 0 ∧ s.progress = 0 ∧
      ((chan (after (.formatDrainDone 3) s) 3).active.map (·.phase)) = some .writes ∧
      (after (.formatDrainDone 3) s).outstanding.map (·.job) = (List.range 16).map OwnJob.formatLine := by
  unfold Runs Quiet NoDrain; decide +kernel

/-- 2.6: FORMAT writes 67,108,864 tag lines; its last write opens the part, one before the last does not, and a
failed one returns it to UNFORMATTED. -/
theorem witness_formatWrite : ∀ p ∈
    [((67108863, DownStatus.ok), (Mode.operational, some (Result.done, 267386880, 1048576))),
      ((67108862, .ok), (.formatting, none)),
      ((67108862, .error), (.unformatted, some (.downstreamError, 267386880, 1048576)))],
    let s := { formatting 67108864 p.1.1 .writes .writes with
      outstanding := [{ tag := 304, job := .formatLine 67108863, changed := false, timer := 0 }] }
    (outstandingAt s 304).map (·.job) = some (.formatLine 67108863) ∧
      Runs 3 (formatActive 67108864 .writes .writes) s ∧ tagLineCount s = 67108864 ∧
      (∀ x ∈ s.outstanding, x.tag ≠ 304 → jobClass x.job ≠ .formatWrite) ∧
      (∀ x, x < 3 → (chan s x).active = none) ∧
      ((after (.formatWriteCompletion 304 p.1.2) s).mode, answer 3 (.formatWriteCompletion 304 p.1.2) s) = p.2 := by
  unfold Runs Quiet; decide +kernel

/-- R34: with 16 lines outstanding, the completion of one issues the next line, of 2.6's address, under its tag. -/
theorem witness_formatNext :
    let s := { formatting 16 0 .writes .writes with
      outstanding := (List.range 16).map (fun i => { tag := 304 + i, job := .formatLine i, changed := false, timer := 0 }) }
    (outstandingAt s 304).map (·.job) = some (.formatLine 0) ∧ Runs 3 (formatActive 16 .writes .writes) s ∧
      s.tagBase = some 267386880 ∧ s.progress + 1 < tagLineCount s ∧ 16 < tagLineCount s ∧
      formatWrites { s with outstanding := s.outstanding.filter (fun x => x.tag != 304) } = 15 ∧
      (chan (after (.formatWriteCompletion 304 .ok) s) 3).active = some (formatActive 17 .writes .writes) ∧
      (after (.formatWriteCompletion 304 .ok) s).offers.map (fun r => (r.tag, r.address)) =
        [(304, 0x10F00000000 + 64 * 16)] := by
  unfold Runs Quiet; decide +kernel

/-! ### Granule operations and the Scrub Units (chapter 6) -/

/-- Domain 21 of 6.8 and 9.10: RUNNING with this quota and 10 granules. -/
def owning (quota : Nat) (s : State) : State :=
  setDom 21 { Domain.reset with state := .running, quota := quota, owned := 10 } s

/-- The tests of ASSIGN at their boundaries, by the command's words. -/
theorem witness_assign_tests : ∀ p ∈
    [([0, 5000, 1, 1], Result.parameter), ([512, 5000, 1, 1], .parameter), ([21, 5000, 1, 0], .parameter),
      ([21, 5000, 1, 3], .parameter), ([21, 5000, 0, 1], .parameter), ([21, 5000, 65537, 1], .parameter),
      ([21, 268435455, 2, 1], .parameter), ([511, 5000, 1, 1], .domainState), ([21, 5000, 65536, 2], .keepNotAllowed)],
    StartsWork .assign 1 (cmd 0x11 p.1) (wrk 1 (cmd 0x11 p.1) (owning 40 live)) ∧
      result 1 (.assign 1) (wrk 1 (cmd 0x11 p.1) (owning 40 live)) = some p.2 := by
  unfold StartsWork TakesWork CanTake Quiet; decide +kernel

/-- The tests of a granule, by its record: the quota, a region, a busy and a not OPEN granule; then the OPEN one,
with and without traffic, and a line that is not cached. -/
theorem witness_assign_granule : ∀ p ∈
    [((10, 5000, openRecord, []), (some Result.quotaReached, none)),
      ((11, 4111, openRecord, []), (some .regionConflict, none)),
      ((11, 5000, { priv 5 with state := .gClearingOut }, []), (some .granuleBusy, none)),
      ((11, 5000, priv 5, []), (some .granuleState, none)),
      ((11, 5000, { openRecord with state := .gPoisoned }, []), (some .granuleState, none)),
      ((11, 5000, openRecord, []), (none, some Wait.zero)),
      ((11, 5000, openRecord, [(0, flight 0 5000 true)]), (none, some .drain))],
    let s := wrk 1 (cmd 0x11 [21, p.1.2.1, 6, 1]) (owning p.1.1 (cached p.1.2.1 p.1.2.2.1
      { live with regions := regions.regions, inFlight := p.1.2.2.2 }))
    StartsWork .assign 1 (cmd 0x11 [21, p.1.2.1, 6, 1]) s ∧ recordAt s p.1.2.1 = some p.1.2.2.1 ∧
      NoDrain (.command 1) s ∧ result 1 (.assign 1) s = p.2.1 ∧
      (p.2.1 = none → (chan (after (.assign 1) s) 1).claim = some 5000 ∧
        recordAt (after (.assign 1) s) 5000 = some { priv 21 with state := .gClearingIn } ∧
        (dom (after (.assign 1) s) 21).owned = 11) := by
  unfold StartsWork TakesWork CanTake Quiet NoDrain; decide +kernel

theorem witness_assign_keep :
    let s := wrk 1 (cmd 0x11 [21, 5000, 1, 2]) (inState 21 .preparing (owning 11 (cached 5000 openRecord live)))
    StartsWork .assign 1 (cmd 0x11 [21, 5000, 1, 2]) s ∧ recordAt s 5000 = some openRecord ∧
      NoDrain (.command 1) s ∧ NoTraffic 5000 s ∧ answer 1 (.assign 1) s = some (.done, 11, 11) ∧
      recordAt (after (.assign 1) s) 5000 = some (priv 21) :=
  ⟨by unfold StartsWork TakesWork CanTake Quiet; decide +kernel, by decide +kernel, by unfold NoDrain; decide +kernel,
    ⟨by decide +kernel, fun _ h => nomatch h⟩, by decide +kernel, by decide +kernel⟩

/-- A command whose first granule's tag line is not cached waits for its fill. -/
theorem witness_starts_with_fill : ∀ p ∈
    [(Cmd.assign, 0x11, [21, 5000, 6, 1]), (.release, 0x12, [21, 5000, 6]), (.restore, 0x13, [5000]),
      (.queryGranules, 0x14, [5000, 5]), (.regionSet, 0x1A, [0, 5000, 6, 1])],
    let s := wrk 1 (cmd p.2.1 p.2.2) (owning 40 live)
    StartsWork p.1 1 (cmd p.2.1 p.2.2) s ∧ recordAt s 5000 = none ∧
      (chan (after (rowOf p.1 1) s) 1).active.map (·.wait) = some (.fill 1250) ∧
      (after (rowOf p.1 1) s).fills.map (·.line) = [1250] := by
  unfold StartsWork TakesWork CanTake Quiet; decide +kernel

theorem witness_release_tests : ∀ p ∈
    [([0, 5000, 1], Result.parameter), ([512, 5000, 1], .parameter), ([21, 5000, 0], .parameter),
      ([511, 5000, 1], .domainState)],
    StartsWork .release 1 (cmd 0x12 p.1) (wrk 1 (cmd 0x12 p.1) (owning 40 live)) ∧
      result 1 (.release 1) (wrk 1 (cmd 0x12 p.1) (owning 40 live)) = some p.2 := by
  unfold StartsWork TakesWork CanTake Quiet; decide +kernel

theorem witness_release_granule : ∀ p ∈
    [({ priv 21 with state := .gClearingIn }, some Result.granuleBusy), (priv 5, some .granuleState),
      (openRecord, some .granuleState), ({ priv 21 with pinned := true }, some .granulePinned),
      ({ priv 21 with count := 1 }, some .granuleShared), ({ priv 21 with dirty := true }, none)],
    let s := wrk 1 (cmd 0x12 [21, 5000, 1]) (owning 40 (cached 5000 p.1 live))
    StartsWork .release 1 (cmd 0x12 [21, 5000, 1]) s ∧ recordAt s 5000 = some p.1 ∧ NoDrain (.command 1) s ∧
      result 1 (.release 1) s = p.2 ∧
      (p.2 = none → recordAt (after (.release 1) s) 5000 = some { priv 21 with state := .gClearingOut, dirty := true } ∧
        (dom (after (.release 1) s) 21).owned = 10) := by
  unfold StartsWork TakesWork CanTake Quiet NoDrain; decide +kernel

theorem witness_restore : ∀ p ∈
    [((268435456, openRecord), some Result.parameter), ((268435455, reservedRecord), some .granuleState),
      ((5000, openRecord), some .granuleState), ((5000, { priv 5 with state := .gClearingIn }), some .granuleBusy),
      ((5000, { priv 5 with state := .gPoisoned }), none)],
    let s := wrk 1 (cmd 0x13 [p.1.1]) (cached p.1.1 p.1.2 live)
    StartsWork .restore 1 (cmd 0x13 [p.1.1]) s ∧ recordAt s p.1.1 = some p.1.2 ∧ NoDrain (.command 1) s ∧
      result 1 (.restore 1) s = p.2 ∧ (p.2 = none → (chan (after (.restore 1) s) 1).claim = some 5000) := by
  unfold StartsWork TakesWork CanTake Quiet NoDrain; decide +kernel

/-- R113: RELEASE and RESTORE of a granule with a forwarded transaction wait for a drain that counts it. -/
theorem witness_release_drains :
    let e := [(7, flight 9 5000 true)]
    let s := wrk 1 (cmd 0x12 [21, 5000, 1]) (owning 40 (cached 5000 (priv 21) { live with inFlight := e }))
    let u := wrk 1 (cmd 0x13 [5000]) (cached 5000 (poisonedRecord (some 5)) { live with inFlight := e })
    StartsWork .release 1 (cmd 0x12 [21, 5000, 1]) s ∧ NoDrain (.command 1) s ∧ recordAt s 5000 = some (priv 21) ∧
      ¬NoTraffic 5000 s ∧ (chan (after (.release 1) s) 1).active.map (·.wait) = some .drain ∧
      (after (.release 1) s).drains.map (fun d => (d.user, d.members)) = [(.command 1, [7])] ∧
      StartsWork .restore 1 (cmd 0x13 [5000]) u ∧ NoDrain (.command 1) u ∧ ¬NoTraffic 5000 u ∧
      (chan (after (.restore 1) u) 1).active.map (·.wait) = some .drain ∧
      (after (.restore 1) u).drains.map (fun d => (d.user, d.members)) = [(.command 1, [7])] := by
  unfold StartsWork TakesWork CanTake Quiet NoDrain NoTraffic; decide +kernel

/-- R112: an ASSIGN whose drain has finished asks for a Scrub Unit, and keeps its claim. -/
theorem witness_granuleDrainDone :
    let s := { midAssign .drain .drain with
      units := [(0, ⟨0, 1, 0, 0, false, false⟩), (1, ⟨2, 2, 0, 0, false, false⟩)] }
    Runs 1 (assigning .drain .drain) s ∧ NoDrain (.command 1) s ∧ (chan s 1).claim = some (5000 + 3) ∧
      recordAt s 5003 = some { priv 21 with state := .gClearingIn } ∧
      (chan (after (.granuleDrainDone 1) s) 1).active = some (assigning .unit .unit) := by
  unfold Runs Quiet NoDrain; decide +kernel

/-- R126: the free unit goes to the asking channel next after the one last served, also after RETIRE has taken
its claim over (R108). -/
theorem witness_scrubUnitGrant :
    let s := setChan 3 { Channel.reset with active := some (assigning .unit .unit), claim := none }
      { midAssign .unit .unit with units := [(0, ⟨0, 1, 0, 0, false, false⟩)], lastServed := 1 }
    tblFree 2 s.units = some 1 ∧ 3 = (s.lastServed + 2) % 4 ∧ ((chan s 3).active.map (·.wait)) = some .unit ∧
      (chan s 2).active = none ∧
      (unitOf (after .scrubUnitGrant s) 1).map (fun z => (z.channel, z.granule)) = some (3, 5003) ∧
      (after .scrubUnitGrant s).outstanding.length = 64 ∧ (after .scrubUnitGrant s).lastServed = 3 := by decide +kernel

/-- One granule of ASSIGN(21, 5003, 1) is zeroing in unit 0, with these lines outstanding. -/
def zeroing (lines : List Nat) : State :=
  let a : Active := { assigning .zero .zero with work := .assign 21 5003 1 false 0 }
  setChan 1 { Channel.reset with active := some a, reserved := 1, claim := some 5003 }
    { midAssign .zero .zero with
      units := [(0, { channel := 1, granule := 5003, issued := 64, completed := 64 - lines.length, failed := false
                      halted := false })]
      outstanding := lines.map (fun i => { tag := 336 + i, job := .zeroLine 0 i, changed := false, timer := 0 }) }

theorem witness_zeroWrite :
    Quiet (zeroing [0, 1]) ∧ (outstandingAt (zeroing [0, 1]) 336).map (·.job) = some (.zeroLine 0 0) ∧
      (unitOf (zeroing [0, 1]) 0).map (fun z => (z.channel, z.failed, z.halted)) = some (1, false, false) ∧
      (∃ x ∈ (zeroing [0, 1]).outstanding, x.tag ≠ 336 ∧ x.job = .zeroLine 0 1) ∧
      (∀ x ∈ (zeroing [0]).outstanding, x.tag = 336) ∧
      Runs 1 { assigning .zero .zero with work := .assign 21 5003 1 false 0 } (zeroing [0]) ∧
      recordAt (zeroing [0]) 5003 = some { priv 21 with state := .gClearingIn } ∧
      result 1 (.zeroWriteCompletion 336 .ok) (zeroing [0, 1]) = none ∧
      answer 1 (.zeroWriteCompletion 336 .ok) (zeroing [0]) = some (.done, 14, 100) ∧
      recordAt (after (.zeroWriteCompletion 336 .ok) (zeroing [0])) 5003 = some (priv 21) ∧
      recordAt (after (.zeroWriteCompletion 336 .error) (zeroing [0, 1])) 5003 =
        some { priv 21 with state := .gPoisoned } := by
  unfold Runs Quiet; decide +kernel

/-- R129: an ABORT of an ASSIGN that zeroes halts its unit; the end of its last write makes the undo. -/
theorem witness_abort_zeroing :
    let s := ctl 0 (cmd 0x5C [1, 0]) (zeroing [0, 1])
    let a : Active := { assigning .zero .zero with work := .assign 21 5003 1 false 0 }
    let t := after (.abort 0) s
    let u := after (.zeroWriteCompletion 336 .ok) t
    AbortFinds 0 1 (cmd 0x5C [1, 0]) a s ∧ (unitOf s 0).isSome ∧ s.units.filter (fun p => p.2.channel == 1) = ((unitOf s 0).map (fun z => (0, z))).toList ∧
      (unitOf t 0).map (·.halted) = some true ∧ outstandingAt u 337 =
        some { tag := 337, job := .zeroLine 0 1, changed := false, timer := 0 } ∧
      (unitOf u 0).map (fun z => (z.channel, z.halted)) = some (1, true) ∧ Quiet u ∧ u.outstanding.length = 1 ∧
      waitingJobs u = [] ∧ (chan u 1).active = some { a with ending := some .aborted } ∧ (chan u 1).control = [] ∧
      (chan u 1).work = [] ∧ (chan u 1).undo = none ∧ u.warm = none ∧ undoesGranules a.work = true ∧
      granuleAt a.work = 5003 ∧ (chan u 1).claim = some 5003 ∧
      recordAt u 5003 = some { priv 21 with state := .gClearingIn } ∧
      result 1 (.zeroWriteCompletion 337 .ok) u = some .aborted ∧
      recordAt (after (.zeroWriteCompletion 337 .ok) u) 5003 = some openRecord := by
  unfold AbortFinds TakesControl CanTake Quiet; decide +kernel

/-- R129, R172: an ABORT that comes after a zero write has failed gives the command ABORTED, once its unit's last write
has ended; its granule stays POISONED. -/
theorem witness_abort_scrubFailed :
    let s := ctl 0 (cmd 0x5C [1, 0]) (after (.zeroWriteCompletion 336 .error) (zeroing [0, 1]))
    let t := after (.abort 0) s
    TakesControl .abort 0 (cmd 0x5C [1, 0]) s ∧ Quiet s ∧ (chan s 1).stop = false ∧
      ((chan s 1).active.map (fun a => (a.phase, a.ending, a.work))) =
        some (.scrubFailed, some .poisoned, .assign 21 5003 1 false 0) ∧
      ((chan t 1).active.map (fun a => (a.phase, a.ending))) = some (.scrubFailed, some .aborted) ∧
      (chan t 1).stop = true ∧ Quiet t ∧ (outstandingAt t 337).map (·.job) = some (.zeroLine 0 1) ∧
      t.outstanding.length = 1 ∧ (unitOf t 0).map (fun z => (z.channel, z.failed)) = some (1, true) ∧
      t.poisonings = [] ∧ t.units.length = 1 ∧ waitingJobs t = [] ∧ (chan t 1).control = [] ∧ (chan t 1).work = [] ∧
      (∀ st ∈ [DownStatus.ok, .error], result 1 (.zeroWriteCompletion 337 st) t = some .aborted ∧
        (recordAt (after (.zeroWriteCompletion 337 st) t) 5003).map (·.state) = some .gPoisoned) ∧
      result 1 (.zeroWriteCompletion 337 .ok) (after (.zeroWriteCompletion 336 .error) (zeroing [0, 1])) =
        some .poisoned := by
  unfold TakesControl CanTake Quiet; decide +kernel

/-- The last zero write of an operation on granule 5003, whose record and table entries are given. -/
def lastZero (work : Work) (claim : Option Nat) (rec : TagRecord) : State :=
  setChan 1 { Channel.reset with active := some { assigning .zero .zero with work := work }, reserved := 1, claim := claim }
    (cached 5003 rec { zeroing [0] with
      poisonList := [{ granule := 5003, owner := some 21, cause := .orphanWrite }, { granule := 9, owner := none, cause := .record }] })

def retireOf21 (poisoned : Bool) : RetireWork :=
  { domain := 21, hintFirst := 5000, hintCount := 8, collected := [], removed := 2, slotReleased := some 3
    ownedAtWalk := 9, released := 8, walk := { position := 5003, inHint := true, found := true, after := 5004 }
    poisonedAtVisit := poisoned }

/-- R121: RELEASE's granule is OPEN and the owned count falls to 13.  R123: RESTORE's granule is OPEN, its entry
leaves the poison list and its owner's count falls, unless the root or nobody owns it. -/
theorem witness_finish : ∀ p ∈
    [((Work.release 21 5003 1 0, some 5003, { priv 21 with state := .gClearingOut }), ((Result.done, 13, 100), 13, 2)),
      ((.restore 5003, none, poisonedRecord (some 21)), ((.done, 21, 2), 13, 1)),
      ((.restore 5003, none, poisonedRecord none), ((.done, 2 ^ 64 - 1, 2), 14, 1)),
      ((.restore 5003, none, poisonedRecord (some 0)), ((.done, 0, 2), 14, 1))],
    let s := lastZero p.1.1 p.1.2.1 p.1.2.2
    Runs 1 { assigning .zero .zero with work := p.1.1 } s ∧ recordAt s 5003 = some p.1.2.2 ∧
      (∀ x ∈ s.outstanding, x.tag = 336) ∧ s.tagWaits = [] ∧ (unitOf s 0).map (·.halted) = some false ∧
      answer 1 (.zeroWriteCompletion 336 .ok) s = some p.2.1 ∧
      recordAt (after (.zeroWriteCompletion 336 .ok) s) 5003 = some openRecord ∧
      (dom (after (.zeroWriteCompletion 336 .ok) s) 21).owned = p.2.2.1 ∧
      (after (.zeroWriteCompletion 336 .ok) s).poisonList.length = p.2.2.2 := by
  unfold Runs Quiet; decide +kernel

/-- R107: a retired granule is OPEN and counted down; after the last the domain is FREE, otherwise the next granule's
line is fetched. -/
theorem witness_retired : ∀ p ∈
    [((1, false, { priv 21 with state := GState.gClearingOut }), (some (Result.done, 2, 3), DState.free, 0, 2)),
      ((1, true, poisonedRecord (some 21)), (some (.done, 2, 3), .free, 0, 1)),
      ((14, false, { priv 21 with state := .gClearingOut }), (none, .retiring, 13, 2))],
    let s := setDom 21 { Domain.reset with state := .retiring, retireActive := true, owned := p.1.1 }
      (lastZero (.retire (retireOf21 p.1.2.1)) (some 5003) p.1.2.2)
    Runs 1 { assigning .zero .zero with work := .retire (retireOf21 p.1.2.1) } s ∧ recordAt s 5003 = some p.1.2.2 ∧
      recordAt s 5004 = none ∧ 5004 < granuleCount s ∧ (∀ q ∈ s.requests, q.requester ≠ 21) ∧
      answer 1 (.zeroWriteCompletion 336 .ok) s = p.2.1 ∧
      recordAt (after (.zeroWriteCompletion 336 .ok) s) 5003 = some openRecord ∧
      ((dom (after (.zeroWriteCompletion 336 .ok) s) 21).state, (dom (after (.zeroWriteCompletion 336 .ok) s) 21).owned,
        (after (.zeroWriteCompletion 336 .ok) s).poisonList.length) = p.2.2 ∧
      ((chan (after (.zeroWriteCompletion 336 .ok) s) 1).active.map (·.wait)) =
        if p.1.1 = 1 then none else some (.fill 1251) := by
  unfold Runs Quiet; decide +kernel

theorem witness_queryGranules : ∀ p ∈
    [([268435451, 5], Result.done), ([268435451, 1], .done), ([268435451, 0], .parameter), ([268435451, 6], .parameter),
      ([268435452, 5], .parameter)],
    let s := wrk 1 (cmd 0x14 p.1) (cached 268435451 (priv 5) (cached 268435452 reservedRecord live))
    StartsWork .queryGranules 1 (cmd 0x14 p.1) s ∧
      (∀ i, i < 5 → recordAt s (268435451 + i) =
        some (if i = 0 then priv 5 else if i = 1 then reservedRecord else openRecord)) ∧
      answer 1 (.queryGranules 1) s =
        some (p.2, if p.2 = .done then (1 + 5 * 2 ^ 16, if wordB (cmd 0x14 p.1) = 5 then 5 else 2 ^ 64 - 1)
          else (2 ^ 64 - 1, 2 ^ 64 - 1)) := by
  unfold StartsWork TakesWork CanTake Quiet; decide +kernel

/-- R196's tests at their boundaries, in its order, then the entry SET over one OPEN granule, and the entry EMPTY
again over one that is not. -/
theorem witness_regionSet : ∀ p ∈
    [([4, 5000, 1, 2], (some Result.done, RegionState.set)), ([8, 5000, 1, 2], (some .parameter, .empty)),
      ([4, 5000, 1, 0], (some .parameter, .empty)), ([4, 5000, 1, 3], (some .parameter, .empty)),
      ([4, 5000, 0, 1], (some .parameter, .empty)), ([6, 5000, 1, 1], (some .locked, .empty)),
      ([7, 5000, 1, 1], (some .regionConflict, .empty)), ([4, 267386879, 2, 1], (some .parameter, .empty)),
      ([4, 4111, 1, 1], (some .regionConflict, .empty)), ([4, 4095, 2, 1], (some .regionConflict, .empty)),
      ([4, 5004, 1, 1], (some .granuleState, .empty))],
    let s := wrk 1 (cmd 0x1A p.1) (cached 5000 openRecord (cached 5004 (priv 5) regions))
    StartsWork .regionSet 1 (cmd 0x1A p.1) s ∧ recordAt s 5000 = some openRecord ∧ recordAt s 5004 = some (priv 5) ∧
      ¬Claimed s 5000 ∧ result 1 (.regionSet 1) s = p.2.1 ∧ (regionOf (after (.regionSet 1) s) 4).state = p.2.2 := by
  unfold StartsWork TakesWork CanTake Quiet; decide +kernel

/-! ### RETIRE (5.5) -/

theorem witness_retire_tests : ∀ p ∈
    [([512, 0, 1], Result.parameter), ([21, 0, 0], .parameter), ([0, 0, 1], .domainState), ([511, 0, 1], .domainState),
      ([22, 0, 1], .domainBusy)],
    let s := wrk 1 (cmd 0x15 p.1) (setDom 22 { Domain.reset with state := .retiring, retireActive := true } (owning 40 live))
    StartsWork .retire 1 (cmd 0x15 p.1) s ∧ result 1 (.retire 1) s = some p.2 := by
  unfold StartsWork TakesWork CanTake Quiet; decide +kernel

/-- RETIRE with traffic of the domain drains it with the domain's grants REVOKING, and otherwise frees an empty
domain at once. -/
theorem witness_retire : ∀ p ∈ [([(0, flight 33 1 false)], [(20, grant 7001 33 9 .active)], DState.retiring, none),
    ([], [], .free, some Result.done)],
    let s := wrk 1 (cmd 0x15 [33, 0, 1]) { inState 33 .fenced live with inFlight := p.1, grants := p.2.1 }
    StartsWork .retire 1 (cmd 0x15 [33, 0, 1]) s ∧ NoDrain (.clearance 1) s ∧ (dom s 33).owned = 0 ∧
      (dom s 33).slot = none ∧ s.stage = none ∧ (∀ q ∈ s.requests, q.requester ≠ 33) ∧
      (dom (after (.retire 1) s) 33).state = p.2.2.1 ∧ result 1 (.retire 1) s = p.2.2.2 ∧
      (after (.retire 1) s).grants.map (fun g => g.2.state) = p.2.1.map (fun _ => .revoking) := by
  unfold StartsWork TakesWork CanTake Quiet NoDrain; decide +kernel

def retireWork (collected : List (Nat × Nat)) : RetireWork :=
  { domain := 5, hintFirst := 7000, hintCount := 8, collected := collected, removed := 0, slotReleased := none
    ownedAtWalk := 1, released := 0, walk := { position := 7000, inHint := true, found := false, after := 7000 }
    poisonedAtVisit := false }

/-- RETIRE of domain 5 active at channel 1. -/
def retireActive (collected : List (Nat × Nat)) (phase : Phase) (wait : Wait) : Active :=
  { block := cmd 0x15 [5, 7000, 8], work := .retire (retireWork collected), phase := phase, wait := wait, ending := none }

def retiring (owned : Nat) (collected : List (Nat × Nat)) (phase : Phase) (wait : Wait) (rec : TagRecord) : State :=
  setChan 1 { Channel.reset with active := some (retireActive collected phase wait), reserved := 1 }
    (setDom 5 { Domain.reset with state := .retiring, retireActive := true, owned := owned, given := collected.length }
      (setDom 9 { Domain.reset with state := .running, held := 1 } (cached 7000 rec
        { live with grants := collected.map (fun p => (p.1, grant 7000 5 9 .revoking)) })))

theorem witness_retireClearance :
    let s := retiring 0 [(20, 5)] .clearance .drain { priv 5 with count := 1 }
    Runs 1 (retireActive [(20, 5)] .clearance .drain) s ∧ NoDrain (.clearance 1) s ∧
      tblGet s.grants 20 = some (grant 7000 5 9 .revoking) ∧ recordAt s 7000 = some { priv 5 with count := 1 } ∧
      (dom s 5).owned = 0 ∧ (dom s 5).slot = none ∧ (∀ q ∈ s.requests, q.requester ≠ 5) ∧
      answer 1 (.retireClearanceDrainsDone 1) s = some (.done, 1, 2 ^ 64 - 1) ∧
      dom (after (.retireClearanceDrainsDone 1) s) 5 = Domain.reset ∧
      (dom (after (.retireClearanceDrainsDone 1) s) 9).held = 0 ∧
      recordAt (after (.retireClearanceDrainsDone 1) s) 7000 = some (priv 5) := by
  unfold Runs Quiet NoDrain; decide +kernel

theorem witness_retireClaimReleased :
    let s := { retiring 1 [] .visiting (.claim 7000) { priv 5 with pinned := true } with
      units := [(0, ⟨0, 1, 0, 0, false, false⟩), (1, ⟨2, 2, 0, 0, false, false⟩)] }
    Runs 1 (retireActive [] .visiting (.claim 7000)) s ∧ ¬Claimed s 7000 ∧
      recordAt s 7000 = some { priv 5 with pinned := true } ∧ (∀ p ∈ s.inFlight, p.2.granule ≠ 7000) ∧ s.stage = none ∧
      NoDrain (.command 1) s ∧ (chan (after (.retireClaimReleased 1) s) 1).claim = some 7000 ∧
      recordAt (after (.retireClaimReleased 1) s) 7000 = some { priv 5 with state := .gClearingOut } := by
  unfold Runs Quiet NoDrain; decide +kernel

/-- R108, R106: when the claim has gone, the record is looked up afresh; one that a RELEASE has made OPEN is passed
over, and RETIRE then completes, its owned count being 0, with the granule behind it as next. -/
theorem witness_retireClaimReleased_open :
    let s := retiring 0 [] .visiting (.claim 7000) openRecord
    Runs 1 (retireActive [] .visiting (.claim 7000)) s ∧ ¬Claimed s 7000 ∧ recordAt s 7000 = some openRecord ∧
      (dom s 5).owned = 0 ∧ (∀ q ∈ s.requests, q.requester ≠ 5) ∧
      (chan (after (.retireClaimReleased 1) s) 1).ready.map (fun r => (r.result, r.next)) = [(.done, 7001)] := by
  unfold Runs Quiet; decide +kernel

/-- R106, R51: a visit under way goes on when its fill lands, whatever the owned count has become: RETIRE makes its
lookup, passes the granule over and then completes, with the granule behind it as next. -/
theorem test_retire_visit_goes_on :
    let s := setChan 1 { Channel.reset with active := some (retireActive [] .visiting (.fill 1750)), reserved := 1 }
      (setDom 5 { Domain.reset with state := .retiring, retireActive := true }
        { live with
          fills := [{ serial := 0, line := 1750, way := some 3, tag := some 256, data := none }]
          outstanding := [{ tag := 256, job := .fill 0 1750, changed := false, timer := 1 }] })
    ((chan (after (.fillReadCompletion 256 (reply (.good (some 9)) (.good goodPart))) s) 1).ready).map
      (fun r => (r.result, r.next)) = [(.done, 7001)] := by decide +kernel

/-- R108, R132: RETIRE stops with GRANULE_BUSY at a granule that an earlier RETIRE's pending undo still claims; that
of a RELEASE it waits for. -/
theorem test_retire_busy : ∀ p ∈ [(Work.retire (retireWork []), some Result.granuleBusy), (.release 5 7000 1 0, none)],
    let undo : PendingUndo := { granule := 7000, work := p.1, poison := false, wait := .fill 4 }
    let s := setChan 2 { Channel.reset with claim := some 7000, undo := some undo }
      (retiring 1 [] .visiting .running { priv 5 with state := .gClearingOut })
    result 1 (.retireClaimReleased 1) (goWait 1 (.claim 4) s) = p.2 := by decide +kernel

/-- R110, R132: a RETIRE whose undo stays pending across a warm reset has stopped, its mark clear. -/
theorem test_keepUndo_clears_mark :
    let s := { retiring 1 [] .undo (.fill 1750) { priv 5 with state := .gClearingOut } with warm := some (newWarmReset 2 0) }
    (dom (keepUndo s 1) 5).retireActive = false ∧ (chan (keepUndo s 1) 1).active = none := by decide +kernel

/-- R174: when the settling ends, an earlier warm reset's pending undo that waits on a line no longer fetched waits
for traffic to resume. -/
theorem test_keepUndo_suspends : ∀ p ∈ [([1250], Wait.fill 1250), ([], .suspended)],
    let u : PendingUndo := { granule := 5003, work := .release 21 5003 1 0, poison := false, wait := .fill 1250 }
    let s := setChan 1 { Channel.reset with undo := some u } { live with fillWaits := p.1, warm := some (newWarmReset 2 0) }
    (chan (keepUndo s 1) 1).undo = some { u with wait := p.2 } := by decide +kernel

/-- R173: RESET_ENGINES stops the RETIRE of channel 1 in its clearance, whose drains go, and its own channel's QUERY at
a visit; both are counted and neither is answered. -/
theorem witness_resetEngines_stops :
    let a : Active := retireActive [(20, 5)] .clearance .drain
    let q : Active := { block := cmd 0x14 [5000, 5], work := .queryGranules 5000 5 [7], phase := .visit
                        wait := .fill 1250, ending := none }
    let s := setChan 2 { Channel.reset with control := [cmd 0x5D []], active := some q, reserved := 1 }
      { retiring 0 [(20, 5)] .clearance .drain (priv 5) with
        drains := [{ user := .clearance 1, members := [0], held := false }, { user := .command 3, members := [0], held := false }]
        inFlight := [(0, flight 5 1 false)] }
    let t := after (.resetEngines 2) s
    TakesControl .resetEngines 2 (cmd 0x5D []) s ∧ Quiet s ∧ (chan s 1).active = some a ∧ (chan s 1).stop = false ∧
      stopsAtOnce a = true ∧ stopsAtOnce q = true ∧ (chan s 2).stop = false ∧ (chan s 0).active = none ∧
      (chan s 3).active = none ∧
      t.warm = some { newWarmReset 2 (cmd 0x5D []) with stopped := 2 } ∧ t.drains.map (·.user) = [.command 3] ∧
      (∀ x, x < 4 → (chan t x).ready = [] ∧ (chan t x).active = none ∧ (chan t x).reserved = if x = 2 then 1 else 0) ∧
      (dom t 5).retireActive = false := by
  unfold TakesControl CanTake Quiet; decide +kernel

/-- R173, R129: a command that zeroes stops when its unit's last write has ended: its granule is undone, it is counted,
and it is not answered. -/
theorem witness_resetEngines_zeroing :
    let a : Active := { assigning .zero .zero with work := .assign 21 5003 1 false 0 }
    let s := ctl 2 (cmd 0x5D []) (zeroing [0, 1])
    let t := after (.resetEngines 2) s
    let u := after (.zeroWriteCompletion 336 .ok) t
    let v := after (.zeroWriteCompletion 337 .ok) u
    TakesControl .resetEngines 2 (cmd 0x5D []) s ∧ Quiet s ∧ (chan s 1).active = some a ∧ (chan s 1).stop = false ∧
      (∀ y, y < 4 → y ≠ 1 → (chan s y).active = none) ∧
      (unitOf s 0).isSome ∧ s.units.filter (fun p => p.2.channel == 1) = ((unitOf s 0).map (fun z => (0, z))).toList ∧ t.warm = some (newWarmReset 2 (cmd 0x5D [])) ∧
      chan t 1 = { chan s 1 with active := some { a with ending := some .aborted }, stop := true } ∧
      (unitOf t 0).map (·.halted) = some true ∧ Quiet u ∧ u.warm = t.warm ∧ waitingJobs u = [] ∧
      (chan u 1).claim = some 5003 ∧ recordAt u 5003 = some { priv 21 with state := .gClearingIn } ∧
      unitOf v 0 = none ∧ v.warm = some { newWarmReset 2 (cmd 0x5D []) with stopped := 1 } ∧
      chan v 1 = Channel.reset ∧ recordAt v 5003 = some openRecord ∧ (dom v 21).owned = 13 := by
  unfold TakesControl CanTake Quiet; decide +kernel

/-! ### Revocation (chapter 7) -/

/-- REVOKE_GRANT: above the table, of an empty index, at once, and with a grantee's transaction in flight. -/
theorem witness_revokeGrant : ∀ p ∈
    [((1024, []), (some Result.parameter, some GrantState.active)), ((1023, []), (some .noEntry, some .active)),
      ((20, []), (some .done, none)), ((20, [(0, flight 9 7000 false)]), (none, some .revoking))],
    let s := wrk 1 (cmd 0x16 [p.1.1]) (cached 7000 { priv 5 with count := 1 }
      { live with grants := [(20, grant 7000 5 9 .active)], inFlight := p.1.2 })
    StartsWork .revokeGrant 1 (cmd 0x16 [p.1.1]) s ∧ NoDrain (.command 1) s ∧ s.stage = none ∧
      recordAt s 7000 = some { priv 5 with count := 1 } ∧
      (result 1 (.revokeGrant 1) s, (grantAt (after (.revokeGrant 1) s) 20).map (·.state)) = p.2 := by
  unfold StartsWork TakesWork CanTake Quiet NoDrain; decide +kernel

theorem witness_revocation_channel :
    let r : RevokeWork := { index := 20, serial := 5, granule := 7000, owner := 5, grantee := 9, readWrite := false }
    let a : Active := { block := cmd 0x16 [20], work := .revoke r, phase := .drain, wait := .drain, ending := none }
    let s := setChan 1 { Channel.reset with active := some a, reserved := 1 }
      (cached 7000 { priv 5 with count := 1 } { live with grants := [(20, grant 7000 5 9 .revoking)] })
    Runs 1 a s ∧ NoDrain (.command 1) s ∧ tblGet s.grants 20 = some (grant 7000 5 9 .revoking) ∧
      recordAt s 7000 = some { priv 5 with count := 1 } ∧
      answer 1 (.revocationRemoval (.channel 1)) s = some (.done, 7000, 5 + 9 * 2 ^ 16 + 2 ^ 32 + 255 * 2 ^ 40) ∧
      (after (.revocationRemoval (.channel 1)) s).grants = [] := by
  unfold Runs Quiet NoDrain; decide +kernel

theorem witness_revocation_request :
    let x := { asking 2 with grantee := 9 }
    let s := { asks x { priv 5 with count := 1 } with
      grants := [(20, grant 7000 5 9 .revoking)], running := some { wait := .drain, entry := some (20, 5) } }
    s.requests = [x] ∧ NoDrain .request s ∧ Quiet s ∧ tblGet s.grants 20 = some (grant 7000 5 9 .revoking) ∧
      recordAt s 7000 = some { priv 5 with count := 1 } ∧
      (resultOf (after (.revocationRemoval .request) s) 5).grant = some 20 ∧
      (after (.revocationRemoval .request) s).grants = [] ∧ (after (.revocationRemoval .request) s).requests = [] := by
  unfold NoDrain Quiet; decide +kernel

/-- R151: the last removal of the warm reset, after which its response counts it. -/
theorem witness_revocation_warmReset :
    let w := { newWarmReset 2 (cmd 0x5D []) with stage := .revocation [(20, 5)] true .drain, removed := 3 }
    let s := setChan 2 { Channel.reset with reserved := 1 } (cached 7000 { priv 5 with count := 1 }
      { live with grants := [(20, grant 7000 5 9 .revoking)], warm := some w })
    s.warm = some w ∧ w.stage = .revocation [(20, 5)] true .drain ∧ NoDrain .warmReset s ∧ Quiet s ∧
      tblGet s.grants 20 = some (grant 7000 5 9 .revoking) ∧ recordAt s 7000 = some { priv 5 with count := 1 } ∧
      (∀ x, x < 4 → (chan s x).undo = none) ∧ s.poisonings = [] ∧ s.requests = [] ∧
      (after (.revocationRemoval .warmReset) s).grants = [] ∧ (after (.revocationRemoval .warmReset) s).warm = none ∧
      ((chan (after (.revocationRemoval .warmReset) s) 2).ready.map (fun r => (r.result, r.w3))) = [(.done, 4)] ∧
      recordAt (after (.revocationRemoval .warmReset) s) 7000 = some (priv 5) := by
  unfold NoDrain Quiet; decide +kernel

/-! ### Write tracking (chapter 8) -/

/-- TRACK_START's tests at their boundaries, on a slot 3 that tracks domain 21 and a domain 22 that is PAUSED; then a
free slot over one granule, written or not. -/
theorem witness_trackStart : ∀ p ∈
    [([4, 22, 5000, 1, 1], (some Result.parameter, 0)), ([0, 0, 5000, 1, 1], (some .parameter, 0)),
      ([0, 512, 5000, 1, 1], (some .parameter, 0)), ([0, 22, 5000, 1, 0], (some .parameter, 0)),
      ([0, 22, 5000, 1, 513], (some .parameter, 0)), ([3, 22, 5000, 1, 1], (some .slotState, 0)),
      ([3, 21, 5000, 1, 1], (some .slotState, 0)), ([0, 511, 5000, 1, 1], (some .domainState, 0)),
      ([0, 21, 5000, 1, 1], (some .domainBusy, 0)), ([0, 22, 5000, 1, 512], (some .done, 1)),
      ([2, 22, 5004, 1, 1], (some .done, 0)), ([0, 22, 6000, 1, 1], (none, 0))],
    let s := wrk 1 (cmd 0x17 p.1) (inState 22 .paused (cached 5000 { priv 22 with dirty := true }
      (cached 5004 { priv 5 with dirty := true } tracked)))
    StartsWork .trackStart 1 (cmd 0x17 p.1) s ∧ recordAt s 5000 = some { priv 22 with dirty := true } ∧
      recordAt s 5004 = some { priv 5 with dirty := true } ∧ recordAt s 6000 = none ∧
      (result 1 (.trackStart 1) s, ((answer 1 (.trackStart 1) s).map (·.2.1)).getD 0) = p.2 := by
  unfold StartsWork TakesWork CanTake Quiet; decide +kernel

/-- R154: TRACK_START clears DIRTY granule by granule; a range of the eight cached granules ends, and one of nine waits
for the line of its ninth. -/
theorem witness_trackStart_range : ∀ p ∈ [(8, (some (Result.done, 2, 0), none)), (9, (none, some (Wait.fill 1252)))],
    let dirty := { priv 22 with dirty := true }
    let b := cmd 0x17 [0, 22, 5000, p.1, 1]
    let s := wrk 1 b (inState 22 .paused (cached 5002 dirty (cached 5004 { priv 5 with dirty := true } tracked)))
    let s := putRecord 5003 dirty s
    let t := after (.trackStart 1) s
    StartsWork .trackStart 1 b s ∧ (∀ j, j < 8 → recordAt s (5000 + j) ≠ none) ∧ recordAt s 5008 = none ∧
      (answer 1 (.trackStart 1) s, (chan t 1).active.map (·.wait)) = p.2 ∧
      (List.range 8).map (fun j => (recordAt t (5000 + j)).map (·.dirty)) =
        [some false, some false, some false, some false, some true, some false, some false, some false] := by
  unfold StartsWork TakesWork CanTake Quiet; decide +kernel

/-- TRACK_COLLECT's tests at their boundaries, on slot 3 and an idle slot 0. -/
theorem witness_trackCollect : ∀ p ∈
    [([4, 5000, 1], (Result.parameter, openRecord)), ([3, 5000, 0], (.parameter, openRecord)),
      ([3, 5000, 513], (.parameter, openRecord)), ([3, 268435456, 1], (.parameter, openRecord)),
      ([0, 5000, 1], (.slotState, openRecord)), ([3, 5000, 512], (.parameter, priv 5))],
    let s := wrk 1 (cmd 0x18 p.1) (cached 5000 p.2.2 tracked)
    StartsWork .trackCollect 1 (cmd 0x18 p.1) s ∧ recordAt s 5000 = some p.2.2 ∧
      result 1 (.trackCollect 1) s = some p.2.1 := by
  unfold StartsWork TakesWork CanTake Quiet; decide +kernel

/-- The granule of a slot's queue is cleared of DIRTY and written to the buffer; an empty queue delivers nothing. -/
theorem witness_collect :
    let e : QueueEntry := { granule := 100000, group := false, keep := false }
    let b := cmd 0x18 [3, 5000, 512]
    let s := wrk 1 b (cached 5000 openRecord (cached 100000 { priv 21 with dirty := true } tracked))
    StartsWork .trackCollect 1 b s ∧ recordAt s 5000 = some openRecord ∧ ¬Claimed s 5000 ∧ ¬InSomeRegion s 5000 ∧
      (slotOf s 3).queue = [e] ∧ (slotOf s 3).domain = some 21 ∧
      recordAt s 100000 = some { priv 21 with dirty := true } ∧ (∀ p ∈ s.inFlight, p.2.granule ≠ 100000) ∧
      s.stage = none ∧ NoDrain (.group 1) s ∧ (∀ j ∈ s.tagWaits, jobClass j ≠ .harvestWrite) ∧
      freeTag .harvestWrite s = some 592 ∧ recordAt (after (.trackCollect 1) s) 100000 = some (priv 21) ∧
      (after (.trackCollect 1) s).offers.map (fun r => (r.tag, r.address)) = [(592, 0x1000000000 + 4096 * 5000)] ∧
      result 1 (.trackCollect 1) (setSlot 3 { slotOf s 3 with queue := [] } s) = some .done := by
  unfold StartsWork TakesWork CanTake Quiet NoDrain; decide +kernel

/-- R159: DIRTY is cleared at a granule's first visit in its group; one that a write has set again since stays. -/
theorem test_second_visit_keeps_dirty : ∀ p ∈ [(0, false), (1, true)],
    let k : CollectWork :=
      { slot := 3, buffer := 5000, capacity := 512, count := 2, delivered := 0, lines := 0
        group := [100000, 100000], visited := p.1 }
    let r := { priv 21 with dirty := true }
    (recordAt (collectRecord 1 k 100000 r (cached 100000 r tracked)) 100000).map (·.dirty) = some p.2 := by
  decide +kernel

def collectWork : CollectWork :=
  { slot := 3, buffer := 5000, capacity := 512, count := 2, delivered := 0, lines := 0, group := [100000, 100004]
    visited := 2 }

/-- TRACK_COLLECT of slot 3 active at channel 1 with a group of two granules; 100004 was written meanwhile. -/
def collectActive (phase : Phase) (wait : Wait) : Active :=
  { block := cmd 0x18 [3, 5000, 512], work := .trackCollect collectWork, phase := phase, wait := wait, ending := none }

def collecting (phase : Phase) (wait : Wait) : State :=
  setChan 1 { Channel.reset with active := some (collectActive phase wait), reserved := 1, claim := some 5000 }
    (setSlot 3 { slotOf tracked 3 with
      collecting := some 1
      queue := [{ granule := 100000, group := true, keep := false }, { granule := 100004, group := true, keep := true },
        { granule := 100008, group := false, keep := false }] } tracked)

/-- R161: an ABORT of TRACK_COLLECT stops it at once while it clears or drains, and waits for an outstanding write. -/
theorem witness_abort_trackCollect : ∀ p ∈
    [(Phase.clearing, Wait.fill 25000, false, some Result.aborted), (.draining, .drain, false, some .aborted),
      (.harvest, .writes, true, none)],
    let s := ctl 0 (cmd 0x5C [1, 0]) { collecting p.1 p.2.1 with
      outstanding := if p.2.2.1 then [{ tag := 592, job := .harvest 1, changed := false, timer := 0 }] else [] }
    AbortFinds 0 1 (cmd 0x5C [1, 0]) (collectActive p.1 p.2.1) s ∧ (slotOf s 3).collecting = some 1 ∧
      result 1 (.abort 0) s = p.2.2.2 ∧
      ((slotOf (after (.abort 0) s) 3).queue.any (·.group)) = p.2.2.1 := by
  unfold AbortFinds TakesControl CanTake Quiet; decide +kernel

theorem witness_harvestGroupDrained : let s := collecting .draining .drain
    (chan s 1).active = some (collectActive .draining .drain) ∧ NoDrain (.group 1) s ∧
      (∀ j ∈ s.tagWaits, jobClass j ≠ .harvestWrite) ∧ freeTag .harvestWrite s = some 592 ∧
      (after (.harvestGroupDrained 1) s).offers.map (fun r => (r.tag, r.address, r.data)) =
        [(592, 0x1000000000 + 4096 * 5000, .line (packLine
          ([(0, 4, 100000), (4, 4, 100004)] ++ (List.range 14).map (fun i => (4 * i + 8, 4, 0xFFFFFFFF)))))] := by
  unfold NoDrain; decide +kernel

/-- R159 to R161: the delivered group leaves the queue but for the granule written meanwhile, which moves behind;
a failed write keeps the queue. -/
theorem witness_harvestWrite :
    let o : Outstanding := { tag := 592, job := .harvest 1, changed := false, timer := 0 }
    let s := { collecting .harvest .writes with outstanding := [o] }
    outstandingAt s 592 = some o ∧ Runs 1 (collectActive .harvest .writes) s ∧ (slotOf s 3).collecting = some 1 ∧
      collectWork.delivered + collectWork.group.length = collectWork.count ∧
      answer 1 (.harvestWriteCompletion 592 .ok) s = some (.done, 2, 2) ∧
      ((slotOf (after (.harvestWriteCompletion 592 .ok) s) 3).queue.map (·.granule)) = [100008, 100004] ∧
      collectWork.group = 100000 :: [100004] ∧ collectWork.delivered < collectWork.count ∧
      answer 1 (.harvestWriteCompletion 592 .error) s = some (.downstreamError, 0, 3) ∧
      ((slotOf (after (.harvestWriteCompletion 592 .error) s) 3).queue.map (·.granule)) = [100000, 100004, 100008] := by
  unfold Runs Quiet; decide +kernel

/-- R162, R170: TRACK_STOP's response stands before that of the TRACK_COLLECT that it stops on the same channel. -/
theorem test_trackStop_first :
    let s := setChan 1 { chan (collecting .draining .drain) 1 with control := [cmd 0x4B [3]] } (collecting .draining .drain)
    (chan (after (.trackStop 1) s) 1).ready.map (fun r => (r.code, r.result)) =
      [(0x4B, Result.done), (0x18, .slotState)] := by decide +kernel

end Sys2Proof.Tests
end

section
/-!
PROOFS. The end of a step as the two ports see it, the idle step (1.5) and the cold reset (R15, R18 to R20): O15 and O21.
-/

namespace Sys2Proof.Machine

/-! ### The rows of the links -/

theorem exec_requestTaken (r : Request) (s : State) :
    exec (.requestTaken r) s = answerStep s (offerRequest r s) := rfl

theorem exec_completionTaken (s : State) : exec .completionTaken s = answerStep s (completionTaken s) := rfl

theorem exec_noticePacketTaken (s : State) : exec .noticePacketTaken s = answerStep s (noticeTaken s) := rfl

theorem exec_upstreamLinkUp (s : State) : exec .upstreamLinkUp s =
    answerStep s (if s.upLink then none else some { s with upLink := true, txLast := none }) := rfl

theorem exec_downstreamOfferTaken (s : State) : exec .downstreamOfferTaken s =
    answerStep s (if s.downLink && s.downOffered.isSome then some (takeOffer s) else none) := rfl

theorem exec_downstreamTagGrant (cls : ReqClass) (s : State) :
    exec (.downstreamTagGrant cls) s = answerStep s (some (grantTag cls s)) := rfl

theorem exec_ownRequestTimeout (tag : Fin 1024) (s : State) :
    exec (.ownRequestTimeout tag) s = answerStep s (ownTimeout tag.val s) := rfl

theorem exec_heldTagRelease (tag : Fin 1024) (s : State) :
    exec (.heldTagRelease tag) s = answerStep s (heldTagRelease tag.val s) := rfl

theorem exec_staleCompletionDiscard (tag : Fin 1024) (s : State) :
    exec (.staleCompletionDiscard tag) s = answerStep s (staleDiscard tag.val s) := rfl

theorem exec_fillReadCompletion (tag : Fin 1024) (reply : FillReply) (s : State) :
    exec (.fillReadCompletion tag reply) s = answerStep s (fillCompletion tag.val reply s) := rfl

/-! ### Tables and the end of a step -/

/-- A change of every entry of a table, read at an index. -/
theorem tblGet_map {α : Type} (f : α → α) (t : Table α) (x : Nat) :
    tblGet (t.map (fun p => (p.1, f p.2))) x = (tblGet t x).map f := by
  induction t with
  | nil => rfl
  | cons p t ih =>
    simp only [List.map_cons, tblGet]
    split
    · rfl
    · exact ih

/-- A row whose step is possible and produces no request ends with what the ports offer next. -/
theorem answerStep_some {s t : State} (h : t.produced = s.produced) : answerStep s (some t) = .next (finish t) := by
  simp only [answerStep, issueProduced_same t h]

/-- The end of a step leaves a packet that stands in the notice slot (R190). -/
theorem placeNotice_of_slot {s : State} {n : Notice} (h : s.noticeSlot = some n) : placeNotice s = s := by
  simp only [placeNotice, h]

@[simp] theorem finish_noticeSlot (s : State) : (finish s).noticeSlot = (placeNotice s).noticeSlot := by
  rw [finish, placeOffer_shape, placeTx_shape]

theorem sourceOf_finish (s : State) (x : Nat) : sourceOf (finish s) x = sourceOf (placeNotice s) x := by
  rw [finish, sourceOf_placeOffer, sourceOf_placeTx]

/-- A completion is offered next if it waits and no notice is on offer or the last packet was no completion (R6). -/
theorem finish_offers_completion {s : State} (hup : s.upLink = true) (ho : s.txOffered = none)
    (hc : s.completions ≠ []) (h : noticeReady (placeNotice s) = none ∨ s.txLast ≠ some .completion) :
    (finish s).txOffered = some .completion := by
  rw [finish, placeOffer_shape]
  obtain ⟨x, l, hl⟩ := List.exists_cons_of_ne_nil hc
  simp only [placeTx_txOffered, placeNotice_upLink, placeNotice_txOffered, placeNotice_completions,
    placeNotice_txLast, hup, ho, hl]
  rcases h with h | h
  · simp [h]
  · cases noticeReady (placeNotice s) <;> simp [h]

/-- The notice on offer is offered next if no completion waits or the last packet was one (R6). -/
theorem finish_offers_notice {s : State} (hup : s.upLink = true) (ho : s.txOffered = none)
    (hn : noticeReady (placeNotice s) ≠ none) (h : s.completions = [] ∨ s.txLast = some .completion) :
    (finish s).txOffered = some .notice := by
  rw [finish, placeOffer_shape]
  obtain ⟨n, hn⟩ := Option.ne_none_iff_exists'.1 hn
  simp only [placeTx_txOffered, placeNotice_upLink, placeNotice_txOffered, placeNotice_completions,
    placeNotice_txLast, hup, ho, hn]
  rcases h with h | h
  · simp [h]
  · cases s.completions <;> simp [h]

/-- With no notice on offer, a step that leaves no packet offered ends with no notice offered (R6). -/
theorem finish_offers_no_notice {s : State} (ho : s.txOffered = none) (hn : noticeReady (placeNotice s) = none) :
    (finish s).txOffered ≠ some .notice := by
  rw [finish, placeOffer_shape]
  simp only [placeTx_txOffered, placeNotice_txOffered, placeNotice_completions, ho, hn]
  cases s.upLink <;> cases s.completions <;> simp

/-- The rotation's choice looks at the offers and the class served last only (R11). -/
theorem nextOffer_congr {s t : State} (ho : t.offers = s.offers) (hl : t.lastClass = s.lastClass) :
    nextOffer t = nextOffer s := by
  simp only [nextOffer, rotation, ho, hl]

/-- What is offered downstream at the end of a step (R11, R14). -/
theorem finish_downOffered (s : State) :
    (finish s).downOffered = if s.downLink = true ∧ s.downOffered = none then nextOffer s else s.downOffered := by
  rw [finish, placeOffer]
  rw [nextOffer_congr (s := s) (by simp) (by simp)]
  simp only [placeTx_downLink, placeNotice_downLink, placeTx_downOffered, placeNotice_downOffered, Bool.and_eq_true,
    Option.isNone_iff_eq_none]
  split <;> simp

/-! ### Time -/

/-- The limit of an own request's timer by its class (R10). -/
theorem jobTimeout_eq (j : OwnJob) : jobTimeout j = if jobClass j = .fill then 50 else 100 := by
  cases j <;> rfl

/-- Time changes timers only. -/
theorem elapse_frame (d : Nat) (s : State) :
    { elapse d s with inFlight := s.inFlight, outstanding := s.outstanding, heldTags := s.heldTags } = s := rfl

/-- Settles O15: the idle step is `elapse 1`, read field by field. -/
theorem idleStepLetsOneMicrosecondPass : Obligations.IdleStepLetsOneMicrosecondPass := by
  intro s hq
  have hstep : step s = .next (elapse 1 s) := by simp only [step, hq]
  refine ⟨elapse 1 s, hstep, elapse_frame 1 s, fun i => ?_, ?_, ?_, rfl⟩
  · exact tblGet_map (fun e : InFlight => { e with timer := min (e.timer + 1) (inFlightLimit e) }) s.inFlight i
  · simp [elapse, Function.comp_def]
  · simp only [elapse, jobTimeout_eq]

/-! ### Cold reset -/

/-- The size stays as requested where it fits (R19). -/
theorem clampSize_of_fits {base requested : Nat} (h : base + requested + Config.apertureBytes ≤ Config.addressEnd) :
    clampSize base requested = requested := by
  simp [clampSize, h]

/-- The one pair of straps whose size does not fit asks for 4 TiB at the highest base; it gets 2 TiB (R18, R19). -/
theorem clampSize_of_not_fits {b k : Nat}
    (h : Config.addressEnd < strapBase b + strapSize k + Config.apertureBytes) :
    clampSize (strapBase b) (strapSize k) = 2 ^ 41 := by
  have hb : strapBase b ≤ Config.gib64 * 960 := Nat.mul_le_mul_left _ (Nat.min_le_right _ _)
  have hk : strapSize k ≤ strapSize 4 :=
    Nat.mul_le_mul_left _ (Nat.pow_le_pow_right (by decide) (Nat.min_le_right _ _))
  have h3 : strapSize 3 = 2 ^ 41 := by decide
  have hfits : strapBase b + strapSize 3 + Config.apertureBytes ≤ Config.addressEnd := by
    simp only [h3, Config.gib64, Config.apertureBytes, Config.addressEnd] at hb ⊢
    omega
  have hnot : Config.addressEnd < strapBase b + strapSize 4 + Config.apertureBytes := by omega
  have hclamp : clampSize (strapBase b) (strapSize k) = strapSize 3 := by
    simp [clampSize, Nat.not_le.2 h, Nat.not_le.2 hnot, hfits]
  rw [hclamp, h3]

/-- A base and a size that the straps give make a legal span (R18 to R20). -/
theorem spanLegal_of_straps {s : State} {b k : Nat} (hb : s.base = strapBase b)
    (hs : s.size = clampSize (strapBase b) (strapSize k)) : SpanLegal s := by
  refine ⟨⟨min b 960, Nat.min_le_right _ _, by rw [hb, strapBase]⟩, ?_⟩
  rw [hb, hs]
  by_cases h : strapBase b + strapSize k + Config.apertureBytes ≤ Config.addressEnd
  · rw [clampSize_of_fits h]
    exact ⟨⟨min k 4, Nat.min_le_right _ _, by rw [strapSize]⟩, h⟩
  · rw [clampSize_of_not_fits (Nat.not_le.1 h)]
    refine ⟨⟨3, by decide, by decide⟩, ?_⟩
    have hb : min b 960 ≤ 960 := Nat.min_le_right _ _
    simp only [strapBase, Config.gib64, Config.apertureBytes, Config.addressEnd]
    omega

/-- Settles O21: the state of the row is `coldState`, read field by field; the span is the one point of substance. -/
theorem coldResetReturnsThePartToUnformatted : Obligations.ColdResetReturnsThePartToUnformatted := by
  intro b k s
  obtain ⟨t, ht⟩ : ∃ t : State,
      t = { coldState b.val k.val s.faultLine s.warnLine with pending := s.pending } := ⟨_, rfl⟩
  have hbase : t.base = strapBase b.val := by simp only [ht, coldState]
  have hreq : t.requested = strapSize k.val := by simp only [ht, coldState]
  have hsize : t.size = clampSize (strapBase b.val) (strapSize k.val) := by simp only [ht, coldState]
  have hdom : ∀ d, Domain.resetOf d = { Domain.reset with state := if d = 0 then .root else .free } := by
    intro d
    unfold Domain.resetOf
    split <;> rfl
  refine ⟨t, by rw [ht]; rfl, spanLegal_of_straps hbase hsize, fun h => ?_, fun h => ?_, ?_⟩
  · rw [hbase, hreq] at h
    rw [hsize, hreq, clampSize_of_fits h]
  · rw [hbase, hreq] at h
    rw [hsize, clampSize_of_not_fits h]
  clear hbase hreq hsize
  subst ht
  refine ⟨rfl, rfl, rfl, rfl, rfl, rfl, rfl, rfl, rfl, rfl, rfl, rfl, rfl, rfl, rfl, rfl, rfl, rfl, rfl, rfl, rfl, rfl,
    rfl, ?_⟩
  refine ⟨fun _ => rfl, rfl, rfl, rfl, rfl, rfl, rfl, rfl, rfl, rfl, hdom, rfl, rfl, rfl, fun _ => rfl, fun _ => rfl,
    rfl, rfl, rfl, rfl, fun _ => rfl, fun _ => rfl, rfl, rfl, rfl, fun _ => ⟨rfl, rfl, rfl⟩, rfl, rfl, rfl⟩

end Sys2Proof.Machine
end

section
/-!
PROOFS. The upstream port (1.4): what a link reset drops and keeps, in what order packets leave, and which requests wait: O22,
O23 and O30.
-/

namespace Sys2Proof.Machine

/-! ### Resets of the links (R13, R14) -/

/-- The counted sets that a downed upstream link leaves: without the held transaction, and not empty (R13, R85). -/
theorem mem_linkDown_drains (s : State) (d : Drain) :
    d ∈ (linkDown s).drains ↔ d.held = false ∧ d.members ≠ [] ∧ ∃ x ∈ s.drains, d = { x with held := false } := by
  simp only [linkDown, mapDrains, List.mem_filter, List.mem_map, Bool.or_eq_true, Bool.not_eq_true',
    List.isEmpty_eq_false_iff]
  constructor
  · rintro ⟨⟨x, hx, rfl⟩, h⟩
    exact ⟨rfl, by simpa using h, x, hx, rfl⟩
  · rintro ⟨-, hm, x, hx, rfl⟩
    exact ⟨⟨x, hx, rfl⟩, .inl hm⟩

/-- With the downstream link down the end of a step offers nothing new (R14). -/
theorem finish_downOffered_down {s : State} (h : s.downLink = false) : (finish s).downOffered = s.downOffered := by
  simp [finish_downOffered, h]

/-- UPSTREAM_LINK_DOWN (R13, R85). -/
theorem upstreamLinkDown_drops (s : State) : ∃ t, exec .upstreamLinkDown s = .next t ∧ t.upLink = false ∧
    t.tagsInUse = [] ∧ t.completions = [] ∧ t.stage = none ∧ t.missQueue = [] ∧
    (∀ i, tblGet t.inFlight i = (tblGet s.inFlight i).map (fun e => { e with suppress := true })) ∧
    (∀ d, d ∈ t.drains ↔ d.held = false ∧ d.members ≠ [] ∧ ∃ x ∈ s.drains, d = { x with held := false }) ∧
    Untouched s { t with
      upLink := s.upLink, tagsInUse := s.tagsInUse, completions := s.completions, stage := s.stage
      missQueue := s.missQueue, inFlight := s.inFlight, drains := s.drains } ∧
    (∀ c, chan t c = chan s c) ∧ (∀ n, s.noticeSlot = some n → t.noticeSlot = some n) ∧
    (∀ n, (sourceOf t n).cls = (sourceOf s n).cls ∧ (sourceOf t n).pending = (sourceOf s n).pending) := by
  refine ⟨finish (linkDown s), rfl, ?_, ?_, ?_, ?_, ?_, fun i => ?_, fun d => ?_, ?_, fun c => ?_, fun n hn => ?_,
    fun n => ?_⟩
  · rw [finish_upLink]; rfl
  · rw [finish_tagsInUse]; rfl
  · rw [finish_completions]; rfl
  · rw [finish_stage]; rfl
  · rw [finish_missQueue]; rfl
  · rw [finish_inFlight]
    exact tblGet_map (fun e : InFlight => { e with suppress := true }) s.inFlight i
  · rw [finish_drains]
    exact mem_linkDown_drains s d
  · rw [Untouched, finish_shape]
    rfl
  · rw [chan_finish]; rfl
  · have hs : (linkDown s).noticeSlot = some n := hn
    rw [finish_noticeSlot, placeNotice_of_slot hs, hs]
  · rw [sourceOf_finish]
    exact sourceOf_placeNotice (linkDown s) n

/-- UPSTREAM_LINK_UP of a link that is down (R13, R6). -/
theorem upstreamLinkUp_offers (s : State) (hdown : s.upLink = false) : ∃ t, exec .upstreamLinkUp s = .next t ∧
    t.upLink = true ∧ Untouched s { t with upLink := s.upLink } ∧ (∀ c, chan t c = chan s c) ∧
    (s.txOffered = none → s.completions ≠ [] → t.txOffered = some .completion) := by
  obtain ⟨u, hu⟩ : ∃ u : State, u = { s with upLink := true, txLast := none } := ⟨_, rfl⟩
  have hrow : exec .upstreamLinkUp s = .next (finish u) := by
    rw [exec_upstreamLinkUp, hdown, ← hu]
    exact answerStep_some (by rw [hu])
  refine ⟨finish u, hrow, ?_, ?_, fun c => ?_, fun ho hc => ?_⟩
  · rw [finish_upLink, hu]
  · rw [Untouched, finish_shape, hu]
  · rw [chan_finish, hu]; rfl
  · subst hu
    exact finish_offers_completion rfl ho hc (.inr (by simp))

/-- Settles O22: each row is the end of a step on a state written out in the model, and no end of a step changes what
the other fields hold. -/
theorem linkResetsDropOrKeepWhatTheirPortHolds : Obligations.LinkResetsDropOrKeepWhatTheirPortHolds := by
  refine ⟨upstreamLinkDown_drops, upstreamLinkUp_offers, fun s => ?_, fun s => ?_⟩
  · refine ⟨finish { s with downLink := false, downOffered := none }, rfl, by simp, ?_, by simp, by simp, by simp,
      by simp, by simp, ?_, fun c => ?_⟩
    · rw [finish_downOffered_down rfl]
    · rw [Untouched, finish_shape]
    · rw [chan_finish]; rfl
  · refine ⟨finish { s with downLink := true }, rfl, by simp, by simp, by simp, by simp, by simp, ?_, fun c => ?_⟩
    · rw [Untouched, finish_shape]
    · rw [chan_finish]; rfl

/-! ### Packets upstream (R5 to R8, R190) -/

/-- COMPLETION_TAKEN of the oldest completion (R5, R6). -/
theorem completionTaken_frees (s : State) (x : Completion) (rest : List Completion)
    (ho : s.txOffered = some .completion) (hc : s.completions = x :: rest) :
    ∃ t, exec .completionTaken s = .next t ∧ t.completions = rest ∧
      t.tagsInUse = (if x.duplicate then s.tagsInUse else s.tagsInUse.filter (· != x.tag)) ∧
      Untouched s { t with completions := s.completions, tagsInUse := s.tagsInUse } ∧
      (∀ c, chan t c = chan s c) ∧
      (s.upLink = true → rest ≠ [] → t.noticeSlot = none → t.txOffered = some .completion) ∧
      ((∀ w, s.warm = some w → w.stage = .settling) →
        s.upLink = true → s.txLast = some .completion → t.noticeSlot ≠ none → t.txOffered = some .notice) := by
  obtain ⟨u, hu⟩ : ∃ u : State, u = { s with
      completions := rest, txOffered := none
      tagsInUse := if x.duplicate then s.tagsInUse else s.tagsInUse.filter (· != x.tag) } := ⟨_, rfl⟩
  have hrow : exec .completionTaken s = .next (finish u) := by
    have htaken : completionTaken s = some u := by simp only [completionTaken, ho, hc, hu]
    rw [exec_completionTaken, htaken, answerStep_some (by rw [hu])]
  refine ⟨finish u, hrow, ?_, ?_, ?_, fun c => ?_, fun hup hr hn => ?_, fun hw hup hl hn => ?_⟩
  · rw [finish_completions, hu]
  · rw [finish_tagsInUse, hu]
  · rw [Untouched, finish_shape, hu]
  · rw [chan_finish, hu]; rfl
  · rw [finish_noticeSlot] at hn
    have hnone : noticeReady (placeNotice u) = none := by
      unfold noticeReady
      split <;> simp [hn]
    exact finish_offers_completion (by rw [hu, hup]) (by rw [hu]) (by rw [hu]; exact hr) (.inl hnone)
  · rw [finish_noticeSlot] at hn
    have hready : noticeReady (placeNotice u) = (placeNotice u).noticeSlot :=
      noticeReady_eq _ (by rw [placeNotice_warm, hu]; exact hw)
    exact finish_offers_notice (by rw [hu, hup]) (by rw [hu]) (by rw [hready]; exact hn) (.inr (by rw [hu, hl]))

theorem isCandidate_iff (s : State) (n : Nat) : isCandidate s n = true ↔
    (sourceOf s n).pending = true ∧ (sourceOf s n).notified = false ∧ 1 ≤ (sourceOf s n).cls := by
  simp [isCandidate, and_assoc]

/-- The lowest candidate of a class. -/
theorem candidate_of_class {s : State} {k n : Nat}
    (h : ((List.range Config.noticeSources).filter (isCandidate s)).find? (fun n => (sourceOf s n).cls == k) = some n) :
    n < 14 ∧ isCandidate s n = true ∧ (sourceOf s n).cls = k ∧
      ∀ x, x < n → isCandidate s x = true → (sourceOf s x).cls ≠ k := by
  rw [List.find?_filter, List.find?_range_eq_some] at h
  obtain ⟨hp, hlt, hlow⟩ := h
  simp only [decide_eq_true_eq, beq_iff_eq] at hp
  refine ⟨List.mem_range.1 hlt, hp.1, hp.2, fun x hx hcand hk => ?_⟩
  have := hlow x hx
  simp [hcand, hk] at this

theorem no_candidate_of_class {s : State} {k : Nat}
    (h : ((List.range Config.noticeSources).filter (isCandidate s)).find? (fun n => (sourceOf s n).cls == k) = none) :
    ∀ x, x < 14 → isCandidate s x = true → (sourceOf s x).cls ≠ k := by
  intro x hx hcand hk
  have := List.find?_eq_none.1 h x (List.mem_filter.2 ⟨List.mem_range.2 hx, hcand⟩)
  simp [hk] at this

/-- The first of an ordered list that gives a value: what else gives one comes after it. -/
theorem first_of_findSome? {α β : Type} {R : α → α → Prop} {f : α → Option β} {l : List α} {b : β}
    (hl : l.Pairwise R) (h : l.findSome? f = some b) :
    ∃ a ∈ l, f a = some b ∧ ∀ x ∈ l, f x ≠ none → x = a ∨ R a x := by
  obtain ⟨l₁, a, l₂, rfl, ha, hnone⟩ := List.findSome?_eq_some_iff.1 h
  refine ⟨a, by simp, ha, fun x hx hfx => ?_⟩
  rcases List.mem_append.1 hx with hx | hx
  · exact absurd (hnone x hx) hfx
  · rcases List.mem_cons.1 hx with hx | hx
    · exact .inl hx
    · exact .inr ((List.pairwise_cons.1 (List.pairwise_append.1 hl).2.1).1 x hx)

theorem class_mem {k : Nat} (h1 : 1 ≤ k) (h3 : k ≤ 3) : k ∈ [3, 2, 1] := by
  simp
  omega

/-- The source that the Notice Unit chooses: a candidate of a class from 1 to 3, of the highest such class and, in
it, of the lowest number (R190). -/
theorem noticeChoice_some {s : State} {n : Nat} (h : noticeChoice s = some n) :
    n < 14 ∧ isCandidate s n = true ∧ (sourceOf s n).cls ≤ 3 ∧
      ∀ x, x < 14 → isCandidate s x = true → (sourceOf s x).cls ≤ 3 →
        (sourceOf s x).cls ≤ (sourceOf s n).cls ∧ ((sourceOf s x).cls = (sourceOf s n).cls → n ≤ x) := by
  obtain ⟨k, hk, hfind, hfirst⟩ := first_of_findSome? (R := (· > ·)) (by decide) h
  obtain ⟨hlt, hcand, hcls, hlow⟩ := candidate_of_class hfind
  have hk3 : k ≤ 3 := by simp at hk; omega
  refine ⟨hlt, hcand, by omega, fun x hx hxc hx3 => ⟨?_, fun he => ?_⟩⟩
  · have hx1 : 1 ≤ (sourceOf s x).cls := ((isCandidate_iff s x).1 hxc).2.2
    have := hfirst _ (class_mem hx1 hx3) (fun hnone => no_candidate_of_class hnone x hx hxc rfl)
    omega
  · by_contra hlt'
    exact hlow x (by omega) hxc (by omega)

/-- With no source chosen there is no candidate of a class from 1 to 3. -/
theorem noticeChoice_none {s : State} (h : noticeChoice s = none) {x : Nat} (hx : x < 14)
    (hc : isCandidate s x = true) : 3 < (sourceOf s x).cls := by
  by_contra hx3
  have hx1 : 1 ≤ (sourceOf s x).cls := ((isCandidate_iff s x).1 hc).2.2
  exact no_candidate_of_class (List.findSome?_eq_none_iff.1 h _ (class_mem hx1 (by omega))) x hx hc rfl

/-- What the Notice Unit does with an empty slot (R190): the chosen source's packet, if there is one, with the source
notified. -/
theorem placeNotice_of_empty {s : State} (h : s.noticeSlot = none) :
    (noticeChoice s = none ∧ placeNotice s = s) ∨
      ∃ n, noticeChoice s = some n ∧
        (placeNotice s).noticeSlot = some { source := n, cls := (sourceOf s n).cls } ∧
        (sourceOf (placeNotice s) n).notified = true := by
  unfold placeNotice
  rw [h]
  cases hc : noticeChoice s with
  | none => exact .inl ⟨rfl, rfl⟩
  | some n => exact .inr ⟨n, rfl, rfl, by simp⟩

/-- A packet newly placed is not on offer between a warm reset's clearing step and its resumption (R174). -/
theorem noticeReady_placeNotice_of_warm {s : State} {w : WarmReset} (h : s.noticeSlot = none) (hw : s.warm = some w)
    (hs : w.stage ≠ .settling) : noticeReady (placeNotice s) = none := by
  rcases placeNotice_of_empty h with ⟨-, he⟩ | ⟨n, -, hn, hmark⟩
  · rw [he]
    unfold noticeReady
    split <;> simp [h]
  · exact noticeReady_eq_none _ (by rw [placeNotice_warm, hw]) hs hn hmark

/-- NOTICE_PACKET_TAKEN (R8, R190, R174). -/
theorem noticePacketTaken_placesNext (s : State) (n : Notice) (ho : s.txOffered = some .notice)
    (hn : s.noticeSlot = some n) :
    ∃ t, exec .noticePacketTaken s = .next t ∧ Untouched s t ∧ (∀ c, chan t c = chan s c) ∧
      (∀ x, (sourceOf t x).cls = (sourceOf s x).cls ∧ (sourceOf t x).pending = (sourceOf s x).pending) ∧
      (∀ m, t.noticeSlot = some m →
        m.source < 14 ∧ m.cls = (sourceOf s m.source).cls ∧ 1 ≤ m.cls ∧ (sourceOf s m.source).pending = true ∧
          (sourceOf s m.source).notified = false ∧ (sourceOf t m.source).notified = true ∧
          ∀ x, x < 14 → (sourceOf s x).pending = true → (sourceOf s x).notified = false →
            (sourceOf s x).cls ≤ 3 →
            (sourceOf s x).cls ≤ m.cls ∧ ((sourceOf s x).cls = m.cls → m.source ≤ x)) ∧
      ((∃ x, x < 14 ∧ (sourceOf s x).pending = true ∧ (sourceOf s x).notified = false ∧
          1 ≤ (sourceOf s x).cls ∧ (sourceOf s x).cls ≤ 3) → t.noticeSlot ≠ none) ∧
      ((∀ w, s.warm = some w → w.stage = .settling) → s.upLink = true → s.completions = [] → t.noticeSlot ≠ none →
        t.txOffered = some .notice) ∧
      (∀ w, s.warm = some w → w.stage ≠ .settling → t.txOffered ≠ some .notice ∧
        (s.upLink = true → s.completions ≠ [] → t.txOffered = some .completion)) := by
  obtain ⟨u, hu⟩ : ∃ u : State, u = { s with noticeSlot := none, txOffered := none } := ⟨_, rfl⟩
  have hempty : u.noticeSlot = none := by rw [hu]
  have hsrc : ∀ x, sourceOf u x = sourceOf s x := fun x => by rw [hu]; rfl
  have htx : u.txOffered = none := by rw [hu]
  have hrow : exec .noticePacketTaken s = .next (finish u) := by
    have htaken : noticeTaken s = some u := by simp only [noticeTaken, ho, hn, hu]
    rw [exec_noticePacketTaken, htaken, answerStep_some (by rw [hu])]
  refine ⟨finish u, hrow, ?_, fun c => ?_, fun x => ?_, fun m hm => ?_, ?_, fun hw hup hc hslot => ?_,
    fun w hw hst => ⟨?_, fun hup hc => ?_⟩⟩
  · rw [Untouched, finish_shape, hu]
  · rw [chan_finish, hu]; rfl
  · rw [sourceOf_finish, ← hsrc x]
    exact sourceOf_placeNotice u x
  · rw [finish_noticeSlot] at hm
    rcases placeNotice_of_empty hempty with ⟨-, he⟩ | ⟨k, hk, hslot, hmark⟩
    · rw [he, hempty] at hm
      cases hm
    · obtain rfl : m = { source := k, cls := (sourceOf u k).cls } := Option.some.inj (hm.symm.trans hslot)
      obtain ⟨hlt, hcand, -, hbest⟩ := noticeChoice_some hk
      simp only [isCandidate_iff, hsrc] at hcand hbest ⊢
      refine ⟨hlt, trivial, hcand.2.2, hcand.1, hcand.2.1, by rw [sourceOf_finish, hmark], fun x hx hp hnot h3 => ?_⟩
      by_cases h1 : 1 ≤ (sourceOf s x).cls
      · exact hbest x hx ⟨hp, hnot, h1⟩ h3
      · exact ⟨by omega, fun he => by omega⟩
  · rintro ⟨x, hx, hp, hnot, h1, h3⟩
    rw [finish_noticeSlot]
    rcases placeNotice_of_empty hempty with ⟨hnone, -⟩ | ⟨k, -, hslot, -⟩
    · have := noticeChoice_none hnone hx ((isCandidate_iff u x).2 (by simp only [hsrc]; exact ⟨hp, hnot, h1⟩))
      rw [hsrc] at this
      omega
    · simp [hslot]
  · rw [finish_noticeSlot] at hslot
    have hready : noticeReady (placeNotice u) = (placeNotice u).noticeSlot :=
      noticeReady_eq _ (by rw [placeNotice_warm, hu]; exact hw)
    exact finish_offers_notice (by rw [hu, hup]) htx (by rw [hready]; exact hslot) (.inl (by rw [hu, hc]))
  · exact finish_offers_no_notice htx (noticeReady_placeNotice_of_warm hempty (by rw [hu, hw]) hst)
  · exact finish_offers_completion (by rw [hu, hup]) htx (by rw [hu]; exact hc)
      (.inl (noticeReady_placeNotice_of_warm hempty (by rw [hu, hw]) hst))

/-- Settles O23: both rows end with what the ports offer next, which `placeNotice` and `placeTx` decide. -/
theorem upstreamPacketsLeaveInTheirOrder : Obligations.UpstreamPacketsLeaveInTheirOrder :=
  ⟨completionTaken_frees, noticePacketTaken_placesNext⟩

/-! ### Waiting and duplicates upstream (R3, R5, R7) -/

theorem flushing_eq_false_iff (s : State) : flushing s = false ↔ s.flush = .none ∨ s.flush = .done := by
  unfold flushing
  cases s.flush <;> simp

/-- The port takes a request exactly where the conditions of R3 and R7 let it. -/
theorem accepts_iff (s : State) : accepts s = true ↔ PortTakes s := by
  simp only [accepts, PortTakes, hasReleased, Bool.and_eq_true, Bool.not_eq_true', List.any_eq_false,
    flushing_eq_false_iff, Option.isNone_iff_eq_none, decide_eq_true_eq, Bool.not_eq_true, and_assoc]
  rfl

/-- Settles O30: a request that the port does not take makes no step, and a duplicate tag's is refused unchecked. -/
theorem requestsWaitOrMeetTheDuplicateTest : Obligations.RequestsWaitOrMeetTheDuplicateTest := by
  refine ⟨fun r s h => ?_, fun r s h hdup => ?_⟩
  · have hno : offerRequest r s = none := by simp [offerRequest, (accepts_iff s).not.2 h]
    rw [exec_requestTaken, hno, answerStep]
  · have hyes : offerRequest r s = some (refuseDuplicate r s) := by
      simp [offerRequest, (accepts_iff s).2 h, takeRequest, hdup]
    refine ⟨finish (refuseDuplicate r s), ?_, ?_, ?_, fun c => ?_⟩
    · rw [exec_requestTaken, hyes]
      exact answerStep_some rfl
    · rw [Decided, finish_completions]
      rfl
    · rw [Untouched, finish_shape]
      rfl
    · rw [chan_finish]; rfl

end Sys2Proof.Machine
end

section
/-!
PROOFS. The downstream port (1.5): the rotation among the classes and the tag that a waiting request is granted: O24 and O25.
-/

namespace Sys2Proof.Machine

/-! ### The rotation of the downstream classes (R10, R11) -/

theorem classIndex_injective {k k' : ReqClass} (h : classIndex k = classIndex k') : k = k' := by
  cases k <;> cases k' <;> simp [classIndex] at h ⊢

/-- The tags of a class end before those of the next class begin (R10). -/
theorem classes_apart {k k' : ReqClass} (h : classIndex k < classIndex k') :
    classLow k + classTags k ≤ classLow k' := by
  cases k <;> cases k' <;> simp [classIndex, classLow, classTags] at h ⊢

/-- A tag is of one class at most (R10). -/
theorem class_unique {k k' : ReqClass} {tag : Nat} (h : tagInClass k tag = true) (h' : tagInClass k' tag = true) :
    k = k' := by
  simp only [tagInClass, decide_eq_true_eq] at h h'
  rcases Nat.lt_trichotomy (classIndex k) (classIndex k') with hlt | heq | hgt
  · have := classes_apart hlt
    omega
  · exact classIndex_injective heq
  · have := classes_apart hgt
    omega

theorem mem_classOrder (k : ReqClass) : k ∈ classOrder := by
  cases k <;> decide

/-- The class of a tag (R10). -/
theorem tagClass_eq {k : ReqClass} {tag : Nat} (h : tagInClass k tag = true) : tagClass tag = some k := by
  cases hc : tagClass tag with
  | none => exact absurd h (List.find?_eq_none.1 hc k (mem_classOrder k))
  | some k' => rw [class_unique h (List.find?_some (p := fun cls => tagInClass cls tag) hc)]

/-- The part's tags are those below 608 (R10). -/
theorem class_of_lt {tag : Nat} (h : tag < 608) : ∃ k, tagInClass k tag = true := by
  by_contra hno
  simp only [tagInClass, decide_eq_true_eq, not_exists] at hno
  have h0 := hno .forwarded
  have h1 := hno .fill
  have h2 := hno .writeBack
  have h3 := hno .formatWrite
  have h4 := hno .zeroWrite
  have h5 := hno .harvestWrite
  simp only [classLow, classTags] at h0 h1 h2 h3 h4 h5
  omega

/-- How many places a class stands behind the one served last in the rotation: 0 is the class after it. -/
def turnAfter (served k : ReqClass) : Nat := (classIndex k + 5 - classIndex served) % 6

/-- The rotation takes the classes in the order of their turns (R11). -/
theorem rotation_pairwise {s : State} {served : ReqClass} (h : s.lastClass = some served) :
    (rotation s).Pairwise (fun k k' => turnAfter served k < turnAfter served k') := by
  rw [rotation, h]
  cases served <;> decide

theorem mem_rotation (s : State) (k : ReqClass) : k ∈ rotation s := by
  unfold rotation
  split
  · exact mem_classOrder k
  · rename_i served _
    cases served <;> cases k <;> decide

/-- The tag of the first request of a class that stands offered to the expander. -/
def firstOffer (s : State) (k : ReqClass) : Option Nat :=
  (s.offers.find? (fun r => tagInClass k r.tag)).map (·.tag)

theorem nextOffer_eq (s : State) : nextOffer s = (rotation s).findSome? (firstOffer s) := rfl

theorem firstOffer_ne_none {s : State} {r : DownRequest} {k : ReqClass} (hr : r ∈ s.offers)
    (hk : tagInClass k r.tag = true) : firstOffer s k ≠ none := by
  simp only [firstOffer, ne_eq, Option.map_eq_none_iff, List.find?_eq_none, not_forall]
  exact ⟨r, hr, by simpa using hk⟩

theorem firstOffer_some {s : State} {y : Nat} {k : ReqClass} (h : firstOffer s k = some y) :
    tagInClass k y = true ∧ ∃ r, s.offers.find? (fun r => tagInClass k r.tag) = some r ∧ r.tag = y := by
  obtain ⟨r, hr, rfl⟩ := Option.map_eq_some_iff.1 h
  exact ⟨List.find?_some (p := fun r : DownRequest => tagInClass k r.tag) hr, r, hr, rfl⟩

/-- The next offer is the first of its class, and no class with a request comes sooner in the rotation (R11). -/
theorem nextOffer_some {s : State} {served k : ReqClass} {y : Nat} (hl : s.lastClass = some served)
    (h : nextOffer s = some y) (hk : tagInClass k y = true) :
    (∃ r, s.offers.find? (fun r => tagInClass k r.tag) = some r ∧ r.tag = y) ∧
      ∀ r ∈ s.offers, ∀ k', tagInClass k' r.tag = true → turnAfter served k ≤ turnAfter served k' := by
  rw [nextOffer_eq] at h
  obtain ⟨a, -, ha, hfirst⟩ := first_of_findSome? (rotation_pairwise hl) h
  obtain ⟨hay, hr⟩ := firstOffer_some ha
  obtain rfl := class_unique hk hay
  refine ⟨hr, fun r hr k' hk' => ?_⟩
  rcases hfirst k' (mem_rotation s k') (firstOffer_ne_none hr hk') with rfl | hlt
  · exact Nat.le_refl _
  · exact Nat.le_of_lt hlt

/-- A request of the part's tags is left to offer: one is offered (R11). -/
theorem nextOffer_ne_none {s : State} {r : DownRequest} (hr : r ∈ s.offers) (ht : r.tag < 608) :
    nextOffer s ≠ none := by
  obtain ⟨k, hk⟩ := class_of_lt ht
  rw [nextOffer_eq]
  intro hnone
  exact firstOffer_ne_none hr hk (List.findSome?_eq_none_iff.1 hnone k (mem_rotation s k))

theorem nextOffer_nil {s : State} (h : s.offers = []) : nextOffer s = none := by
  simp [nextOffer, h]

/-- Settles O24: the row leaves nothing offered, so its end offers what the rotation finds from the served class on. -/
theorem expanderTakesOffersInClassRotation : Obligations.ExpanderTakesOffersInClassRotation := by
  intro s x hlink hoff
  obtain ⟨u, hu⟩ : ∃ u : State, u = { s with
      offers := s.offers.filter (fun r => r.tag != x), downOffered := none
      lastClass := (tagClass x).or s.lastClass } := ⟨_, rfl⟩
  have hrow : exec .downstreamOfferTaken s = .next (finish u) := by
    have htake : takeOffer s = u := by simp only [takeOffer, hoff, hlink, hu, if_true]
    rw [exec_downstreamOfferTaken, hlink, hoff, htake]
    exact answerStep_some (by rw [hu])
  have hoffers : (finish u).offers = u.offers := finish_offers u
  have hnext : (finish u).downOffered = nextOffer u := by
    rw [finish_downOffered, if_pos ⟨by rw [hu, hlink], by rw [hu]⟩]
  have hlast : ∀ cls, tagInClass cls x = true → u.lastClass = some cls := by
    intro cls hcls
    rw [hu, tagClass_eq hcls]
    rfl
  refine ⟨finish u, hrow, ?_, fun cls hcls => ?_, ?_, fun c => ?_, fun cls k y hcls hy hk => ?_, ?_, fun hnil => ?_⟩
  · rw [hoffers, hu]
  · rw [finish_lastClass, hlast cls hcls]
  · rw [Untouched, finish_shape, hu]
  · rw [chan_finish, hu]; rfl
  · rw [hnext] at hy
    rw [hoffers]
    exact nextOffer_some (hlast cls hcls) hy hk
  · rintro ⟨r, hr, ht⟩
    rw [hoffers] at hr
    rw [hnext]
    exact nextOffer_ne_none hr ht
  · rw [hoffers] at hnil
    rw [hnext, nextOffer_nil hnil]

/-! ### Tags granted downstream (R9, R10) -/

/-- The free tag of a class is one of its tags, and every lower one is outstanding or held (R10, R12). -/
theorem freeTag_some {cls : ReqClass} {s : State} {x : Nat} (h : freeTag cls s = some x) :
    tagInClass cls x = true ∧ ∀ y, tagInClass cls y = true → y < x →
      (∃ o ∈ s.outstanding, o.tag = y) ∨ (∃ h ∈ s.heldTags, h.tag = y) := by
  rw [freeTag, List.find?_map, Option.map_eq_some_iff] at h
  obtain ⟨i, hi, rfl⟩ := h
  obtain ⟨-, hlt, hlow⟩ := List.find?_range_eq_some.1 hi
  rw [List.mem_range] at hlt
  simp only [tagInClass, decide_eq_true_eq]
  refine ⟨by omega, fun y hy hyi => ?_⟩
  have := hlow (y - classLow cls) (by omega)
  have hsub : y - classLow cls + classLow cls = y := by omega
  simp only [Function.comp_apply, hsub] at this
  by_contra hno
  simp only [not_or, not_exists, not_and] at hno
  simp only [Bool.not_and, Bool.not_not, Bool.or_eq_true, List.any_eq_true, beq_iff_eq] at this
  rcases this with ⟨o, ho, he⟩ | ⟨k, hk, he⟩
  · exact hno.1 o ho he
  · exact hno.2 k hk he

/-- Every packet of an own request carries its tag, domain tag 0 and no mask (R9). -/
theorem packetOf_tag_domain_mask (x : Nat) (job : OwnJob) (s : State) :
    (packetOf x job s).tag = x ∧ (packetOf x job s).domain = 0 ∧ (packetOf x job s).mask = 0 := by
  cases job with
  | harvest c =>
    simp only [packetOf]
    split <;> exact ⟨rfl, rfl, rfl⟩
  | _ => exact ⟨rfl, rfl, rfl⟩

/-- A harvest's packet is a write, of its group's line where its channel collects (R160, R183). -/
theorem packetOf_harvest (x c : Nat) (s : State) : (packetOf x (.harvest c) s).kind = .write ∧
    ∀ a k, (chan s c).active = some a → a.work = .trackCollect k →
      (packetOf x (.harvest c) s).address = s.base + 4096 * k.buffer + 64 * k.lines ∧
        (packetOf x (.harvest c) s).data = .line (encodeHarvest k.group) := by
  refine ⟨?_, fun a k ha hk => ?_⟩
  · simp only [packetOf]
    split <;> rfl
  · simp only [packetOf, ha, hk, Option.map_some]
    exact ⟨rfl, trivial⟩

theorem tagLineAddress_eq (s : State) (line : Nat) :
    tagLineAddress s line = s.base + 4096 * s.tagBase.getD 0 + 64 * line := by
  rw [tagLineAddress, Nat.mul_comm (s.tagBase.getD 0)]
  rfl

/-- FORMAT's record of a granule, with the tag base given (R34). -/
theorem formatQuad_eq {s : State} {T : Nat} (h : s.tagBase = some T) (line : Nat) :
    formatQuad s line =
      { r0 := formatted T (4 * line) s, r1 := formatted T (4 * line + 1) s
        r2 := formatted T (4 * line + 2) s, r3 := formatted T (4 * line + 3) s } := by
  have hr : ∀ g, (if inTagRegion s g then reservedRecord else openRecord) = formatted T g s := by
    intro g
    by_cases hg : T ≤ g ∧ g < T + tagRegionSize s <;> simp [inTagRegion, h, formatted, reservedRecord, openRecord, hg]
  simp only [formatQuad, hr]

/-- A tag granted takes the first waiting request of the class, which is outstanding and offered under it; its engine
may note that in the fills and the units (R10, R47, R125). -/
theorem grantTag_shape {cls : ReqClass} {s : State} {job : OwnJob} {x : Nat}
    (hj : s.tagWaits.find? (fun j => jobClass j == cls) = some job) (hx : freeTag cls s = some x) :
    grantTag cls s = { s with
      tagWaits := s.tagWaits.erase job
      outstanding := s.outstanding ++ [{ tag := x, job := job, changed := false, timer := 0 }]
      offers := s.offers ++ [packetOf x job s]
      fills := (grantTag cls s).fills, units := (grantTag cls s).units } := by
  have hpacket : packetOf x job { s with tagWaits := s.tagWaits.erase job } = packetOf x job s := by
    cases job <;> rfl
  simp only [grantTag, hj, hx, sendJob, hpacket]
  rw [noteIssue_shape]

/-- Settles O25: the row sends the job that waits first; what is left is the packet, job by job. -/
theorem freedTagGoesToTheFirstWaitingRequest : Obligations.FreedTagGoesToTheFirstWaitingRequest := by
  intro cls s job x hj hx
  obtain ⟨hclass, hlower⟩ := freeTag_some hx
  obtain ⟨htag, hdomain, hmask⟩ := packetOf_tag_domain_mask x job s
  have hgrant := grantTag_shape hj hx
  have hrow : exec (.downstreamTagGrant cls) s = .next (finish (grantTag cls s)) := by
    rw [exec_downstreamTagGrant]
    exact answerStep_some (by rw [hgrant])
  refine ⟨_, hrow, hclass, ?_, ?_, ⟨packetOf x job s, ?_, htag, hdomain, hmask, ?_⟩, hlower, ?_, ?_, ?_, fun c => ?_⟩
  · rw [finish_tagWaits, hgrant]
  · rw [finish_outstanding, hgrant]
  · rw [finish_offers, hgrant]
  · clear hgrant hrow
    cases job with
    | fill serial line => exact ⟨rfl, tagLineAddress_eq s line, rfl⟩
    | writeBack key line => exact ⟨rfl, tagLineAddress_eq s line, fun v hv => by simp only [packetOf, hv]⟩
    | formatLine line =>
      exact ⟨rfl, tagLineAddress_eq s line, fun T hT => by simp only [packetOf, formatQuad_eq hT]⟩
    | zeroLine u i => exact ⟨rfl, rfl, fun z hz => by simp only [packetOf, hz]; rfl⟩
    | harvest c => exact packetOf_harvest x c s
  · rw [finish_heldTags, hgrant]
  · rw [finish_inFlight, hgrant]
  · rw [finish_ways, hgrant]
  · rw [chan_finish, hgrant]; rfl

end Sys2Proof.Machine
end

section
/-!
PROOFS. What no engine of the part changes: the tags held after a timeout (R12), which only the rows of the timeout, of the
release and of a stale completion write.  One lemma per operation, in the order of the model's files; those of the
shared operations stand in Laws/State, Laws/Steps and Laws/Frames.
-/

namespace Sys2Proof.Machine

variable (s : State)

/-- An operation holds no tag and frees none (R12). -/
def KeepsHeld (f : State → State) : Prop := ∀ s, (f s).heldTags = s.heldTags

@[simp] theorem keepsHeld_iff (f : State → State) : KeepsHeld f ↔ ∀ s, (f s).heldTags = s.heldTags := Iff.rfl

theorem heldTags_foldl {α : Type} {f : State → α → State} (h : ∀ x, KeepsHeld (f · x)) (l : List α) :
    (l.foldl f s).heldTags = s.heldTags := by
  induction l generalizing s with
  | nil => rfl
  | cons x l ih => rw [List.foldl_cons, ih]; exact h x s

/-! ### Notices, violations and responses (Flags) -/

@[simp] theorem fenceTest_heldTags (d : Nat) : (fenceTest d s).heldTags = s.heldTags := by
  unfold fenceTest
  dsimp only
  split <;> simp

@[simp] theorem decideFor_heldTags (r : Request) (status : Status) (data : Line) :
    (decideFor r status data s).heldTags = s.heldTags := by
  simp [decideFor]

@[simp] theorem answer_heldTags (r : Request) (status : Status) : (answer r status s).heldTags = s.heldTags := by
  simp [answer]

/-! ### The downstream port -/

@[simp] theorem keepJobs_heldTags (keep : OwnJob → Bool) : (keepJobs keep s).heldTags = s.heldTags := by
  simp [keepJobs]

/-! ### The Tag Cache and the Fill Table -/

@[simp] theorem writeBackMore_heldTags (failed : List Nat) : (writeBackMore failed s).heldTags = s.heldTags := by
  simp [writeBackMore]

@[simp] theorem dropGrantsOf_heldTags (g : Nat) : (dropGrantsOf g s).heldTags = s.heldTags := by
  simp [dropGrantsOf, heldTags_foldl]

@[simp] theorem listPoison_heldTags (g : Nat) (owner : Option Nat) (cause : PoisonCause) :
    (listPoison g owner cause s).heldTags = s.heldTags := by
  unfold listPoison
  (repeat' split) <;> simp

@[simp] theorem poisonTables_heldTags (g : Nat) (owner : Option Nat) (cause : PoisonCause) :
    (poisonTables g owner cause s).heldTags = s.heldTags := by
  simp [poisonTables]

@[simp] theorem poisonNow_heldTags (g : Nat) (cause : PoisonCause) : (poisonNow g cause s).heldTags = s.heldTags := by
  unfold poisonNow
  split <;> simp

@[simp] theorem unlistPoison_heldTags (g : Nat) : (unlistPoison g s).heldTags = s.heldTags := by
  simp [unlistPoison]

@[simp] theorem countCorrected_heldTags (g : Nat) : (countCorrected g s).heldTags = s.heldTags := by
  unfold countCorrected
  dsimp only
  split <;> simp

@[simp] theorem meetHold_heldTags (g : Nat) : (meetHold g s).heldTags = s.heldTags := by
  unfold meetHold
  split <;> simp

@[simp] theorem stateLost_heldTags (g : Nat) (owner : Option Nat) : (stateLost g owner s).heldTags = s.heldTags := by
  simp [stateLost]

@[simp] theorem ownerLost_heldTags (g : Nat) : (ownerLost g s).heldTags = s.heldTags := by
  simp [ownerLost]

@[simp] theorem checkRecord_heldTags (g : Nat) (rd : RecordRead) :
    (checkRecord g rd s).2.2.heldTags = s.heldTags := by
  unfold checkRecord
  split <;> simp

@[simp] theorem checkLine_heldTags (line : Nat) (d : RecordRead × RecordRead × RecordRead × RecordRead) :
    (checkLine line d s).2.2.heldTags = s.heldTags := by
  simp [checkLine]

@[simp] theorem installLine_heldTags (f : Fill) (way : Nat) (d : RecordRead × RecordRead × RecordRead × RecordRead) :
    (installLine f way d s).heldTags = s.heldTags := by
  rw [← checkLine_heldTags s f.line d]
  simp [installLine]

/-! ### Commands -/

@[simp] theorem idleSlot_heldTags (k : Nat) : (idleSlot k s).heldTags = s.heldTags := by
  unfold idleSlot
  dsimp only
  split <;> simp

theorem lookup_heldTags {g : Nat} {r : TagRecord} {t : State} (h : lookup g s = some (r, t)) :
    t.heldTags = s.heldTags := by
  unfold lookup at h
  split at h <;> simp at h
  rw [← h.2]
  simp

@[simp] theorem withRecord_heldTags (c g : Nat) (k : TagRecord → State → State)
    (h : ∀ r, KeepsHeld (k r)) : (withRecord c g k s).heldTags = s.heldTags := by
  unfold withRecord
  split
  · rename_i hl
    rw [← lookup_heldTags s hl]
    exact h _ _
  · simp

/-! ### Scrub Units and poisonings -/

@[simp] theorem tryEndScrub_heldTags (c : Nat) : (tryEndScrub c s).heldTags = s.heldTags := by
  unfold tryEndScrub
  (repeat' split) <;> simp

@[simp] theorem poisonMade_heldTags (src : PoisonSource) : (poisonMade src s).heldTags = s.heldTags := by
  unfold poisonMade
  (repeat' split) <;> simp

@[simp] theorem orderPoison_heldTags (g : Nat) (cause : PoisonCause) (src : PoisonSource) :
    (orderPoison g cause src s).heldTags = s.heldTags := by
  unfold orderPoison
  split <;> simp

@[simp] theorem setPoisonWait_heldTags (p : PendingPoison) (w : Wait) :
    (setPoisonWait p w s).heldTags = s.heldTags := by
  simp [setPoisonWait]

@[simp] theorem poisonStep_heldTags (p : PendingPoison) : (poisonStep p s).heldTags = s.heldTags := by
  unfold poisonStep
  split
  · simp [lookup_heldTags s ‹lookup _ _ = _›]
  · split <;> simp

@[simp] theorem haltUnit_heldTags (u : Nat) : (haltUnit u s).heldTags = s.heldTags := by
  unfold haltUnit
  split <;> simp

@[simp] theorem settleUnit_heldTags (u : Nat) : (settleUnit u s).heldTags = s.heldTags := by
  unfold settleUnit
  dsimp only
  (repeat' split) <;> simp

@[simp] theorem zeroWriteEnded_heldTags (u : Nat) (ok : Bool) : (zeroWriteEnded u ok s).heldTags = s.heldTags := by
  unfold zeroWriteEnded
  dsimp only
  (repeat' split) <;> simp

@[simp] theorem haltUnitsOf_heldTags (c : Nat) : (haltUnitsOf c s).heldTags = s.heldTags := by
  simp [haltUnitsOf, heldTags_foldl]

/-! ### Granule operations -/

@[simp] theorem doAssign_heldTags (c : Nat) (b : Line) : (doAssign c b s).heldTags = s.heldTags := by
  unfold doAssign
  dsimp only
  (repeat' split) <;> simp

@[simp] theorem doRelease_heldTags (c : Nat) (b : Line) : (doRelease c b s).heldTags = s.heldTags := by
  unfold doRelease
  dsimp only
  (repeat' split) <;> simp

@[simp] theorem doRestore_heldTags (c : Nat) (b : Line) : (doRestore c b s).heldTags = s.heldTags := by
  unfold doRestore
  split <;> simp

@[simp] theorem doQueryGranules_heldTags (c : Nat) (b : Line) : (doQueryGranules c b s).heldTags = s.heldTags := by
  unfold doQueryGranules
  split <;> simp

@[simp] theorem revokeAllOf_heldTags (d : Nat) : (revokeAllOf d s).heldTags = s.heldTags := by
  simp [revokeAllOf]

@[simp] theorem beginClearance_heldTags (c d : Nat) : (beginClearance c d s).heldTags = s.heldTags := by
  simp [beginClearance, heldTags_foldl]

@[simp] theorem doRetire_heldTags (c : Nat) (b : Line) : (doRetire c b s).heldTags = s.heldTags := by
  unfold doRetire
  dsimp only
  (repeat' split) <;> simp

@[simp] theorem startGranuleDrain_heldTags (c g : Nat) : (startGranuleDrain c g s).heldTags = s.heldTags := by
  unfold startGranuleDrain
  dsimp only
  split <;> simp

@[simp] theorem nextGranule_heldTags (c : Nat) (w : Work) : (nextGranule c w s).heldTags = s.heldTags := by
  simp [nextGranule]

@[simp] theorem assignVisit_heldTags (c d g : Nat) (keep : Bool) (r : TagRecord) :
    (assignVisit c d g keep r s).heldTags = s.heldTags := by
  unfold assignVisit
  split <;> simp

@[simp] theorem releaseVisit_heldTags (c d g : Nat) (r : TagRecord) :
    (releaseVisit c d g r s).heldTags = s.heldTags := by
  unfold releaseVisit
  split <;> simp

@[simp] theorem restoreVisit_heldTags (c g : Nat) (r : TagRecord) : (restoreVisit c g r s).heldTags = s.heldTags := by
  unfold restoreVisit
  split <;> simp

@[simp] theorem dropRequestOf_heldTags (d : Nat) : (dropRequestOf d s).heldTags = s.heldTags := by
  unfold dropRequestOf
  dsimp only
  (repeat' split) <;> simp

@[simp] theorem retireComplete_heldTags (c : Nat) (r : RetireWork) (left : Nat) :
    (retireComplete c r left s).heldTags = s.heldTags := by
  simp [retireComplete]

@[simp] theorem retireWalk_heldTags (c : Nat) (r : RetireWork) : (retireWalk c r s).heldTags = s.heldTags := by
  simp [retireWalk]

@[simp] theorem retireOwned_heldTags (c : Nat) (r : RetireWork) (rec : TagRecord) :
    (retireOwned c r rec s).heldTags = s.heldTags := by
  unfold retireOwned
  dsimp only
  (repeat' split) <;> simp

@[simp] theorem retireVisit_heldTags (c : Nat) (r : RetireWork) (rec : TagRecord) :
    (retireVisit c r rec s).heldTags = s.heldTags := by
  unfold retireVisit
  split <;> simp

@[simp] theorem retireStep_heldTags (c : Nat) (r : RetireWork) : (retireStep c r s).heldTags = s.heldTags := by
  unfold retireStep
  (repeat' split) <;> simp

@[simp] theorem visitStep_heldTags (c : Nat) (a : Active) : (visitStep c a s).heldTags = s.heldTags := by
  unfold visitStep
  (repeat' split) <;> simp

@[simp] theorem notePoisoned_heldTags (c : Nat) (w : Work) (r : TagRecord) :
    (notePoisoned c w r s).heldTags = s.heldTags := by
  unfold notePoisoned
  (repeat' split) <;> simp

@[simp] theorem ownedDown_heldTags (d : Nat) : (ownedDown d s).heldTags = s.heldTags := by
  simp [ownedDown]

@[simp] theorem finishGranule_heldTags (c g : Nat) (w : Work) (r : TagRecord) :
    (finishGranule c g w r s).heldTags = s.heldTags := by
  unfold finishGranule
  (repeat' split) <;> simp

@[simp] theorem afterDrain_heldTags (c : Nat) (a : Active) (r : TagRecord) :
    (afterDrain c a r s).heldTags = s.heldTags := by
  unfold afterDrain
  dsimp only
  (repeat' split) <;> simp

@[simp] theorem afterZero_heldTags (c : Nat) (a : Active) (r : TagRecord) :
    (afterZero c a r s).heldTags = s.heldTags := by
  unfold afterZero
  dsimp only
  split <;> simp

@[simp] theorem undoRecord_heldTags (c g : Nat) (w : Work) (r : TagRecord) :
    (undoRecord c g w r s).heldTags = s.heldTags := by
  unfold undoRecord
  (repeat' split) <;> simp

@[simp] theorem undoStep_heldTags (c : Nat) (a : Active) : (undoStep c a s).heldTags = s.heldTags := by
  simp [undoStep]

@[simp] theorem pendingUndoStep_heldTags (c : Nat) (u : PendingUndo) :
    (pendingUndoStep c u s).heldTags = s.heldTags := by
  unfold pendingUndoStep
  split
  · simp [lookup_heldTags s ‹lookup _ _ = _›]
  · split <;> simp

/-! ### Tracking -/

@[simp] theorem doTrackStart_heldTags (c : Nat) (b : Line) : (doTrackStart c b s).heldTags = s.heldTags := by
  unfold doTrackStart
  dsimp only
  (repeat' split) <;> simp

@[simp] theorem trackStartDone_heldTags (c k f n cleared : Nat) :
    (trackStartDone c k f n cleared s).heldTags = s.heldTags := by
  simp [trackStartDone]

@[simp] theorem trackStartRecord_heldTags (c k d f n done cleared : Nat) (r : TagRecord) :
    (trackStartRecord c k d f n done cleared r s).heldTags = s.heldTags := by
  unfold trackStartRecord
  dsimp only
  (repeat' split) <;> simp

@[simp] theorem trackStartStep_heldTags (c : Nat) (k d f n done cleared : Nat) :
    (trackStartStep c k d f n done cleared s).heldTags = s.heldTags := by
  unfold trackStartStep
  (repeat' split) <;> simp

@[simp] theorem doTrackCollect_heldTags (c : Nat) (b : Line) : (doTrackCollect c b s).heldTags = s.heldTags := by
  unfold doTrackCollect
  dsimp only
  (repeat' split) <;> simp

@[simp] theorem collectDone_heldTags (c : Nat) (k : CollectWork) : (collectDone c k s).heldTags = s.heldTags := by
  simp [collectDone]

@[simp] theorem startGroup_heldTags (c : Nat) (k : CollectWork) : (startGroup c k s).heldTags = s.heldTags := by
  simp [startGroup]

@[simp] theorem collectBuffer_heldTags (c : Nat) (k : CollectWork) (r : TagRecord) :
    (collectBuffer c k r s).heldTags = s.heldTags := by
  unfold collectBuffer
  dsimp only
  (repeat' split) <;> simp

@[simp] theorem collectRecord_heldTags (c : Nat) (k : CollectWork) (g : Nat) (r : TagRecord) :
    (collectRecord c k g r s).heldTags = s.heldTags := by
  unfold collectRecord
  dsimp only
  split <;> simp

@[simp] theorem harvestIssue_heldTags (c : Nat) : (harvestIssue c s).heldTags = s.heldTags := by
  simp [harvestIssue]

@[simp] theorem collectStep_heldTags (c : Nat) (k : CollectWork) : (collectStep c k s).heldTags = s.heldTags := by
  unfold collectStep
  (repeat' split) <;> simp

@[simp] theorem harvestEnded_heldTags (c : Nat) (ok : Bool) : (harvestEnded c ok s).heldTags = s.heldTags := by
  unfold harvestEnded
  dsimp only
  (repeat' split) <;> simp

@[simp] theorem stopCollect_heldTags (c : Nat) (r : Result) : (stopCollect c r s).heldTags = s.heldTags := by
  unfold stopCollect
  dsimp only
  split <;> simp

@[simp] theorem releaseSlot_heldTags (k : Nat) : (releaseSlot k s).heldTags = s.heldTags := by
  unfold releaseSlot
  dsimp only
  split <;> simp

/-! ### Grants and guest requests -/

@[simp] theorem moveGrant_heldTags (i : Nat) (g : Grant) : (moveGrant i g s).heldTags = s.heldTags := by
  simp [moveGrant]

@[simp] theorem doRevokeGrant_heldTags (c : Nat) (b : Line) : (doRevokeGrant c b s).heldTags = s.heldTags := by
  unfold doRevokeGrant
  dsimp only
  (repeat' split) <;> simp

@[simp] theorem revokeDone_heldTags (c : Nat) (r : RevokeWork) (mine : Bool) :
    (revokeDone c r mine s).heldTags = s.heldTags := by
  simp [revokeDone]

@[simp] theorem revokeStep_heldTags (c : Nat) (r : RevokeWork) : (revokeStep c r s).heldTags = s.heldTags := by
  unfold revokeStep
  split <;> simp

@[simp] theorem retireRemoval_heldTags (c : Nat) (r : RetireWork) : (retireRemoval c r s).heldTags = s.heldTags := by
  unfold retireRemoval
  (repeat' split) <;> simp

@[simp] theorem retireRemovalFailed_heldTags (c : Nat) (r : RetireWork) :
    (retireRemovalFailed c r s).heldTags = s.heldTags := by
  simp [retireRemovalFailed]

@[simp] theorem setRevocation_heldTags (todo : List (Nat × Nat)) (drained : Bool) (w : Wait) :
    (setRevocation todo drained w s).heldTags = s.heldTags := by
  simp [setRevocation]

@[simp] theorem resumption_heldTags (w : WarmReset) : (resumption w s).heldTags = s.heldTags := by
  unfold resumption
  dsimp only
  rw [respond_heldTags, heldTags_foldl]
  intro c s
  dsimp only
  (repeat' split) <;> simp

@[simp] theorem revocationStep_heldTags (w : WarmReset) (todo : List (Nat × Nat)) (done : Bool) :
    (revocationStep w todo done s).heldTags = s.heldTags := by
  unfold revocationStep
  dsimp only
  cases todo with
  | nil => simp
  | cons x rest =>
    dsimp only
    split
    · simp
    · split
      · split
        · simp [lookup_heldTags s ‹lookup _ _ = _›]
        · simp
      · split <;> simp

@[simp] theorem revocationFailed_heldTags : (revocationFailed s).heldTags = s.heldTags := by
  unfold revocationFailed
  split <;> simp

@[simp] theorem withRequestRecord_heldTags (g : Nat) (k : TagRecord → State → State)
    (h : ∀ r, KeepsHeld (k r)) : (withRequestRecord g k s).heldTags = s.heldTags := by
  unfold withRequestRecord
  split
  · rename_i hl
    rw [← lookup_heldTags s hl]
    exact h _ _
  · simp

@[simp] theorem offerGrant_heldTags (i : Nat) (x : GuestRequest) (r : TagRecord) :
    (offerGrant i x r s).heldTags = s.heldTags := by
  simp [offerGrant]

@[simp] theorem offerStep_heldTags (x : GuestRequest) (r : TagRecord) : (offerStep x r s).heldTags = s.heldTags := by
  unfold offerStep
  (repeat' split) <;> simp

@[simp] theorem pinStep_heldTags (x : GuestRequest) (pinned : Bool) (r : TagRecord) :
    (pinStep x pinned r s).heldTags = s.heldTags := by
  unfold pinStep
  (repeat' split) <;> simp

@[simp] theorem queryStep_heldTags (x : GuestRequest) (r : TagRecord) : (queryStep x r s).heldTags = s.heldTags := by
  unfold queryStep
  (repeat' split) <;> simp

@[simp] theorem withdrawStart_heldTags (x : GuestRequest) : (withdrawStart x s).heldTags = s.heldTags := by
  unfold withdrawStart
  (repeat' split) <;> simp

@[simp] theorem withdrawRemoval_heldTags (i serial : Nat) : (withdrawRemoval i serial s).heldTags = s.heldTags := by
  unfold withdrawRemoval
  split <;> simp

@[simp] theorem requestStep_heldTags : (requestStep s).heldTags = s.heldTags := by
  unfold requestStep
  (repeat' split) <;> simp

@[simp] theorem startRequest_heldTags (x : GuestRequest) : (startRequest x s).heldTags = s.heldTags := by
  unfold startRequest
  split <;> simp

/-! ### FORMAT and FLUSH_TAGS -/

@[simp] theorem doFormat_heldTags (c : Nat) (b : Line) : (doFormat c b s).heldTags = s.heldTags := by
  unfold doFormat
  dsimp only
  (repeat' split) <;> simp

@[simp] theorem formatComplete_heldTags (c : Nat) : (formatComplete c s).heldTags = s.heldTags := by
  simp [formatComplete]

@[simp] theorem formatStep_heldTags (c : Nat) (a : Active) (base next : Nat) (lowest : Option Nat) :
    (formatStep c a base next lowest s).heldTags = s.heldTags := by
  unfold formatStep
  dsimp only
  (repeat' split) <;> simp [heldTags_foldl]

@[simp] theorem formatStop_heldTags (c : Nat) (r : Result) : (formatStop c r s).heldTags = s.heldTags := by
  unfold formatStop
  split <;> simp

@[simp] theorem formatWriteEnded_heldTags (line : Nat) (ok : Bool) :
    (formatWriteEnded line ok s).heldTags = s.heldTags := by
  unfold formatWriteEnded
  (repeat' split) <;> simp

@[simp] theorem doFlushTags_heldTags (c : Nat) (b : Line) : (doFlushTags c b s).heldTags = s.heldTags := by
  simp [doFlushTags]

@[simp] theorem flushStep_heldTags (c : Nat) (a : Active) (x : FlushWork) :
    (flushStep c a x s).heldTags = s.heldTags := by
  unfold flushStep
  dsimp only
  (repeat' split) <;> simp

@[simp] theorem inheritWrites_heldTags (lines : List Nat) (c : Nat) :
    (inheritWrites lines s c).heldTags = s.heldTags := by
  unfold inheritWrites
  split <;> simp

@[simp] theorem flushStop_heldTags (c : Nat) (r : Result) (x : FlushWork) :
    (flushStop c r x s).heldTags = s.heldTags := by
  simp [flushStop, heldTags_foldl]

@[simp] theorem flushCount_heldTags (line : Nat) (ok : Bool) (c : Nat) :
    (flushCount line ok c s).heldTags = s.heldTags := by
  unfold flushCount
  (repeat' split) <;> simp

@[simp] theorem flushEnded_heldTags (line : Nat) (ok : Bool) : (flushEnded line ok s).heldTags = s.heldTags := by
  simp [flushEnded, heldTags_foldl]

/-! ### Control commands -/

@[simp] theorem doCreate_heldTags (c : Nat) (b : Line) : (doCreate c b s).heldTags = s.heldTags := by
  unfold doCreate
  dsimp only
  (repeat' split) <;> simp

@[simp] theorem moveDomain_heldTags (c : Nat) (b : Line) (old new : DState) (clear : Bool) :
    (moveDomain c b old new clear s).heldTags = s.heldTags := by
  unfold moveDomain
  dsimp only
  (repeat' split) <;> simp

@[simp] theorem doStart_heldTags (c : Nat) (b : Line) : (doStart c b s).heldTags = s.heldTags := by
  simp [doStart]

@[simp] theorem doPause_heldTags (c : Nat) (b : Line) : (doPause c b s).heldTags = s.heldTags := by
  simp [doPause]

@[simp] theorem doResume_heldTags (c : Nat) (b : Line) : (doResume c b s).heldTags = s.heldTags := by
  simp [doResume]

@[simp] theorem doUnfence_heldTags (c : Nat) (b : Line) : (doUnfence c b s).heldTags = s.heldTags := by
  simp [doUnfence]

@[simp] theorem doSetQuota_heldTags (c : Nat) (b : Line) : (doSetQuota c b s).heldTags = s.heldTags := by
  unfold doSetQuota
  dsimp only
  (repeat' split) <;> simp

@[simp] theorem doSetFence_heldTags (c : Nat) (b : Line) : (doSetFence c b s).heldTags = s.heldTags := by
  unfold doSetFence
  dsimp only
  (repeat' split) <;> simp

@[simp] theorem doClearDomainCounters_heldTags (c : Nat) (b : Line) :
    (doClearDomainCounters c b s).heldTags = s.heldTags := by
  unfold doClearDomainCounters
  dsimp only
  split <;> simp

@[simp] theorem doDomainStatus_heldTags (c : Nat) (b : Line) : (doDomainStatus c b s).heldTags = s.heldTags := by
  unfold doDomainStatus
  split <;> simp

@[simp] theorem doActivateGrant_heldTags (c : Nat) (b : Line) : (doActivateGrant c b s).heldTags = s.heldTags := by
  unfold doActivateGrant
  dsimp only
  (repeat' split) <;> simp

@[simp] theorem doGrantRead_heldTags (c : Nat) (b : Line) : (doGrantRead c b s).heldTags = s.heldTags := by
  unfold doGrantRead
  dsimp only
  (repeat' split) <;> simp

@[simp] theorem doTrackStop_heldTags (c : Nat) (b : Line) : (doTrackStop c b s).heldTags = s.heldTags := by
  unfold doTrackStop
  dsimp only
  (repeat' split) <;> simp

@[simp] theorem doTrackStatus_heldTags (c : Nat) (b : Line) : (doTrackStatus c b s).heldTags = s.heldTags := by
  unfold doTrackStatus
  split <;> simp

@[simp] theorem doViolationPop_heldTags (c : Nat) (b : Line) : (doViolationPop c b s).heldTags = s.heldTags := by
  unfold doViolationPop
  split <;> simp

@[simp] theorem doNoticeConfig_heldTags (c : Nat) (b : Line) : (doNoticeConfig c b s).heldTags = s.heldTags := by
  unfold doNoticeConfig
  dsimp only
  split <;> simp

@[simp] theorem doNoticeClear_heldTags (c : Nat) (b : Line) : (doNoticeClear c b s).heldTags = s.heldTags := by
  unfold doNoticeClear
  dsimp only
  (repeat' split) <;> simp [heldTags_foldl]

@[simp] theorem doNoticeStatus_heldTags (c : Nat) (b : Line) : (doNoticeStatus c b s).heldTags = s.heldTags := by
  simp [doNoticeStatus]

@[simp] theorem moveRegion_heldTags (c : Nat) (b : Line) (new : RegionState) :
    (moveRegion c b new s).heldTags = s.heldTags := by
  unfold moveRegion
  dsimp only
  (repeat' split) <;> simp

@[simp] theorem doRegionClear_heldTags (c : Nat) (b : Line) : (doRegionClear c b s).heldTags = s.heldTags := by
  simp [doRegionClear]

@[simp] theorem doRegionLockdown_heldTags (c : Nat) (b : Line) : (doRegionLockdown c b s).heldTags = s.heldTags := by
  simp [doRegionLockdown]

@[simp] theorem doFreeze_heldTags (c : Nat) (b : Line) : (doFreeze c b s).heldTags = s.heldTags := by
  simp [doFreeze]

@[simp] theorem doSetFaultPolicy_heldTags (c : Nat) (b : Line) : (doSetFaultPolicy c b s).heldTags = s.heldTags := by
  unfold doSetFaultPolicy
  dsimp only
  (repeat' split) <;> simp

@[simp] theorem doContain_heldTags (c : Nat) (b : Line) : (doContain c b s).heldTags = s.heldTags := by
  unfold doContain
  split <;> simp

@[simp] theorem doResumePart_heldTags (c : Nat) (b : Line) : (doResumePart c b s).heldTags = s.heldTags := by
  unfold doResumePart
  (repeat' split) <;> simp

@[simp] theorem doPartStatus_heldTags (c : Nat) (b : Line) : (doPartStatus c b s).heldTags = s.heldTags := by
  simp [doPartStatus]

@[simp] theorem doAckIntegrity_heldTags (c : Nat) (b : Line) : (doAckIntegrity c b s).heldTags = s.heldTags := by
  simp [doAckIntegrity]

@[simp] theorem doClearIntegrityCount_heldTags (c : Nat) (b : Line) :
    (doClearIntegrityCount c b s).heldTags = s.heldTags := by
  simp [doClearIntegrityCount]

@[simp] theorem doSetCorrectedLimit_heldTags (c : Nat) (b : Line) :
    (doSetCorrectedLimit c b s).heldTags = s.heldTags := by
  unfold doSetCorrectedLimit
  dsimp only
  (repeat' split) <;> simp

@[simp] theorem doPoisonRead_heldTags (c : Nat) (b : Line) : (doPoisonRead c b s).heldTags = s.heldTags := by
  unfold doPoisonRead
  dsimp only
  (repeat' split) <;> simp

@[simp] theorem stopCommand_heldTags (c : Nat) : (stopCommand c s).heldTags = s.heldTags := by
  unfold stopCommand
  (repeat' split) <;> simp

@[simp] theorem requestStop_heldTags (c : Nat) : (requestStop c s).heldTags = s.heldTags := by
  unfold requestStop
  dsimp only
  split <;> simp

@[simp] theorem doAbort_heldTags (c : Nat) (b : Line) : (doAbort c b s).heldTags = s.heldTags := by
  unfold doAbort
  dsimp only
  (repeat' split) <;> simp

@[simp] theorem doResetEngines_heldTags (c : Nat) (b : Line) : (doResetEngines c b s).heldTags = s.heldTags := by
  simp [doResetEngines, heldTags_foldl]

/-! ### The engine -/

@[simp] theorem doRegionSet_heldTags (c : Nat) (b : Line) : (doRegionSet c b s).heldTags = s.heldTags := by
  unfold doRegionSet
  dsimp only
  split <;> simp

@[simp] theorem regionVisit_heldTags (c i f n : Nat) (noAccess : Bool) (done : Nat) (r : TagRecord) :
    (regionVisit c i f n noAccess done r s).heldTags = s.heldTags := by
  unfold regionVisit
  (repeat' split) <;> simp

@[simp] theorem chanStep_heldTags (c : Nat) (a : Active) : (chanStep c a s).heldTags = s.heldTags := by
  unfold chanStep
  (repeat' split) <;> simp

@[simp] theorem runCommand_heldTags (cmd : Cmd) (c : Nat) (b : Line) :
    (runCommand cmd c b s).heldTags = s.heldTags := by
  unfold runCommand
  split <;> simp

@[simp] theorem takeCommand_heldTags (cmd : Cmd) (c : Nat) (b : Line) :
    (takeCommand cmd c b s).heldTags = s.heldTags := by
  unfold takeCommand
  dsimp only
  (repeat' split) <;> simp

@[simp] theorem retakeStep_heldTags (c : Nat) : (retakeStep c s).heldTags = s.heldTags := by
  unfold retakeStep
  (repeat' split) <;> simp

@[simp] theorem stepBegins_heldTags (c : Nat) (a : Active) : (stepBegins c a s).heldTags = s.heldTags := by
  unfold stepBegins
  split <;> simp

@[simp] theorem runJob_heldTags (j : Job) : (runJob j s).heldTags = s.heldTags := by
  unfold runJob
  (repeat' split) <;> simp

@[simp] theorem runLoop_heldTags (n : Nat) : (runLoop n s).heldTags = s.heldTags := by
  induction n generalizing s with
  | zero => rfl
  | succ n ih => unfold runLoop; split <;> simp [ih]

@[simp] theorem settle_heldTags : (settle s).heldTags = s.heldTags := runLoop_heldTags s _

/-! ### Ends of own requests and stages -/

@[simp] theorem resumeChannel_heldTags (line : Nat) (c : Nat) : (resumeChannel line s c).heldTags = s.heldTags := by
  simp [resumeChannel]

@[simp] theorem resumeLine_heldTags (line : Nat) : (resumeLine line s).heldTags = s.heldTags := by
  simp [resumeLine, heldTags_foldl]

@[simp] theorem tryLand_heldTags (serial : Nat) : (tryLand serial s).heldTags = s.heldTags := by
  unfold tryLand
  (repeat' split) <;> simp

@[simp] theorem commandFillFailed_heldTags (line : Nat) (c : Nat) :
    (commandFillFailed line s c).heldTags = s.heldTags := by
  unfold commandFillFailed
  (repeat' split) <;> simp

@[simp] theorem undoFillFailed_heldTags (line : Nat) (c : Nat) : (undoFillFailed line s c).heldTags = s.heldTags := by
  unfold undoFillFailed
  (repeat' split) <;> simp

@[simp] theorem stepsFailed_heldTags (line : Nat) : (stepsFailed line s).heldTags = s.heldTags := by
  unfold stepsFailed
  dsimp only
  (repeat' split) <;> simp [heldTags_foldl]

@[simp] theorem failFill_heldTags (serial : Nat) : (failFill serial s).heldTags = s.heldTags := by
  unfold failFill
  dsimp only
  (repeat' split) <;> simp [heldTags_foldl]

@[simp] theorem beginRevocation_heldTags (w : WarmReset) : (beginRevocation w s).heldTags = s.heldTags := by
  simp [beginRevocation]

@[simp] theorem writeBackStages_heldTags : (writeBackStages s).heldTags = s.heldTags := by
  unfold writeBackStages
  dsimp only
  (repeat' split) <;> simp

@[simp] theorem noteWriteEnded_heldTags (line : Nat) (ok : Bool) :
    (noteWriteEnded line ok s).heldTags = s.heldTags := by
  simp [noteWriteEnded]

@[simp] theorem writeBackOk_heldTags (key line : Nat) (changed : Bool) :
    (writeBackOk key line changed s).heldTags = s.heldTags := by
  unfold writeBackOk
  (repeat' split) <;> simp

@[simp] theorem writeBackDone_heldTags (key line : Nat) (changed ok : Bool) :
    (writeBackDone key line changed ok s).heldTags = s.heldTags := by
  unfold writeBackDone
  dsimp only
  (repeat' split) <;> simp

@[simp] theorem jobEnded_heldTags (o : Outstanding) (ok : Bool) : (jobEnded o ok s).heldTags = s.heldTags := by
  unfold jobEnded
  split <;> simp

end Sys2Proof.Machine
end

section
/-!
PROOFS. Own requests that time out (R12): O28.
-/

namespace Sys2Proof.Machine

/-! ### Own requests that time out (R12) -/

/-- Time leaves the request outstanding under a tag, but for its timer. -/
theorem outstandingAt_elapse {s : State} {tag : Nat} {o : Outstanding} (h : outstandingAt s tag = some o) (d : Nat) :
    ∃ o', outstandingAt (elapse d s) tag = some o' ∧ o'.job = o.job ∧ o'.changed = o.changed := by
  refine ⟨{ o with timer := min (o.timer + d) (jobTimeout o.job) }, ?_, rfl, rfl⟩
  rw [outstandingAt] at h
  rw [outstandingAt, elapse, List.find?_map]
  exact congrArg (Option.map _) h

/-- Time changes timers only (R10, R12, R80). -/
theorem sameButTimers_elapse (d : Nat) (s : State) : SameButTimers s (elapse d s) := by
  refine ⟨elapse_frame d s, ?_, ?_, ?_⟩ <;> simp [elapse, Function.comp_def]

/-- The end of a request is told to its engine by its job and its changed mark alone. -/
theorem jobEnded_congr {o o' : Outstanding} (hj : o'.job = o.job) (hc : o'.changed = o.changed) (ok : Bool)
    (s : State) :
    jobEnded o' ok s = jobEnded o ok s := by
  rw [jobEnded, jobEnded, hj, hc]

/-- The row of an ERROR completion of an outstanding own request, of whatever class: its tag is freed and its engine is
told of a failure (R11, R36, R46, R49, R127, R161). -/
theorem exec_errorRow {s : State} {tag : Fin 1024} {o : Outstanding} (h : outstandingAt s tag.val = some o) :
    exec (errorRow o.job tag) s = answerStep s (some (settle (jobEnded o false (retireTag tag.val s)))) := by
  obtain ⟨x, job, changed, timer⟩ := o
  have hwrite : ∀ cls, jobClass job = cls → cls ≠ .fill → writeCompletion cls tag.val .error s =
      some (settle (jobEnded ⟨x, job, changed, timer⟩ false (retireTag tag.val s))) := by
    intro cls hcls hfill
    simp only [writeCompletion, h, hcls, hfill, ne_eq, not_false_eq_true, and_self, if_true]
    rfl
  cases job with
  | fill serial line =>
    simp only [errorRow, exec_fillReadCompletion, fillCompletion, h, jobEnded]
  | writeBack key line => exact congrArg (answerStep s) (hwrite .writeBack rfl (by decide))
  | formatLine line => exact congrArg (answerStep s) (hwrite .formatWrite rfl (by decide))
  | zeroLine u line => exact congrArg (answerStep s) (hwrite .zeroWrite rfl (by decide))
  | harvest c => exact congrArg (answerStep s) (hwrite .harvestWrite rfl (by decide))

/-- The end of a row looks at the state before it for the requests produced alone. -/
theorem answerStep_some_congr {s s' : State} (h : s'.produced = s.produced) (t : State) :
    answerStep s' (some t) = answerStep s (some t) := by
  simp only [answerStep, issueProduced, producedJobs, h]

/-- OWN_REQUEST_TIMEOUT (R12). -/
theorem ownRequestTimeout_holds (tag : Fin 1024) (s : State) (o : Outstanding)
    (ho : outstandingAt s tag.val = some o) :
    ∃ t, exec (.ownRequestTimeout tag) s = .next t ∧ (∃ h ∈ t.heldTags, h.tag = tag.val) ∧
      ∃ s', SameButTimers s s' ∧
        exec (errorRow o.job tag) { s' with heldTags := s'.heldTags ++ [{ tag := tag.val, timer := 0 }] } = .next t := by
  obtain ⟨s', hs'⟩ : ∃ s', s' = elapse (jobTimeout o.job - o.timer) s := ⟨_, rfl⟩
  obtain ⟨u, hu⟩ : ∃ u, u = settle (jobEnded o false (retireTag tag.val (holdTag tag.val s'))) := ⟨_, rfl⟩
  have htimeout : exec (.ownRequestTimeout tag) s = .next (finish (issueProduced s u)) := by
    rw [exec_ownRequestTimeout]
    simp only [ownTimeout, ho, hu, hs', answerStep]
    rfl
  refine ⟨_, htimeout, ⟨{ tag := tag.val, timer := 0 }, ?_, rfl⟩, s', by rw [hs']; exact sameButTimers_elapse _ s, ?_⟩
  · simp [hu, holdTag]
  · obtain ⟨o', hat, hjob, hchanged⟩ := outstandingAt_elapse ho (jobTimeout o.job - o.timer)
    rw [← hs'] at hat
    have hrow := exec_errorRow (s := holdTag tag.val s') hat
    rw [hjob, jobEnded_congr hjob hchanged, ← hu] at hrow
    exact hrow.trans (answerStep_some_congr (by rw [hs']; rfl) u)

/-- HELD_TAG_RELEASE of a held tag (R12). -/
theorem heldTagRelease_frees (tag : Fin 1024) (s : State) (hheld : ∃ h ∈ s.heldTags, h.tag = tag.val) :
    ∃ t, exec (.heldTagRelease tag) s = .next t ∧ (∀ h ∈ t.heldTags, h.tag ≠ tag.val) ∧
      t.ways = s.ways ∧ t.offers = s.offers ∧ (∀ c, chan t c = chan s c) := by
  obtain ⟨h, hfind⟩ : ∃ h, s.heldTags.find? (fun h => h.tag == tag.val) = some h := by
    rw [← Option.isSome_iff_exists, List.find?_isSome]
    simpa using hheld
  obtain ⟨u, hu⟩ : ∃ u, u = freeHeldTag tag.val (elapse (Config.holdLimit - h.timer) s) := ⟨_, rfl⟩
  have hrow : exec (.heldTagRelease tag) s = .next (finish u) := by
    have hfree : heldTagRelease tag.val s = some u := by simp only [heldTagRelease, hfind, hu]
    rw [exec_heldTagRelease, hfree, answerStep_some (by rw [hu]; rfl)]
  refine ⟨finish u, hrow, ?_, ?_, ?_, fun c => ?_⟩
  · rw [finish_heldTags, hu]
    intro k hk
    simpa using (List.mem_filter.1 hk).2
  · rw [finish_ways, hu]; rfl
  · rw [finish_offers, hu]; rfl
  · rw [chan_finish, hu]; rfl

/-- STALE_COMPLETION_DISCARD of a tag that holds no request (R11, R12). -/
theorem staleCompletionDiscard_frees (tag : Fin 1024) (s : State) (ho : outstandingAt s tag.val = none)
    (hi : tblGet s.inFlight tag.val = none) :
    ∃ t, exec (.staleCompletionDiscard tag) s = .next t ∧ (∀ h ∈ t.heldTags, h.tag ≠ tag.val) ∧
      (∀ h ∈ s.heldTags, h.tag ≠ tag.val → h ∈ t.heldTags) ∧ Untouched s { t with heldTags := s.heldTags } ∧
      ∀ c, chan t c = chan s c := by
  have hrow : exec (.staleCompletionDiscard tag) s = .next (finish (freeHeldTag tag.val s)) := by
    have hfree : staleDiscard tag.val s = some (freeHeldTag tag.val s) := by
      simp [staleDiscard, tagOutstanding, ho, hi]
    rw [exec_staleCompletionDiscard, hfree]
    exact answerStep_some rfl
  have hheld : (finish (freeHeldTag tag.val s)).heldTags = s.heldTags.filter (fun h => h.tag != tag.val) :=
    finish_heldTags _
  refine ⟨_, hrow, ?_, ?_, ?_, fun c => ?_⟩
  · rw [hheld]
    intro k hk
    simpa using (List.mem_filter.1 hk).2
  · rw [hheld]
    exact fun k hk hne => List.mem_filter.2 ⟨hk, by simpa using hne⟩
  · rw [Untouched, finish_shape]
    rfl
  · rw [chan_finish]; rfl

/-- Settles O28: a timeout is the ERROR completion's row on the state whose tag is held, and no engine touches the
held tags. -/
theorem timedOutTagIsHeldUntilItsCompletionOrOneMillisecond :
    Obligations.TimedOutTagIsHeldUntilItsCompletionOrOneMillisecond :=
  ⟨ownRequestTimeout_holds, heldTagRelease_frees, staleCompletionDiscard_frees⟩

end Sys2Proof.Machine
end

section
/-!
PROOFS. The governed span (R18 to R22): what every row of the block but COLD_RESET keeps of it, its legality along every
step and right after reset, and the classes of addresses that it fixes: O18, O19, O20 and O29.
-/

namespace Sys2Proof.Machine

/-! ### What keeps the span (R18) -/

/-- Two states have one span: the base, the size asked for and the clamped size. -/
structure SameSpan (s t : State) : Prop where
  base      : t.base = s.base
  requested : t.requested = s.requested
  size      : t.size = s.size

theorem SameSpan.refl (s : State) : SameSpan s s := ⟨rfl, rfl, rfl⟩

theorem SameSpan.trans {s t u : State} (h : SameSpan s t) (h' : SameSpan t u) : SameSpan s u :=
  ⟨h'.base.trans h.base, h'.requested.trans h.requested, h'.size.trans h.size⟩

/-- What keeps the board keeps the span, which stands on it. -/
theorem SameSpan.of_board {s t : State} (h : board t = board s) : SameSpan s t := by
  obtain ⟨-, hbase, hrequested, hsize, -⟩ := board_iff.1 h
  exact ⟨hbase, hrequested, hsize⟩

/-- The outcome of a row that is always possible. -/
theorem sameSpan_next {s u t : State} (h : (Host.Outcome.next u : Host.Outcome State Fault Refusal) = .next t)
    (hu : SameSpan s u) : SameSpan s t := by
  cases h
  exact hu

/-- The outcome of a row: the end of its step issues and offers requests only. -/
theorem sameSpan_answerStep {s t : State} {o : Option State} (h : answerStep s o = .next t)
    (ho : ∀ u, o = some u → SameSpan s u) : SameSpan s t := by
  cases o with
  | none => exact sameSpan_next h (.refl s)
  | some u => exact sameSpan_next h ((ho u rfl).trans (.of_board (by simp)))

/-- The outcome of a row that keeps the whole board. -/
theorem sameSpan_of_keeps {s t : State} {o : Option State} (h : answerStep s o = .next t)
    (ho : ∀ u, o = some u → board u = board s) : SameSpan s t :=
  sameSpan_answerStep h fun u hu => .of_board (ho u hu)

/-- A row that takes a request, if its access has a requester, keeps the board as the request's check does. -/
theorem board_offerRequest_unless {s u : State} {p : Prop} [Decidable p] {r : Request}
    (h : (if p then none else offerRequest r s) = some u) : board u = board s := by
  split at h
  · cases h
  · exact board_offerRequest s r h

/-- The upstream link comes up: the links are on the board, the span is not changed (R13). -/
theorem sameSpan_upstreamLinkUp {s u : State}
    (h : (if s.upLink then none else some { s with upLink := true, txLast := none }) = some u) : SameSpan s u := by
  split at h
  · cases h
  · cases h
    exact ⟨rfl, rfl, rfl⟩

theorem sameSpan_powerWarn {s u : State} (h : powerWarn s = some u) : SameSpan s u :=
  SameSpan.trans (t := { s with warnLine := true }) ⟨rfl, rfl, rfl⟩ (.of_board (board_powerWarn s h))

theorem sameSpan_faultAssert {s u : State} (h : faultAssert s = some u) : SameSpan s u :=
  SameSpan.trans (t := { s with faultLine := true }) ⟨rfl, rfl, rfl⟩ (.of_board (board_faultAssert s h))

theorem sameSpan_finish (s : State) : SameSpan s (finish s) := .of_board (by simp)

/-- No row but COLD_RESET changes the span: the rows of the ports and of the platform lines change levels, and every
other row keeps the whole board. -/
theorem sameSpan_exec {i : Instr} {s t : State} (hi : ∀ b k, i ≠ .coldReset b k) (h : exec i s = .next t) :
    SameSpan s t := by
  cases i with
  | coldReset b k => exact absurd rfl (hi b k)
  | requestTaken _ | submission _ _ _ | responseRead _ _ =>
    exact sameSpan_of_keeps h fun _ hu => board_offerRequest s _ hu
  | apertureOtherWrite _ _ _ _ _ | domainRequestWrite _ _ _ _ _ | domainRequestRead _ _ =>
    exact sameSpan_of_keeps h fun _ hu => board_offerRequest_unless hu
  | presentReleasedWaiter => exact sameSpan_of_keeps h fun _ hu => board_presentReleased s hu
  | heldTransactionForward => exact sameSpan_of_keeps h fun _ hu => board_heldForward s hu
  | completionTaken => exact sameSpan_of_keeps h fun _ hu => board_completionTaken s hu
  | noticePacketTaken => exact sameSpan_of_keeps h fun _ hu => board_noticeTaken s hu
  | upstreamLinkDown =>
    exact sameSpan_next h <| SameSpan.trans (t := { s with upLink := false }) ⟨rfl, rfl, rfl⟩ (.of_board (by simp))
  | upstreamLinkUp => exact sameSpan_answerStep h fun _ hu => sameSpan_upstreamLinkUp hu
  | downstreamLinkDown =>
    exact sameSpan_next h <|
      SameSpan.trans (t := { s with downLink := false, downOffered := none }) ⟨rfl, rfl, rfl⟩ (sameSpan_finish _)
  | downstreamLinkUp =>
    exact sameSpan_next h <| SameSpan.trans (t := { s with downLink := true }) ⟨rfl, rfl, rfl⟩ (sameSpan_finish _)
  | downstreamOfferTaken =>
    refine sameSpan_of_keeps h fun u hu => ?_
    split at hu <;> cases hu
    exact board_takeOffer s
  | downstreamTagGrant cls =>
    refine sameSpan_of_keeps (o := some (grantTag cls s)) h fun u hu => ?_
    cases hu
    exact board_grantTag s cls
  | forwardedCompletion tag status data =>
    refine sameSpan_of_keeps (o := some (inFlightCompletion tag.val status data s)) h fun u hu => ?_
    cases hu
    exact board_inFlightCompletion s tag.val status data
  | forwardedTimeout tag =>
    refine sameSpan_of_keeps (o := some (inFlightTimeout tag.val s)) h fun u hu => ?_
    cases hu
    exact board_inFlightTimeout s tag.val
  | staleCompletionDiscard _ => exact sameSpan_of_keeps h fun _ hu => board_staleDiscard s _ hu
  | orphanLimit _ => exact sameSpan_of_keeps h fun _ hu => board_orphanLimit s _ hu
  | ownRequestTimeout _ => exact sameSpan_of_keeps h fun _ hu => board_ownTimeout s _ hu
  | heldTagRelease _ => exact sameSpan_of_keeps h fun _ hu => board_heldTagRelease s _ hu
  | fillReadCompletion _ _ => exact sameSpan_of_keeps h fun _ hu => board_fillCompletion s _ _ hu
  | fillClaimsWay _ _ => exact sameSpan_of_keeps h fun _ hu => board_fillClaims s _ _ hu
  | fillWaitListStart => exact sameSpan_of_keeps h fun _ hu => board_waitListStart s hu
  | writeBackCompletion _ _ | formatWriteCompletion _ _ | zeroWriteCompletion _ _ | harvestWriteCompletion _ _ =>
    exact sameSpan_of_keeps h fun _ hu => board_writeCompletion s _ _ _ hu
  | formatDrainDone _ => exact sameSpan_of_keeps h fun _ hu => board_formatDrained s _ hu
  | scrubUnitGrant => exact sameSpan_of_keeps h fun _ hu => board_unitGrant s hu
  | granuleDrainDone _ => exact sameSpan_of_keeps h fun _ hu => board_granuleDrained s _ hu
  | retireClearanceDrainsDone _ => exact sameSpan_of_keeps h fun _ hu => board_clearanceDrained s _ hu
  | retireClaimReleased _ => exact sameSpan_of_keeps h fun _ hu => board_claimReleased s _ hu
  | revocationRemoval _ => exact sameSpan_of_keeps h fun _ hu => board_removalDue s _ hu
  | harvestGroupDrained _ => exact sameSpan_of_keeps h fun _ hu => board_groupDrained s _ hu
  | offer | withdraw | pin | unpin | query => exact sameSpan_of_keeps h fun _ hu => board_startHead s _ hu
  | format _ | assign _ | release _ | restore _ | queryGranules _ | retire _ | revokeGrant _ | trackStart _
  | trackCollect _ | flushTags _ | regionSet _ | trackStop _ | abort _ | resetEngines _ =>
    exact sameSpan_of_keeps h fun _ hu => board_takeRun s _ _ hu
  | create _ | start _ | pause _ | resume _ | unfence _ | setQuota _ | setFence _ | clearDomainCounters _
  | domainStatus _ | activateGrant _ | grantRead _ | trackStatus _ | violationPop _ | noticeConfig _ | noticeClear _
  | noticeStatus _ | regionClear _ | regionLockdown _ | freeze _ | setFaultPolicy _ | contain _ | resumePart _
  | ackIntegrity _ | clearIntegrityCount _ | setCorrectedLimit _ | poisonRead _ | partStatus _ =>
    exact sameSpan_of_keeps h fun _ hu => board_takeControl s _ _ hu
  | warmResetSettled =>
    refine sameSpan_of_keeps h fun u hu => ?_
    split at hu <;> cases hu
    exact board_afterSettling s
  | powerWarn => exact sameSpan_answerStep h fun _ hu => sameSpan_powerWarn hu
  | powerWarnQuiesced =>
    refine sameSpan_of_keeps h fun u hu => ?_
    split at hu <;> cases hu
    exact board_flushGoesOn s
  | platformFaultAssert => exact sameSpan_answerStep h fun _ hu => sameSpan_faultAssert hu
  | platformFaultDeassert | powerWarnDeassert => exact sameSpan_next h ⟨rfl, rfl, rfl⟩

/-! ### The span along every step (R18 to R20) -/

theorem spanLegal_iff_of_sameSpan {s t : State} (h : SameSpan s t) : SpanLegal t ↔ SpanLegal s := by
  simp only [SpanLegal, h.base, h.size]

/-- The state of COLD_RESET's row. -/
theorem exec_coldReset (b : Fin 1024) (k : Fin 8) (s : State) : exec (.coldReset b k) s =
    .next { coldState b.val k.val s.faultLine s.warnLine with pending := s.pending } := rfl

/-- A row takes a legal span to a legal span: COLD_RESET makes one from the straps, every other row leaves it. -/
theorem spanLegal_exec {i : Instr} {s t : State} (hs : SpanLegal s) (h : exec i s = .next t) : SpanLegal t := by
  by_cases hi : ∃ b k, i = .coldReset b k
  · obtain ⟨b, k, rfl⟩ := hi
    obtain ⟨u, hu, hlegal, -⟩ := coldResetReturnsThePartToUnformatted b k s
    rw [hu] at h
    cases h
    exact hlegal
  · have hkeeps := sameSpan_exec (fun b k hbk => hi ⟨b, k, hbk⟩) h
    exact (spanLegal_iff_of_sameSpan hkeeps).2 hs

/-- Settles O18: a step is the row of the front command on the state with the queue's rest, or a microsecond. -/
theorem everyStepKeepsTheSpanLegal : Obligations.EveryStepKeepsTheSpanLegal := by
  intro s t hs h
  rw [step] at h
  split at h
  next i rest _ => exact spanLegal_exec (s := { s with pending := rest }) hs h
  next =>
    cases h
    exact (spanLegal_iff_of_sameSpan (.of_board (board_elapse s 1))).2 hs

/-- The base that a strap value gives, by the bound of R18. -/
theorem strapBase_eq (b : Nat) : strapBase b = 64 * 2 ^ 30 * (if b ≤ 960 then b else 960) := by
  have hunit : Config.gib64 = 64 * 2 ^ 30 := rfl
  rw [strapBase, Nat.min_def, hunit]

/-- The size that a strap value asks for, by the bound of R18. -/
theorem strapSize_eq (k : Nat) : strapSize k = 256 * 2 ^ 30 * 2 ^ (if k ≤ 4 then k else 4) := by
  have hunit : Config.gib256 = 256 * 2 ^ 30 := rfl
  rw [strapSize, Nat.min_def, hunit]

/-- Settles O20: COLD_RESET's state by its straps, and the frame of every other row. -/
theorem spanIsSampledOnlyAtColdReset : Obligations.SpanIsSampledOnlyAtColdReset := by
  refine ⟨fun b k s => ⟨_, exec_coldReset b k s, strapBase_eq b.val, strapSize_eq k.val⟩, fun i s t hi h => ?_⟩
  obtain ⟨hbase, hrequested, hsize⟩ := sameSpan_exec hi h
  exact ⟨hbase, hrequested, hsize⟩

/-! ### The state right after reset (1.3) -/

theorem tableForm_nil {α : Type} (d : Nat → α) : TableForm d [] := ⟨rfl, fun _ h => absurd h List.not_mem_nil⟩

theorem tableBelow_nil {α : Type} (n : Nat) : TableBelow (α := α) n [] := ⟨rfl, fun _ h => absurd h List.not_mem_nil⟩

/-- Every table, queue and list of the reset state is empty, and no warm reset is under way. -/
theorem sound_reset : Sound State.reset where
  domains      := tableForm_nil _
  channels     := tableForm_nil _
  slots        := tableForm_nil _
  regions      := tableForm_nil _
  notices      := tableForm_nil _
  results      := tableForm_nil _
  lru          := tableForm_nil _
  grants       := tableBelow_nil _
  inFlight     := tableBelow_nil _
  units        := tableBelow_nil _
  ways         := tableBelow_nil _
  orders       := fun _ h => absurd h List.not_mem_nil
  fillWays     := fun _ h => absurd h List.not_mem_nil
  guests       := fun _ h => absurd h List.not_mem_nil
  queues       := fun _ h => absurd h List.not_mem_nil
  responses    := fun _ h => absurd h List.not_mem_nil
  reservations := fun _ h => absurd h List.not_mem_nil
  resetSlot    := fun _ h => absurd h List.not_mem_nil
  dirtyQueues  := fun _ h => absurd h List.not_mem_nil
  counters     := fun _ h => absurd h List.not_mem_nil
  log          := Nat.zero_le _
  poison       := Nat.zero_le _
  fills        := Nat.zero_le _
  misses       := Nat.zero_le _
  requests     := Nat.zero_le _
  correct      := Nat.zero_le _
  sources      := fun _ h => absurd h List.not_mem_nil
  produced     := rfl

/-- Settles O19: the reset state is that of straps 0 and 0, and each of its channels and engines is idle. -/
theorem resetStateIsSoundQuietAndLegal : Obligations.ResetStateIsSoundQuietAndLegal :=
  ⟨sound_reset, spanLegal_of_straps (b := 0) (k := 0) rfl rfl, rfl⟩

/-! ### Address classes (R2, R21, R22) -/

/-- A legal base and a legal size are multiples of a granule's 4096 bytes. -/
theorem SpanLegal.granules {s : State} (h : SpanLegal s) : ∃ b n, s.base = 4096 * b ∧ s.size = 4096 * n := by
  obtain ⟨⟨j, -, hbase⟩, ⟨k, -, hsize⟩, -⟩ := h
  refine ⟨16777216 * j, 67108864 * 2 ^ k, ?_, ?_⟩
  · rw [hbase, Config.gib64]
    omega
  · rw [hsize, Config.gib256]
    omega

/-- Settles O29: the bounds of the three ranges are multiples of 64, so an address lies in the range of its line; and
the base is a multiple of 4096, so the line's granule is the address's. -/
theorem addressClassesFollowTheSpan : Obligations.AddressClassesFollowTheSpan := by
  intro s a hs
  obtain ⟨b, n, hb, hn⟩ := hs.granules
  have hx : lineAddress a = a.toNat / 64 * 64 := rfl
  have hap : Config.apertureBytes = 65536 := rfl
  rw [classify]
  refine ⟨fun hlo hhi => ?_, fun hlo hhi => ?_, fun hout => ?_⟩
  · have hgranule : (lineAddress a - s.base) / 4096 = (a.toNat - s.base) / 4096 := by omega
    rw [if_pos (by omega)]
    exact congrArg AddressClass.governed hgranule
  · have hline : lineAddress a - (s.base + s.size) = (a.toNat - (s.base + s.size)) / 64 * 64 := by omega
    rw [if_neg (by omega), if_pos (by omega), hline]
  · rw [if_neg (by omega), if_neg (by omega)]

end Sys2Proof.Machine
end

section
/-!
PROOFS. The requests that a step produces, issued in order at its end (R10), and the format writes among them (R34).
-/

namespace Sys2Proof.Machine

/-! ### Requests produced in order (R10) -/

/-- The format writes of the k tag lines from `first` on, in ascending order. -/
def formatJobs (first k : Nat) : List OwnJob := (List.range' first k).map .formatLine

/-- Requests produced one after the other stand behind those produced before. -/
theorem foldl_produceJob {α : Type} (f : α → OwnJob) (l : List α) (s : State) :
    l.foldl (fun s x => produceJob (f x) s) s = { s with produced := s.produced ++ l.map f } := by
  induction l generalizing s with
  | nil => simp
  | cons x l ih => rw [List.foldl_cons, ih]; simp [produceJob]

/-- FORMAT's writing step produces its next k lines in ascending order (R34). -/
theorem produce_formatJobs (first k : Nat) (s : State) :
    (List.range k).foldl (fun s i => produceJob (.formatLine (first + i)) s) s =
      { s with produced := s.produced ++ formatJobs first k } := by
  rw [foldl_produceJob (fun i => OwnJob.formatLine (first + i)), formatJobs, List.range'_eq_map_range, List.map_map]
  rfl

/-- Format writes produced in ascending order are in the order of R10 already. -/
theorem foldr_insertJob_formatLines {l : List Nat} (h : l.Pairwise (· ≤ ·)) :
    (l.map OwnJob.formatLine).foldr insertJob [] = l.map OwnJob.formatLine := by
  induction h with
  | nil => rfl
  | @cons x l hx _ ih =>
    rw [List.map_cons, List.foldr_cons, ih]
    cases l with
    | nil => rfl
    | cons y l => simp [insertJob, jobClass, jobOrder, hx y]

theorem producedJobs_formatJobs {old s : State} {first k : Nat}
    (h : s.produced = old.produced ++ formatJobs first k) : producedJobs old s = formatJobs first k := by
  rw [producedJobs, h, List.drop_left, formatJobs]
  exact foldr_insertJob_formatLines (List.pairwise_le_range')

/-- The end of a step that has produced the lines issues them one after the other. -/
theorem issueProduced_formatJobs {old s : State} {first k : Nat}
    (h : s.produced = old.produced ++ formatJobs first k) :
    issueProduced old s = (formatJobs first k).foldl (fun t j => issueJob j t) { s with produced := old.produced } := by
  rw [issueProduced, producedJobs_formatJobs h]

/-! ### Where an issued line stands (R10, R34) -/

theorem formatted_congr {s t : State} (h : t.size = s.size) (T g : Nat) : formatted T g t = formatted T g s := by
  have hregion : tagRegionSize t = tagRegionSize s := congrArg tagRegionSizeOf h
  rw [formatted, formatted, hregion]

/-- A line that waits or stands offered does so in every state that holds what this one holds, in the same span. -/
theorem FormatLineGoes.mono {T line : Nat} {s t : State} (h : FormatLineGoes T line s) (hspan : SameSpan s t)
    (hwaits : s.tagWaits ⊆ t.tagWaits) (hout : s.outstanding ⊆ t.outstanding) (hoffers : s.offers ⊆ t.offers) :
    FormatLineGoes T line t := by
  simp only [FormatLineGoes, hspan.base, formatted_congr hspan.size]
  rcases h with h | ⟨o, ho, hjob, hoffer⟩
  · exact .inl (hwaits h)
  · exact .inr ⟨o, hout ho, hjob, hoffers hoffer⟩

/-- The issue of a request lets it wait, or makes it outstanding and offered under a tag (R10). -/
theorem issueJob_cases (j : OwnJob) (s : State) :
    (issueJob j s).tagWaits = s.tagWaits ++ [j] ∧ (issueJob j s).outstanding = s.outstanding ∧
        (issueJob j s).offers = s.offers ∨
      ∃ x, (issueJob j s).tagWaits = s.tagWaits ∧
        (issueJob j s).outstanding = s.outstanding ++ [{ tag := x, job := j, changed := false, timer := 0 }] ∧
        (issueJob j s).offers = s.offers ++ [packetOf x j s] := by
  unfold issueJob
  split
  · exact .inl ⟨rfl, rfl, rfl⟩
  · cases freeTag (jobClass j) s with
    | none => exact .inl ⟨rfl, rfl, rfl⟩
    | some x =>
      refine .inr ⟨x, ?_, ?_, ?_⟩ <;>
      · dsimp only [sendJob]
        rw [noteIssue_shape]

theorem sameSpan_issueJob (j : OwnJob) (s : State) : SameSpan s (issueJob j s) := .of_board (by simp)

/-- The issue of another request leaves a line where it stands. -/
theorem FormatLineGoes.issueJob {T line : Nat} {s : State} (h : FormatLineGoes T line s) (j : OwnJob) :
    FormatLineGoes T line (issueJob j s) := by
  rcases issueJob_cases j s with ⟨hw, ho, hf⟩ | ⟨x, hw, ho, hf⟩ <;>
    exact h.mono (sameSpan_issueJob j s) (by simp [hw]) (by simp [ho]) (by simp [hf])

/-- The issue of a line's write lets it wait, or offers its four records at the line's address (R25, R29, R34). -/
theorem formatLineGoes_issueJob {T : Nat} {s : State} (hT : s.tagBase = some T) (line : Nat) :
    FormatLineGoes T line (Machine.issueJob (.formatLine line) s) := by
  have hspan := sameSpan_issueJob (.formatLine line) s
  simp only [FormatLineGoes, hspan.base, formatted_congr hspan.size]
  rcases issueJob_cases (.formatLine line) s with ⟨hw, -, -⟩ | ⟨x, -, ho, hf⟩
  · exact .inl (by simp [hw])
  · refine .inr ⟨{ tag := x, job := .formatLine line, changed := false, timer := 0 }, by simp [ho], rfl, ?_⟩
    simp [hf, packetOf, tagLineAddress_eq, formatQuad_eq hT, hT]

/-- The lines that a step issues wait or stand offered when all are issued. -/
theorem formatLineGoes_issueJobs {T line : Nat} {l : List OwnJob} {s : State} (hT : s.tagBase = some T)
    (h : .formatLine line ∈ l ∨ FormatLineGoes T line s) :
    FormatLineGoes T line (l.foldl (fun t j => Machine.issueJob j t) s) := by
  induction l generalizing s with
  | nil => exact h.resolve_left List.not_mem_nil
  | cons j l ih =>
    refine ih (by simp [hT]) ?_
    rcases h with h | h
    · rcases List.mem_cons.1 h with rfl | h
      · exact .inr (formatLineGoes_issueJob hT line)
      · exact .inl h
    · exact .inr (h.issueJob j)

/-- The end of a step that has produced the lines from `first` on: each waits or stands offered. -/
theorem formatLineGoes_finish {T first k line : Nat} {old s : State} (hT : s.tagBase = some T)
    (h : s.produced = old.produced ++ formatJobs first k) (hlo : first ≤ line) (hhi : line < first + k) :
    FormatLineGoes T line (finish (issueProduced old s)) := by
  have hmem : .formatLine line ∈ formatJobs first k :=
    List.mem_map_of_mem (List.mem_range'_1.2 ⟨hlo, hhi⟩)
  have hissued : FormatLineGoes T line (issueProduced old s) := by
    rw [issueProduced_formatJobs h]
    exact formatLineGoes_issueJobs hT (.inl hmem)
  exact hissued.mono (sameSpan_finish _) (by simp) (by simp) (by simp)

end Sys2Proof.Machine
end

section
/-!
PROOFS. FORMAT (R33 to R36): its tests and its drain, the steps that write the tag lines, and its two ends: O52.
-/

namespace Sys2Proof.Machine

/-! ### The parts of FORMAT -/

theorem exec_format (c : Fin 4) (s : State) : exec (.format c) s = answerStep s (takeRun .format c.val s) := rfl

theorem exec_formatDrainDone (c : Fin 4) (s : State) :
    exec (.formatDrainDone c) s = answerStep s (formatDrained c.val s) := rfl

theorem exec_formatWriteCompletion (tag : Fin 1024) (status : DownStatus) (s : State) :
    exec (.formatWriteCompletion tag status) s = answerStep s (writeCompletion .formatWrite tag.val status s) := rfl

/-- The count of format writes sees the requests without an end only. -/
theorem formatWrites_congr {s t : State} (ho : t.outstanding = s.outstanding) (hw : t.tagWaits = s.tagWaits)
    (hp : t.produced = s.produced) : formatWrites t = formatWrites s := by
  rw [formatWrites, formatWrites, waitingJobs, waitingJobs, ho, hw, hp]

theorem formatWrites_eq_zero {s : State} (ho : ∀ o ∈ s.outstanding, jobClass o.job ≠ .formatWrite)
    (hw : ∀ j ∈ waitingJobs s, jobClass j ≠ .formatWrite) : formatWrites s = 0 := by
  simpa [formatWrites, List.filter_eq_nil_iff] using And.intro ho hw

/-- A legal span has more tag lines than may be outstanding at once (R18, R20). -/
theorem SpanLegal.sixteen_lt_tagLineCount {s : State} (h : SpanLegal s) : 16 < tagLineCount s := by
  obtain ⟨-, ⟨k, -, hsize⟩, -⟩ := h
  have hpos : 0 < 2 ^ k := Nat.two_pow_pos k
  rw [tagLineCount, tagLineCountOf, granuleCountOf, hsize, Config.gib256, Config.granuleBytes]
  omega

theorem tagLineCount_congr {s t : State} (h : t.size = s.size) : tagLineCount t = tagLineCount s :=
  congrArg tagLineCountOf h

theorem doneWork_eq {s : State} {c : Nat} {a : Active} (ha : (chan s c).active = some a) :
    doneWork c s = completeWork c .done (reportOf a s) s := by
  rw [doneWork, ha]

/-- The state that FORMAT's writing step leaves: its k next lines are produced, and it waits for writes (R34). -/
def writesProduced (c base next k : Nat) (s : State) : State :=
  goWait c .writes (goWork c (.format base (next + k) none) { s with produced := s.produced ++ formatJobs next k })

/-- With lines left to write, FORMAT's step produces as many as keep sixteen outstanding (R34). -/
theorem formatStep_writes {s : State} {c base next : Nat} {a : Active} (ha : a.ending = none)
    (h : s.progress ≠ tagLineCount s) : formatStep c a base next none s =
      writesProduced c base next (min (16 - formatWrites s) (tagLineCount s - next)) s := by
  rw [formatStep, ha]
  dsimp only
  rw [if_neg h, produce_formatJobs]
  rfl

/-- With every line written, FORMAT's step completes it (R35). -/
theorem formatStep_completes {s : State} {c base next : Nat} {a : Active} {lowest : Option Nat} (ha : a.ending = none)
    (h : s.progress = tagLineCount s) : formatStep c a base next lowest s = formatComplete c s := by
  rw [formatStep, ha]
  dsimp only
  rw [if_pos h]

/-- A stopping FORMAT without an outstanding write ends with the result of its stop (R36). -/
theorem formatStep_stops {s : State} {c base next : Nat} {a : Active} {lowest : Option Nat} {r : Result}
    (ha : a.ending = some r) (h : formatWrites s = 0) : formatStep c a base next lowest s = stopWork c r s := by
  rw [formatStep, ha]
  dsimp only
  rw [if_pos h]

/-- The step of an active FORMAT that waits for nothing is its writing step. -/
theorem chanStep_format {c base next : Nat} {lowest : Option Nat} {a : Active} (hp : a.phase = .writes)
    (hw : a.work = .format base next lowest) (s : State) : chanStep c a s = formatStep c a base next lowest s := by
  rw [chanStep, hp]
  dsimp only
  rw [hw]

/-! ### A command between its steps -/

theorem Runs.active {c : Nat} {a : Active} {s : State} (h : Runs c a s) : (chan s c).active = some a := h.1
theorem Runs.ending {c : Nat} {a : Active} {s : State} (h : Runs c a s) : a.ending = none := h.2.1
theorem Runs.quiet {c : Nat} {a : Active} {s : State} (h : Runs c a s) : Quiet s := h.2.2.2.2.2.2

theorem Runs.at {c : Nat} {a : Active} {s : State} (h : Runs c a s) (hc : c < 4) : At c a s s := by
  obtain ⟨hactive, -, hcontrol, hwork, hundo, -, hquiet⟩ := h
  exact ⟨hactive, hcontrol, hwork, hundo, hquiet.retake hc, fun _ _ => rfl, .refl s⟩

/-- A command of a running channel that stands as a' while nothing else in the part can do more. -/
theorem Runs.at_of_chan {c : Nat} {a a' : Active} {s u : State} (h : Runs c a s) (hc : c < 4)
    (hchan : ∀ x, chan u x = if x = c then { chan s c with active := some a' } else chan s x) (hr : SameRest s u) :
    At c a' s u := by
  obtain ⟨-, -, hcontrol, hwork, hundo, -, hquiet⟩ := h
  have hself := (hchan c).trans (if_pos rfl)
  exact ⟨by rw [hself], by rw [hself]; exact hcontrol, by rw [hself]; exact hwork, by rw [hself]; exact hundo,
    by rw [hself]; exact hquiet.retake hc, fun x hx => (hchan x).trans (if_neg hx), hr⟩

theorem At.mapActive {c : Nat} {a : Active} {s u : State} (h : At c a s u) (f : Active → Active) :
    At c (f a) s (mapActive c f u) := by
  have e : chan (Machine.mapActive c f u) c = { chan u c with active := some (f a) } := by
    rw [chan_mapActive, if_pos rfl, h.active]; rfl
  refine ⟨by rw [e], by rw [e]; exact h.control, by rw [e]; exact h.work, by rw [e]; exact h.undo,
    by rw [e]; exact h.retake, fun x hx => ?_, h.rest.trans ⟨rfl, rfl, rfl, rfl, rfl⟩⟩
  rw [chan_mapActive, if_neg hx]
  exact h.others x hx

/-- A work command stands active where other tables have changed as it starts. -/
theorem At.started_with {c : Nat} {b : Line} {cmd : Cmd} {s u : State} (h : StartsWork cmd c b s) (hc : c < 4)
    (hch : u.channels = (dequeue c s).channels) (hr : SameRest (dequeue c s) u) (w : Work) (p : Phase) (x : Wait) :
    At c { block := b, work := w, phase := p, wait := x, ending := none } s (activate c b w p x u) := by
  refine (At.started h hc w p x).congr ?_ ?_
  · simp only [activate, setChan, chan, hch]
  · exact ⟨by simpa using hr.running, by simpa using hr.requests, by simpa using hr.warm, by simpa using hr.flush,
      by simpa using hr.poisonings⟩

/-! ### The step that writes lines (R34) -/

/-- From u to t FORMAT's command a at channel c has produced its k lines from `next` on: each waits or stands offered,
the command waits for writes, and nothing else of the format's state has changed. -/
structure WroteLines (c base next k : Nat) (a : Active) (u t : State) : Prop where
  channel     : chan t c =
    { chan u c with active := some { a with work := .format base (next + k) none, wait := .writes } }
  others      : ∀ x, x ≠ c → chan t x = chan u x
  lines       : ∀ l, next ≤ l → l < next + k → FormatLineGoes base l t
  mode        : t.mode = u.mode
  tagBase     : t.tagBase = u.tagBase
  progress    : t.progress = u.progress
  ways        : t.ways = u.ways
  drains      : t.drains = u.drains
  outstanding : k = 0 → t.outstanding = u.outstanding

theorem chan_writesProduced {c : Nat} {a : Active} {u : State} (ha : (chan u c).active = some a) (base next k : Nat) :
    chan (writesProduced c base next k u) c =
      { chan u c with active := some { a with work := .format base (next + k) none, wait := .writes } } := by
  have hsame : chan { u with produced := u.produced ++ formatJobs next k } c = chan u c := rfl
  rw [writesProduced, chan_goWait, if_pos rfl, chan_goWork, if_pos rfl, hsame, ha]
  rfl

theorem writesProduced_produced (c base next k : Nat) (u : State) :
    (writesProduced c base next k u).produced = u.produced ++ formatJobs next k := rfl

theorem At.wroteLines {c base next k : Nat} {a : Active} {s u : State} (hq : Quiet s) (hc : c < 4) (h : At c a s u)
    (hw : a.wait = .running) (hp : a.phase = .writes) (he : a.ending = none) (hf : a.work = .format base next none)
    (hprogress : u.progress ≠ tagLineCount u) (hT : u.tagBase = some base) (hproduced : u.produced = s.produced)
    (hk : k = min (16 - formatWrites u) (tagLineCount u - next)) :
    WroteLines c base next k a u (finish (issueProduced s (settle u))) := by
  obtain ⟨v, hv⟩ : ∃ v, v = writesProduced c base next k u := ⟨_, rfl⟩
  have hjobs : v.produced = s.produced ++ formatJobs next k := by rw [hv, writesProduced_produced, hproduced]
  have hat : At c { a with work := .format base (next + k) none, wait := .writes } s v := by
    have hprod : At c a s { u with produced := u.produced ++ formatJobs next k } :=
      h.congr rfl ⟨rfl, rfl, rfl, rfl, rfl⟩
    rw [hv]
    exact (hprod.goWork (.format base (next + k) none)).mapActive fun a => { a with wait := .writes }
  have hstep : chanStep c a u = v := by
    rw [chanStep_format hp hf, formatStep_writes he hprogress, hv, hk]
  have hcome : ComesTo 1 u v := by
    refine h.step hq hc hw ?_
    rw [hstep]
    exact .here (hat.quiet hq hc rfl)
  rw [settle_to hcome (by decide)]
  refine ⟨?_, fun x hx => ?_, fun l hlo hhi => ?_, ?_, ?_, ?_, ?_, ?_, fun h0 => ?_⟩
  · rw [chan_finish, chan_issueProduced, hv, chan_writesProduced h.active]
  · rw [chan_finish, chan_issueProduced, hat.others x hx, h.others x hx]
  · exact formatLineGoes_finish (by rw [hv]; exact hT) hjobs hlo hhi
  · rw [finish_mode, issueProduced_mode, hv]; rfl
  · rw [finish_tagBase, issueProduced_tagBase, hv]; rfl
  · rw [finish_progress, issueProduced_progress, hv]; rfl
  · rw [finish_ways, issueProduced_ways, hv]; rfl
  · rw [finish_drains, issueProduced_drains, hv]; rfl
  · have hsame : v.produced = s.produced := by rw [hjobs, h0]; simp [formatJobs]
    rw [issueProduced_same v hsame, finish_outstanding, hv]; rfl

/-! ### The start of FORMAT (R33, R85) -/

/-- A refused work command ends its step without having produced a request (R170). -/
theorem StartsWork.refused_end {cmd : Cmd} {c : Nat} {b : Line} {s : State} (h : StartsWork cmd c b s) (hc : c < 4)
    (r : Result) (p : Report) :
    WorkRefused c b r p s (finish (issueProduced s (settle (refuse c b r p (dequeue c s))))) := by
  have hd := h.chan_dequeue
  have hcome := comesTo_refused (b := b) (r := r) (p := p) (u := dequeue c s) h.quiet hc
    (by rw [hd, if_pos rfl]; exact h.control) (by rw [hd, if_pos rfl]) (by rw [hd, if_pos rfl]; exact h.active)
    (by rw [hd, if_pos rfl]; exact h.undo) (fun x hx => by rw [hd, if_neg hx]; exact .refl _)
    ⟨by simp, by simp, by simp, by simp, by simp⟩
  rw [issueProduced_same _ (by rw [settle_to hcome (by decide)]; simp)]
  exact h.refused hc r p

theorem refusal_format_dequeue (c : Nat) (b : Line) (s : State) : refusal .format b (dequeue c s) =
    { remaining := tagLineCount s, w0 := wordA b, w1 := tagRegionSize s } := by
  simp only [refusal, tagLineCount, tagRegionSize, dequeue_size]

/-- The state in which FORMAT's two tests have passed: mode, tag base, progress and cache change at once (R33). -/
def formatBegun (c : Nat) (b : Line) (s : State) : State :=
  { dequeue c s with mode := .formatting, tagBase := some (wordA b), progress := 0, ways := [] }

/-- What FORMAT's drain counts: the transactions on the granules of its tag region (R33, R85). -/
def formatDrain (c : Nat) (b : Line) (s : State) : Drain :=
  counting (.command c) (fun g _ => decide (wordA b ≤ g ∧ g < wordA b + tagRegionSize s)) s

/-- FORMAT has begun, and its drain has transactions to wait for. -/
def formatWaiting (c : Nat) (b : Line) (s : State) : State :=
  { formatBegun c b s with drains := s.drains ++ [formatDrain c b s] }

theorem formatBegun_drains (c : Nat) (b : Line) (s : State) : (formatBegun c b s).drains = s.drains :=
  dequeue_drains s c

/-- FORMAT's drain as it begins: finished at once, or in progress. -/
theorem beginDrain_formatBegun (c : Nat) (b : Line) (s : State) :
    beginDrain (.command c) (.range (wordA b) (tagRegionSize s)) (formatBegun c b s) =
      if (formatDrain c b s).members = [] ∧ (formatDrain c b s).held = false then formatBegun c b s
      else formatWaiting c b s := by
  have hcount : counting (.command c) (keyMatches (.range (wordA b) (tagRegionSize s))) (formatBegun c b s) =
      formatDrain c b s := by
    simp only [counting, formatDrain, formatBegun, dequeue_inFlight, dequeue_stage]
    rfl
  rw [beginDrain_eq, hcount, formatBegun_drains]
  simp only [Bool.and_eq_true, List.isEmpty_iff, Bool.not_eq_true']
  rfl

/-- FORMAT, its tests passed, writes at once if its drain has finished as it began, and waits for it otherwise. -/
theorem doFormat_eq {c : Nat} {b : Line} {s u : State} (hmode : s.mode = .unformatted)
    (hfits : ¬granuleCount s < wordA b + tagRegionSize s)
    (hu : beginDrain (.command c) (.range (wordA b) (tagRegionSize s)) (formatBegun c b s) = u) :
    doFormat c b (dequeue c s) =
      if drained u (.command c) then activate c b (.format (wordA b) 0 none) .writes .running u
      else activate c b (.format (wordA b) 0 none) .drain .drain u := by
  have hregion : tagRegionSize (dequeue c s) = tagRegionSize s := by rw [tagRegionSize, dequeue_size]; rfl
  have hbegun : tagRegionSize (formatBegun c b s) = tagRegionSize s := hregion
  rw [← hu, doFormat, if_neg (by simp [hmode]), if_neg (by rw [granuleCount_dequeue, hregion]; exact hfits),
    ← hbegun]
  rfl

theorem doFormat_waits {c : Nat} {b : Line} {s : State} (hmode : s.mode = .unformatted)
    (hfits : ¬granuleCount s < wordA b + tagRegionSize s)
    (hd : (formatDrain c b s).members ≠ [] ∨ (formatDrain c b s).held = true) :
    doFormat c b (dequeue c s) = activate c b (.format (wordA b) 0 none) .drain .drain (formatWaiting c b s) := by
  have hne : ¬((formatDrain c b s).members = [] ∧ (formatDrain c b s).held = false) := by
    rintro ⟨hmem, hheld⟩
    rcases hd with hd | hd
    · exact hd hmem
    · exact absurd hd (by simp [hheld])
  have hdrained : drained (formatWaiting c b s) (.command c) = false :=
    not_drained_of_mem (d := formatDrain c b s) (List.mem_append_right _ (List.mem_singleton_self _)) rfl
  rw [doFormat_eq hmode hfits ((beginDrain_formatBegun c b s).trans (if_neg hne)), if_neg (by simp [hdrained])]

theorem doFormat_writes {c : Nat} {b : Line} {s : State} (hmode : s.mode = .unformatted)
    (hfits : ¬granuleCount s < wordA b + tagRegionSize s) (hno : NoDrain (.command c) s)
    (hmem : (formatDrain c b s).members = []) (hheld : (formatDrain c b s).held = false) :
    doFormat c b (dequeue c s) = activate c b (.format (wordA b) 0 none) .writes .running (formatBegun c b s) := by
  have hdrained : drained (formatBegun c b s) (.command c) = true := by
    rw [drained_iff, NoDrain, formatBegun_drains]
    exact hno
  rw [doFormat_eq hmode hfits ((beginDrain_formatBegun c b s).trans (if_pos ⟨hmem, hheld⟩)), if_pos hdrained]

/-- The channels once a work command has been taken and activated, whatever else has changed with it. -/
theorem chan_started_with {cmd : Cmd} {c : Nat} {b : Line} {s u : State} (h : StartsWork cmd c b s)
    (hch : u.channels = (dequeue c s).channels) (w : Work) (p : Phase) (x : Wait) (y : Nat) :
    chan (activate c b w p x u) y =
      if y = c then { chan s c with
        work := [], stop := false, reserved := (chan s c).reserved + 1
        active := some { block := b, work := w, phase := p, wait := x, ending := none } }
      else chan s y := by
  have hsame : ∀ y, chan u y = chan (dequeue c s) y := fun y => by rw [chan, hch]; rfl
  rw [chan_activate, hsame, hsame, h.chan_dequeue, h.chan_dequeue, if_pos rfl]
  split <;> rfl

/-- FORMAT has begun, with its tag region at the granule that its block names (R33). -/
structure FormatBegan (b : Line) (t : State) : Prop where
  mode     : t.mode = .formatting
  tagBase  : t.tagBase = some (wordA b)
  progress : t.progress = 0
  ways     : t.ways = []

/-- FORMAT waits for its drain (R33, R85). -/
theorem format_waits {c : Nat} {b : Line} {s t : State} (h : StartsWork .format c b s) (hc : c < 4)
    (hmode : s.mode = .unformatted) (hfits : ¬granuleCount s < wordA b + tagRegionSize s)
    (hd : (formatDrain c b s).members ≠ [] ∨ (formatDrain c b s).held = true)
    (ht : t = finish (issueProduced s (settle (doFormat c b (dequeue c s))))) :
    FormatBegan b t ∧ Starts c b (.format (wordA b) 0 none) .drain .drain (chan s c).claim s t ∧
      t.drains = s.drains ++ [formatDrain c b s] ∧ t.outstanding = s.outstanding := by
  obtain ⟨u, hu⟩ : ∃ u, u = activate c b (.format (wordA b) 0 none) .drain .drain (formatWaiting c b s) :=
    ⟨_, rfl⟩
  have hat := At.started_with (u := formatWaiting c b s) h hc rfl ⟨rfl, rfl, rfl, rfl, rfl⟩
    (.format (wordA b) 0 none) .drain .drain
  have hchan := chan_started_with (u := formatWaiting c b s) h rfl (.format (wordA b) 0 none) .drain .drain
  rw [← hu] at hat hchan
  have hproduced : u.produced = s.produced := by rw [hu, activate_produced]; exact dequeue_produced s c
  rw [doFormat_waits hmode hfits hd, ← hu, settle_to (.here (hat.quiet h.quiet hc rfl)) (by decide),
    issueProduced_same _ hproduced] at ht
  subst ht
  refine ⟨⟨?_, ?_, ?_, ?_⟩, ⟨?_, fun x hx => ?_⟩, ?_, ?_⟩
  · rw [finish_mode, hu, activate_mode]; rfl
  · rw [finish_tagBase, hu, activate_tagBase]; rfl
  · rw [finish_progress, hu, activate_progress]; rfl
  · rw [finish_ways, hu, activate_ways]; rfl
  · rw [chan_finish, hchan, if_pos rfl]
  · rw [chan_finish, hchan, if_neg hx]
  · rw [finish_drains, hu, activate_drains]; rfl
  · rw [finish_outstanding, hu, activate_outstanding]; exact dequeue_outstanding s c

/-- FORMAT without a transaction to wait for produces its first sixteen lines (R33, R34, R85). -/
theorem format_writes {c : Nat} {b : Line} {s t : State} (h : StartsWork .format c b s) (hc : c < 4)
    (hlegal : SpanLegal s) (hnone : formatWrites s = 0) (hno : NoDrain (.command c) s)
    (hmode : s.mode = .unformatted) (hfits : ¬granuleCount s < wordA b + tagRegionSize s)
    (hmem : (formatDrain c b s).members = []) (hheld : (formatDrain c b s).held = false)
    (ht : t = finish (issueProduced s (settle (doFormat c b (dequeue c s))))) :
    FormatBegan b t ∧ t.drains = s.drains ∧
      Starts c b (.format (wordA b) 16 none) .writes .writes (chan s c).claim s t ∧
        ∀ l, l < 16 → FormatLineGoes (wordA b) l t := by
  obtain ⟨u, hu⟩ : ∃ u, u = activate c b (.format (wordA b) 0 none) .writes .running (formatBegun c b s) :=
    ⟨_, rfl⟩
  have hat := At.started_with (u := formatBegun c b s) h hc rfl ⟨rfl, rfl, rfl, rfl, rfl⟩
    (.format (wordA b) 0 none) .writes .running
  have hchan := chan_started_with (u := formatBegun c b s) h rfl (.format (wordA b) 0 none) .writes .running
  rw [← hu] at hat hchan
  have hsize : u.size = s.size := by rw [hu, activate_size]; exact dequeue_size s c
  have hproduced : u.produced = s.produced := by rw [hu, activate_produced]; exact dequeue_produced s c
  have hprogress : u.progress = 0 := by rw [hu, activate_progress]; rfl
  have hT : u.tagBase = some (wordA b) := by rw [hu, activate_tagBase]; rfl
  have hwrites : formatWrites u = 0 := by
    refine (formatWrites_congr ?_ ?_ hproduced).trans hnone
    · rw [hu, activate_outstanding]; exact dequeue_outstanding s c
    · rw [hu, activate_tagWaits]; exact dequeue_tagWaits s c
  have hlines := hlegal.sixteen_lt_tagLineCount
  have hcount := tagLineCount_congr hsize
  have hw := hat.wroteLines (k := 16) h.quiet hc rfl rfl rfl rfl (by omega) hT hproduced (by omega)
  rw [doFormat_writes hmode hfits hno hmem hheld, ← hu] at ht
  rw [← ht] at hw
  refine ⟨⟨?_, ?_, ?_, ?_⟩, ?_, ⟨?_, fun x hx => ?_⟩, fun l hl => hw.lines l (Nat.zero_le l) (by omega)⟩
  · rw [hw.mode, hu, activate_mode]; rfl
  · rw [hw.tagBase, hT]
  · rw [hw.progress, hprogress]
  · rw [hw.ways, hu, activate_ways]; rfl
  · rw [hw.drains, hu, activate_drains, formatBegun_drains]
  · rw [hw.channel, hchan, if_pos rfl]
  · rw [hw.others x hx, hchan, if_neg hx]

/-- FORMAT's row (R33): the two refusals in their order, or the start with its drain or its first lines. -/
theorem format_row (c : Fin 4) (b : Line) (s : State) (h : StartsWork .format c.val b s) (hlegal : SpanLegal s)
    (hnone : formatWrites s = 0) (hno : NoDrain (.command c.val) s) :
    ∃ t, exec (.format c) s = .next t ∧
      if s.mode ≠ .unformatted then
        WorkRefused c.val b .mode { remaining := tagLineCount s, w0 := wordA b, w1 := tagRegionSize s } s t
      else if granuleCount s < wordA b + tagRegionSize s then
        WorkRefused c.val b .parameter { remaining := tagLineCount s, w0 := wordA b, w1 := tagRegionSize s } s t
      else
        t.mode = .formatting ∧ t.tagBase = some (wordA b) ∧ t.progress = 0 ∧ t.ways = [] ∧
        ∀ x, x = formatDrain c.val b s →
        (x.members ≠ [] ∨ x.held = true →
          Starts c.val b (.format (wordA b) 0 none) .drain .drain (chan s c.val).claim s t ∧
            t.drains = s.drains ++ [x] ∧ t.outstanding = s.outstanding) ∧
        (x.members = [] → x.held = false → t.drains = s.drains ∧
          Starts c.val b (.format (wordA b) 16 none) .writes .writes (chan s c.val).claim s t ∧
            ∀ l, l < 16 → FormatLineGoes (wordA b) l t) := by
  obtain ⟨t, ht⟩ : ∃ t, t = finish (issueProduced s (settle (doFormat c.val b (dequeue c.val s)))) := ⟨_, rfl⟩
  have hrow : exec (.format c) s = .next t := by
    rw [exec_format, h.take, ht]
    rfl
  refine ⟨t, hrow, ?_⟩
  by_cases hmode : s.mode = .unformatted
  · rw [if_neg (by simp [hmode])]
    by_cases hfits : granuleCount s < wordA b + tagRegionSize s
    · have hrefused : doFormat c.val b (dequeue c.val s) =
          refuse c.val b .parameter (refusal .format b (dequeue c.val s)) (dequeue c.val s) := by
        have hregion : tagRegionSize (dequeue c.val s) = tagRegionSize s := by rw [tagRegionSize, dequeue_size]; rfl
        rw [doFormat, if_neg (by simp [hmode]), if_pos (by rw [granuleCount_dequeue, hregion]; exact hfits)]
      rw [if_pos hfits, ht, hrefused, refusal_format_dequeue]
      exact h.refused_end c.isLt _ _
    · rw [if_neg hfits]
      by_cases hd : (formatDrain c.val b s).members = [] ∧ (formatDrain c.val b s).held = false
      · obtain ⟨hmem, hheld⟩ := hd
        obtain ⟨hbegan, hrest⟩ := format_writes h c.isLt hlegal hnone hno hmode hfits hmem hheld ht
        refine ⟨hbegan.mode, hbegan.tagBase, hbegan.progress, hbegan.ways, ?_⟩
        rintro _ rfl
        exact ⟨fun hd => absurd hd (by simp [hmem, hheld]), fun _ _ => hrest⟩
      · have hd' : (formatDrain c.val b s).members ≠ [] ∨ (formatDrain c.val b s).held = true := by
          simpa [imp_iff_not_or] using hd
        obtain ⟨hbegan, hrest⟩ := format_waits h c.isLt hmode hfits hd' ht
        refine ⟨hbegan.mode, hbegan.tagBase, hbegan.progress, hbegan.ways, ?_⟩
        rintro _ rfl
        exact ⟨fun _ => hrest, fun hmem hheld => absurd ⟨hmem, hheld⟩ hd⟩
  · have hrefused : doFormat c.val b (dequeue c.val s) =
        refuse c.val b .mode (refusal .format b (dequeue c.val s)) (dequeue c.val s) := by
      rw [doFormat, if_pos (by simpa using hmode)]
    rw [if_pos hmode, ht, hrefused, refusal_format_dequeue]
    exact h.refused_end c.isLt _ _

/-! ### The end of FORMAT's drain (R34) -/

theorem formatDrained_eq {c base next : Nat} {lowest : Option Nat} {a : Active} {s : State}
    (ha : (chan s c).active = some a) (hf : a.work = .format base next lowest) (hp : a.phase = .drain)
    (hw : a.wait = .drain) (hno : NoDrain (.command c) s) :
    formatDrained c s = some (settle (goPhase c .writes .running s)) := by
  have hdone : drainDone c .drain (.command c) s = some a.work := by
    simp only [drainDone, ha]
    rw [if_pos ⟨hp, hw, drained_iff.2 hno⟩]
  rw [formatDrained, hdone, hf]

/-- FORMAT_DRAIN_DONE's row: the first sixteen lines are issued. -/
theorem formatDrainDone_row (c : Fin 4) (a : Active) (base : Nat) (s : State) (h : Runs c.val a s)
    (hf : a.work = .format base 0 none) (hp : a.phase = .drain) (hwait : a.wait = .drain)
    (hno : NoDrain (.command c.val) s) (hnone : formatWrites s = 0) (hprogress : s.progress = 0)
    (hlegal : SpanLegal s) (hT : s.tagBase = some base) :
    ∃ t, exec (.formatDrainDone c) s = .next t ∧
      GoesOn c.val { a with work := .format base 16 none, phase := .writes, wait := .writes }
        (chan s c.val).claim s t ∧
      (∀ l, l < 16 → FormatLineGoes base l t) ∧ t.mode = s.mode ∧ t.tagBase = s.tagBase := by
  obtain ⟨u, hu⟩ : ∃ u, u = goPhase c.val .writes .running s := ⟨_, rfl⟩
  have hat : At c.val { a with phase := .writes, wait := .running } s u := hu ▸ (h.at c.isLt).goPhase .writes .running
  have hwrites : formatWrites u = 0 := by rw [hu]; exact hnone
  have hlines : 16 < tagLineCount u := by rw [hu]; exact hlegal.sixteen_lt_tagLineCount
  have hstart : u.progress = 0 := by rw [hu]; exact hprogress
  have hw := hat.wroteLines (k := 16) (next := 0) h.quiet c.isLt rfl rfl h.ending hf (by omega)
    (by rw [hu]; exact hT) (by rw [hu]; rfl) (by omega)
  refine ⟨finish (issueProduced s (settle u)), ?_, ⟨?_, fun x hx => ?_⟩,
    fun l hl => hw.lines l (Nat.zero_le l) (by omega), ?_, ?_⟩
  · rw [exec_formatDrainDone, formatDrained_eq h.active hf hp hwait hno, hu]
    rfl
  · rw [hw.channel, hu, chan_goPhase, if_pos rfl]
  · rw [hw.others x hx, hu, chan_goPhase, if_neg hx]
  · rw [hw.mode, hu]; rfl
  · rw [hw.tagBase, hu]; rfl

/-! ### The end of a format write (R34 to R36) -/

/-- The write of a tag line ends under its tag for command a, which is FORMAT at channel c, in its writing phase and not
stopping; no channel before it runs one. -/
structure LineEnds (tag : Fin 1024) (o : Outstanding) (line : Nat) (c : Fin 4) (a : Active) (base next : Nat)
    (s : State) : Prop where
  outstanding : outstandingAt s tag.val = some o
  job         : o.job = .formatLine line
  runs        : Runs c.val a s
  first       : ∀ x, x < c.val → ∀ a', (chan s x).active = some a' → ∀ p q r, a'.work ≠ .format p q r
  work        : a.work = .format base next none
  phase       : a.phase = .writes

section
variable {tag : Fin 1024} {o : Outstanding} {line : Nat} {c : Fin 4} {a : Active} {base next : Nat} {s : State}

/-- The channel of the only FORMAT, where no channel before it has one. -/
theorem LineEnds.formatChannel_eq (h : LineEnds tag o line c a base next s) : formatChannel s = some c.val := by
  have hrange : channelNumbers = List.range 4 := rfl
  rw [formatChannel, hrange, List.find?_range_eq_some]
  refine ⟨?_, List.mem_range.2 c.isLt, fun x hx => ?_⟩
  · have hactive := h.runs.active
    have hwork := h.work
    obtain ⟨block, work, phase, wait, ending⟩ := a
    cases hwork
    rw [hactive]
  · split
    next block p q r phase wait ending hx' => exact absurd rfl (h.first x hx _ hx' p q r)
    next => rfl

/-- The row of a format write's end: its tag is freed, and FORMAT goes on as far as it can (R11, R34, R36). -/
theorem LineEnds.row (h : LineEnds tag o line c a base next s) (status : DownStatus) :
    exec (.formatWriteCompletion tag status) s = .next (finish (issueProduced s
      (settle (formatWriteEnded line (status == .ok) (retireTag tag.val s))))) := by
  have hdone : writeCompletion .formatWrite tag.val status s =
      some (settle (formatWriteEnded line (status == .ok) (retireTag tag.val s))) := by
    rw [writeCompletion, h.outstanding]
    dsimp only
    rw [if_pos ⟨by rw [h.job]; rfl, by decide⟩, jobEnded, h.job]
  rw [exec_formatWriteCompletion, hdone]
  rfl

/-- The state in which FORMAT makes its next step after an OK write (R34). -/
def lineWritten (c tag : Nat) (s : State) : State :=
  goWait c .running { retireTag tag s with progress := s.progress + 1 }

theorem LineEnds.row_ok (h : LineEnds tag o line c a base next s) : exec (.formatWriteCompletion tag .ok) s =
    .next (finish (issueProduced s (settle (lineWritten c.val tag.val s)))) := by
  have hc : formatChannel (retireTag tag.val s) = some c.val := h.formatChannel_eq
  have hended : formatWriteEnded line true (retireTag tag.val s) = lineWritten c.val tag.val s := by
    rw [formatWriteEnded, hc]
    rfl
  rw [h.row, ← hended]
  rfl

theorem chan_lineWritten (c tag : Nat) (s : State) (x : Nat) : chan (lineWritten c tag s) x =
    if x = c then { chan s c with active := (chan s c).active.map (fun a => { a with wait := .running }) }
    else chan s x :=
  chan_goWait { retireTag tag s with progress := s.progress + 1 } c x .running

theorem LineEnds.at_lineWritten (h : LineEnds tag o line c a base next s) :
    At c.val { a with wait := .running } s (lineWritten c.val tag.val s) :=
  h.runs.at_of_chan c.isLt (fun x => by rw [chan_lineWritten, h.runs.active]; rfl) ⟨rfl, rfl, rfl, rfl, rfl⟩

/-- An OK write with lines left issues the next ones, as many as keep sixteen outstanding (R34). -/
theorem LineEnds.goesOn (h : LineEnds tag o line c a base next s) (hwait : a.wait = .writes) {n k : Nat}
    (hleft : s.progress + 1 < tagLineCount s) (hT : s.tagBase = some base)
    (hn : formatWrites { s with outstanding := s.outstanding.filter (fun x => x.tag != tag.val) } = n)
    (hk : k = min (16 - n) (tagLineCount s - next)) :
    ∃ t, exec (.formatWriteCompletion tag .ok) s = .next t ∧ t.progress = s.progress + 1 ∧
      t.mode = s.mode ∧ t.tagBase = s.tagBase ∧
      GoesOn c.val { a with work := .format base (next + k) none } (chan s c.val).claim s t ∧
      (∀ l, next ≤ l → l < next + k → FormatLineGoes base l t) ∧
      (k = 0 → t.outstanding = s.outstanding.filter (fun x => x.tag != tag.val)) := by
  have hrow := h.row_ok
  have hat := h.at_lineWritten
  have hchan := chan_lineWritten c.val tag.val s
  obtain ⟨u, hu⟩ : ∃ u, u = lineWritten c.val tag.val s := ⟨_, rfl⟩
  rw [← hu] at hrow hat hchan
  have hlines : tagLineCount u = tagLineCount s := by rw [hu]; rfl
  have hstart : u.progress = s.progress + 1 := by rw [hu]; rfl
  have hwrites : formatWrites u = n := by rw [← hn, hu]; rfl
  have hw := hat.wroteLines (k := k) (next := next) h.runs.quiet c.isLt rfl h.phase h.runs.ending h.work (by omega)
    (by rw [hu]; exact hT) (by rw [hu]; rfl) (by rw [hwrites, hlines]; exact hk)
  refine ⟨_, hrow, ?_, ?_, ?_, ⟨?_, fun x hx => ?_⟩, hw.lines, fun h0 => ?_⟩
  · rw [hw.progress, hstart]
  · rw [hw.mode, hu]; rfl
  · rw [hw.tagBase, hu]; rfl
  · rw [hw.channel, hchan, if_pos rfl, ← hwait]
  · rw [hw.others x hx, hchan, if_neg hx]
  · rw [hw.outstanding h0, hu]; rfl

end

/-! ### The two ends of FORMAT (R35, R36) -/

theorem reportOf_format {a : Active} {base next : Nat} {lowest : Option Nat} (hf : a.work = .format base next lowest)
    (s : State) : reportOf a s =
      { finished := s.progress, remaining := tagLineCount s - s.progress, next := 4 * optMin lowest next
        w0 := base, w1 := tagRegionSize s } := by
  rw [reportOf, hf]

/-- A command whose next step completes it in state v: its end, and what the end of the step keeps of v. -/
theorem At.completes {c : Nat} {a a' : Active} {s u v : State} {r : Result} {p : Report} (h : Runs c a s) (hc : c < 4)
    (hat : At c a' s u) (hw : a'.wait = .running) (hb : a'.block = a.block)
    (hu : chan u c = { chan s c with active := some a' }) (hch : v.channels = u.channels) (hr : SameRest u v)
    (hproduced : v.produced = s.produced) (hstep : chanStep c a' u = completeWork c r p v) {t : State}
    (ht : t = finish (issueProduced s (settle u))) :
    Ends c a r p s t ∧ t.mode = v.mode ∧ t.tagBase = v.tagBase ∧ t.progress = v.progress ∧
      ∀ n, (sourceOf v n).pending = true → (sourceOf t n).pending = true := by
  obtain ⟨-, -, hcontrol, hwork, hundo, hwarm, hquiet⟩ := h
  have hv : At c a' s v := hat.congr hch hr
  have hvc : chan v c = { chan s c with active := some a' } := by
    rw [← hu, chan, hch]; rfl
  have hvw : v.warm = none := by rw [hv.rest.warm]; exact hwarm
  obtain ⟨w, hcome, hends, hwv⟩ := ends_of hquiet hc (a := a) (r := r) (p := p) hcontrol hwork hundo hwarm hb
    (by rw [hvc]) hv.others hv.rest
  have hsettle : settle u = w := settle_to (hat.step hquiet hc hw (hstep ▸ hcome)) (by decide)
  obtain ⟨hdone, hother⟩ := sourceOf_completeWork hv.active hvw r p
  rw [hsettle, issueProduced_same w (by rw [hwv, setChan_produced, completeWork_produced, hproduced])] at ht
  subst ht
  refine ⟨hends, ?_, ?_, ?_, fun n hn => ?_⟩
  · rw [finish_mode, hwv, setChan_mode, completeWork_mode]
  · rw [finish_tagBase, hwv, setChan_tagBase, completeWork_tagBase]
  · rw [finish_progress, hwv, setChan_progress, completeWork_progress]
  · rw [sourceOf_finish_pending, hwv, sourceOf_setChan]
    by_cases hnc : n = 7 + c
    · rw [hnc]; exact hdone
    · rw [hother n hnc]; exact hn

/-- The part as FORMAT completes: OPERATIONAL, with FORMAT_DONE raised (R35). -/
def formatOpened (s : State) : State := raise .formatDone { s with mode := .operational }

theorem formatOpened_shape (s : State) :
    formatOpened s = { s with mode := .operational, notices := (formatOpened s).notices } := by
  rw [formatOpened, raise_shape]

theorem formatComplete_eq {c : Nat} {a : Active} {s : State} (ha : (chan s c).active = some a) :
    formatComplete c s = completeWork c .done (reportOf a (formatOpened s)) (formatOpened s) := by
  have hactive : (chan (formatOpened s) c).active = some a := by
    rw [formatOpened_shape]; exact ha
  rw [formatComplete]
  exact doneWork_eq hactive

/-- The last OK write completes FORMAT (R35). -/
theorem LineEnds.completes {tag : Fin 1024} {o : Outstanding} {line : Nat} {c : Fin 4} {a : Active} {base next : Nat}
    {s : State} (h : LineEnds tag o line c a base next s) (hlast : s.progress + 1 = tagLineCount s)
    (hnext : next = tagLineCount s) :
    ∃ t, exec (.formatWriteCompletion tag .ok) s = .next t ∧ t.progress = s.progress + 1 ∧
      t.mode = .operational ∧ t.tagBase = s.tagBase ∧ (sourceOf t 13).pending = true ∧
      Ends c.val a .done
        { finished := tagLineCount s, next := 4 * tagLineCount s, w0 := base, w1 := tagRegionSize s } s t := by
  have hrow := h.row_ok
  have hat := h.at_lineWritten
  have hchan := chan_lineWritten c.val tag.val s
  obtain ⟨u, hu⟩ : ∃ u, u = lineWritten c.val tag.val s := ⟨_, rfl⟩
  rw [← hu] at hrow hat hchan
  have hlines : u.progress = tagLineCount u := by rw [hu]; exact hlast
  have hprogress : (formatOpened u).progress = tagLineCount s := by rw [formatOpened_shape, hu]; exact hlast
  have hsize : (formatOpened u).size = s.size := by rw [formatOpened_shape, hu]; rfl
  have hreport : reportOf { a with wait := .running } (formatOpened u) =
      { finished := tagLineCount s, next := 4 * tagLineCount s, w0 := base, w1 := tagRegionSize s } := by
    rw [reportOf_format (a := { a with wait := .running }) h.work, hprogress, tagLineCount_congr hsize, tagRegionSize,
      hsize, hnext, Nat.sub_self, optMin, Option.getD_none, Nat.min_self]
    rfl
  have hstep : chanStep c.val { a with wait := .running } u = completeWork c.val .done
      { finished := tagLineCount s, next := 4 * tagLineCount s, w0 := base, w1 := tagRegionSize s }
      (formatOpened u) := by
    rw [chanStep_format (a := { a with wait := .running }) h.phase h.work,
      formatStep_completes (a := { a with wait := .running }) h.runs.ending hlines,
      formatComplete_eq hat.active, hreport]
  obtain ⟨hends, hmode, hT, hprog, hsource⟩ := At.completes h.runs c.isLt hat rfl rfl
    (by rw [hchan, if_pos rfl, h.runs.active]; rfl) (by rw [formatOpened_shape])
    (by rw [formatOpened_shape]; exact ⟨rfl, rfl, rfl, rfl, rfl⟩) (by rw [formatOpened_shape, hu]; rfl) hstep rfl
  refine ⟨_, hrow, ?_, ?_, ?_, hsource 13 (sourceOf_raise_same _ .formatDone), hends⟩
  · rw [hprog, hprogress, hlast]
  · rw [hmode, formatOpened_shape]
  · rw [hT, formatOpened_shape, hu]; rfl

/-- The state in which FORMAT makes its next step after a failed write, with no other line without a tag (R36). -/
def lineFailed (c tag base next line : Nat) (s : State) : State :=
  goWait c .running (goEnding c .downstreamError (goWork c (.format base next (some line))
    (goWork c (.format base next (some line)) (retireTag tag s))))

/-- The stop changes the channel's command only. -/
theorem lineFailed_shape (c tag base next line : Nat) (s : State) : lineFailed c tag base next line s =
    { retireTag tag s with channels := (lineFailed c tag base next line s).channels } := rfl

theorem chan_lineFailed {c : Nat} {a : Active} {s : State} (ha : (chan s c).active = some a) (he : a.ending = none)
    (tag base next line x : Nat) : chan (lineFailed c tag base next line s) x =
      if x = c then
        { chan s c with active := some { a with
          work := .format base next (some line), wait := .running, ending := some .downstreamError } }
      else chan s x := by
  rw [lineFailed, chan_goWait]
  by_cases hx : x = c
  · rw [if_pos hx, if_pos hx, chan_goEnding, if_pos rfl, chan_goWork, if_pos rfl, chan_goWork, if_pos rfl,
      chan_retireTag, ha]
    simp [he]
  · simp only [if_neg hx, chan_goEnding, chan_goWork, chan_retireTag]

theorem keepJobs_of_all {keep : OwnJob → Bool} {s : State} (h : ∀ j ∈ waitingJobs s, keep j = true) :
    keepJobs keep s = s := by
  have hw : s.tagWaits.filter keep = s.tagWaits :=
    List.filter_eq_self.2 fun j hj => h j (List.mem_append_left _ hj)
  have hp : s.produced.filter keep = s.produced :=
    List.filter_eq_self.2 fun j hj => h j (List.mem_append_right _ hj)
  rw [keepJobs, hw, hp]

/-- A stop of FORMAT with no line without a tag drops nothing (R36, R37). -/
theorem formatStop_eq {c base next : Nat} {lowest : Option Nat} {r : Result} {a : Active} {s : State}
    (ha : (chan s c).active = some a) (hf : a.work = .format base next lowest)
    (hnone : ∀ j ∈ waitingJobs s, jobClass j ≠ .formatWrite) :
    formatStop c r s = goWait c .running (goEnding c r (goWork c (.format base next lowest) s)) := by
  obtain ⟨block, work, phase, wait, ending⟩ := a
  cases hf
  rw [formatStop, ha]
  dsimp only
  rw [keepJobs_of_all fun j hj => by simpa using hnone j hj, List.filterMap_eq_nil_iff.2]
  · rfl
  · intro j hj
    cases j with
    | formatLine l => exact absurd rfl (hnone _ hj)
    | _ => rfl

theorem LineEnds.row_error {tag : Fin 1024} {o : Outstanding} {line : Nat} {c : Fin 4} {a : Active} {base next : Nat}
    {s : State} (h : LineEnds tag o line c a base next s)
    (hnone : ∀ j ∈ waitingJobs s, jobClass j ≠ .formatWrite) :
    exec (.formatWriteCompletion tag .error) s =
      .next (finish (issueProduced s (settle (lineFailed c.val tag.val base next line s)))) := by
  have hc : formatChannel (retireTag tag.val s) = some c.val := h.formatChannel_eq
  have ha : (chan (retireTag tag.val s) c.val).active = some a := h.runs.active
  have hwork := h.work
  have hended : formatWriteEnded line false (retireTag tag.val s) = lineFailed c.val tag.val base next line s := by
    have hmin : optMin none line = line := Nat.min_self line
    clear h
    obtain ⟨block, work, phase, wait, ending⟩ := a
    cases hwork
    rw [formatWriteEnded, hc]
    dsimp only
    rw [if_neg (by decide), ha]
    dsimp only
    rw [hmin]
    exact formatStop_eq (by rw [chan_goWork, if_pos rfl, ha]; rfl) rfl hnone
  rw [h.row, ← hended]
  rfl

/-- An ERROR with no other write left returns the part to UNFORMATTED (R36). -/
theorem LineEnds.fails {tag : Fin 1024} {o : Outstanding} {line : Nat} {c : Fin 4} {a : Active} {base next : Nat}
    {s : State} (h : LineEnds tag o line c a base next s)
    (hout : ∀ x ∈ s.outstanding, x.tag ≠ tag.val → jobClass x.job ≠ .formatWrite)
    (hwaits : ∀ j ∈ waitingJobs s, jobClass j ≠ .formatWrite) :
    ∃ t, exec (.formatWriteCompletion tag .error) s = .next t ∧ t.mode = .unformatted ∧ t.tagBase = none ∧
      t.progress = s.progress ∧
      Ends c.val a .downstreamError
        { finished := s.progress, remaining := tagLineCount s - s.progress, next := 4 * min line next
          w0 := base, w1 := tagRegionSize s } s t := by
  have hrow := h.row_error hwaits
  obtain ⟨u, hu⟩ : ∃ u, u = lineFailed c.val tag.val base next line s := ⟨_, rfl⟩
  obtain ⟨a', ha'⟩ : ∃ a' : Active, a' =
    { a with work := .format base next (some line), wait := .running, ending := some .downstreamError } := ⟨_, rfl⟩
  obtain ⟨v, hv⟩ : ∃ v : State, v = { u with mode := .unformatted, tagBase := none } := ⟨_, rfl⟩
  rw [← hu] at hrow
  have hshape : u = { retireTag tag.val s with channels := u.channels } := by
    rw [hu]; exact lineFailed_shape c.val tag.val base next line s
  have hchan : ∀ x, chan u x = if x = c.val then { chan s c.val with active := some a' } else chan s x := by
    intro x
    rw [hu, ha', chan_lineFailed h.runs.active h.runs.ending]
  have hat : At c.val a' s u := h.runs.at_of_chan c.isLt hchan (by rw [hshape]; exact ⟨rfl, rfl, rfl, rfl, rfl⟩)
  have hnone : formatWrites u = 0 := by
    rw [hshape]
    refine formatWrites_eq_zero (fun o ho => ?_) hwaits
    obtain ⟨hmem, hne⟩ := List.mem_filter.1 ho
    exact hout o hmem (by simpa using hne)
  have hsize : v.size = s.size := by rw [hv, hshape]; rfl
  have hprogress : v.progress = s.progress := by rw [hv, hshape]; rfl
  have hreport : reportOf a' v =
      { finished := s.progress, remaining := tagLineCount s - s.progress, next := 4 * min line next
        w0 := base, w1 := tagRegionSize s } := by
    rw [reportOf_format (by rw [ha']), hprogress, tagLineCount_congr hsize, tagRegionSize, hsize]
    rfl
  have hstep : chanStep c.val a' u = completeWork c.val .downstreamError
      { finished := s.progress, remaining := tagLineCount s - s.progress, next := 4 * min line next
        w0 := base, w1 := tagRegionSize s } v := by
    have hclean : cleanUp c.val a'.work u = v := by rw [ha', hv]; rfl
    rw [chanStep_format (by rw [ha']; exact h.phase) (by rw [ha']), formatStep_stops (by rw [ha']) hnone,
      stopWork, hat.active]
    dsimp only
    rw [hclean, hreport]
  obtain ⟨hends, hmode, hT, hprog, -⟩ := At.completes h.runs c.isLt hat (by rw [ha']) (by rw [ha'])
    (by rw [hchan, if_pos rfl]) (by rw [hv]) (by rw [hv]; exact ⟨rfl, rfl, rfl, rfl, rfl⟩)
    (by rw [hv, hshape]; rfl) hstep rfl
  refine ⟨_, hrow, ?_, ?_, ?_, hends⟩
  · rw [hmode, hv]
  · rw [hT, hv]
  · rw [hprog, hprogress]

/-- Settles O52: the row of the start, the row of the drain's end, and the three ends that a format write can have. -/
theorem formatWritesEveryTagLineAndOpensThePart : Obligations.FormatWritesEveryTagLineAndOpensThePart := by
  refine ⟨format_row, formatDrainDone_row, fun tag o line c a base next s ho hj hruns hfirst hf hp hwait => ?_⟩
  have h : LineEnds tag o line c a base next s := ⟨ho, hj, hruns, hfirst, hf, hp⟩
  exact ⟨fun n k hleft hT hn hk => h.goesOn hwait hleft hT hn hk, h.completes, h.fails⟩

end Sys2Proof.Machine
end

section
/-!
PROOFS. What every step keeps of the tables, lists, queues and response slots (1.3, R165): O17.  `Formed` says within a
step what `Sound` says between steps: the requests that the step has produced are not issued yet (R10), and a channel
may owe a response besides those of its active command and of the warm reset (R168).  One lemma per operation, in the order
of the model's files.
-/

namespace Sys2Proof.Machine

/-! ### Entries of a table, listed or not -/

theorem tblGet_of_mem {α : Type} {t : Table α} (h : tblWf t = true) {p : Nat × α} (hp : p ∈ t) :
    tblGet t p.1 = some p.2 := by
  rw [tblWf_iff] at h
  induction t with
  | nil => cases hp
  | cons q t ih =>
    obtain ⟨hlt, ht⟩ := List.pairwise_cons.1 h
    rcases List.mem_cons.1 hp with rfl | hmem
    · simp [tblGet]
    · have hne : q.1 ≠ p.1 := Nat.ne_of_lt (hlt p hmem)
      simpa [tblGet, hne] using ih ht hmem

/-- A table in its one form whose entry at every index, listed or not, meets a condition. -/
structure Fits {α : Type} (d : Nat → α) (P : Nat → α → Prop) (t : Table α) : Prop where
  form : TableForm d t
  each : ∀ x, P x ((tblGet t x).getD (d x))

section
variable {α : Type} {d : Nat → α} {P Q : Nat → α → Prop} {t : Table α}

theorem Fits.listed (h : Fits d P t) {p : Nat × α} (hp : p ∈ t) : P p.1 p.2 := by
  have hat := h.each p.1
  rwa [tblGet_of_mem h.form.1 hp] at hat

theorem Fits.of_listed (hform : TableForm d t) (hd : ∀ x, tblGet t x = none → P x (d x)) (hp : ∀ p ∈ t, P p.1 p.2) :
    Fits d P t where
  form := hform
  each x := by
    cases hx : tblGet t x with
    | none => exact hd x hx
    | some v => exact hp _ (mem_of_tblGet hx)

theorem Fits.mono (h : Fits d P t) (hPQ : ∀ x v, P x v → Q x v) : Fits d Q t := ⟨h.form, fun x => hPQ x _ (h.each x)⟩

theorem Fits.set [DecidableEq α] (h : Fits d P t) {x : Nat} {v : α} (hv : P x v) : Fits d P (tblSet (d x) t x v) where
  form := h.form.set x v
  each y := by
    rw [tblGet_tblSet_getD]
    split
    next hy => exact hy ▸ hv
    next => exact h.each y

end

/-! ### The form of a state within a step -/

/-- A domain's entry: a guest's is not ROOT (R90), and its violation counter is in range (R89). -/
def DomainFits (d : Nat) (e : Domain) : Prop := (d ≠ 0 → e.state ≠ .root) ∧ e.violations ≤ Config.violationMax

/-- A channel that keeps at least n response slots reserved besides that of its active command (R165). -/
structure ChannelFits (n : Nat) (e : Channel) : Prop where
  control  : e.control.length ≤ Config.queueDepth
  work     : e.work.length ≤ Config.queueDepth
  slots    : e.ready.length + e.reserved ≤ Config.responseSlots
  reserved : (if e.active = none then 0 else 1) + n ≤ e.reserved

/-- The responses that channel c owes besides that of its active command: one for the warm reset it has taken (R173),
and one if it is the channel o, whose command is being taken in this step (R168). -/
def owed (o : Option Nat) (warm : Option WarmReset) (c : Nat) : Nat :=
  (if o = some c then 1 else 0) + if warm.map (·.channel) = some c then 1 else 0

/-- A notice source: one of the four classes, and pending if it is notified (R189). -/
def SourceFits (m : Source) : Prop := m.cls ≤ 3 ∧ (m.notified = true → m.pending = true)

/-- The form of the tables and lists that a state holds. -/
structure FormedOf (o : Option Nat) (domains : Table Domain) (channels : Table Channel) (warm : Option WarmReset)
    (slots : Table Slot) (regions : Table Region) (notices : Table Source) (results : Table LastResult)
    (lru : Table (List Nat)) (grants : Table Grant) (inFlight : Table InFlight) (units : Table Zeroing)
    (ways : Table Way) (fills : List Fill) (log : List Violation) (poisonList : List PoisonEntry)
    (missQueue : List Miss) (requests : List GuestRequest) (corrected : Nat) : Prop where
  domains  : Fits Domain.resetOf DomainFits domains
  channels : Fits (fun _ => Channel.reset) (fun c => ChannelFits (owed o warm c)) channels
  slots    : Fits (fun _ => Slot.reset) (fun _ e => e.queue.length ≤ Config.trackQueue) slots
  regions  : TableForm (fun _ => Region.reset) regions
  notices  : Fits Source.resetOf (fun _ => SourceFits) notices
  results  : TableForm (fun _ => LastResult.reset) results
  sets     : ∀ p ∈ lru, p.1 < Config.cacheSets
  lru      : Fits (fun _ => lruReset) (fun _ l => l.Perm lruReset) lru
  grants   : TableBelow Config.grantEntries grants
  inFlight : TableBelow Config.inFlightEntries inFlight
  units    : TableBelow Config.scrubUnits units
  ways     : TableBelow (Config.cacheWays * Config.cacheSets) ways
  fillWays : ∀ f ∈ fills, ∀ w, f.way = some w → w < Config.cacheWays
  fills    : fills.length ≤ Config.fillEntries
  log      : log.length ≤ Config.logRecords
  poison   : poisonList.length ≤ Config.poisonEntries
  misses   : missQueue.length ≤ Config.missEntries
  requests : requests.length ≤ Config.requestQueue
  correct  : corrected ≤ Config.correctedMax

/-- What `Sound` says between steps, within a step in which channel o, if there is one, owes one response more. -/
def Formed (o : Option Nat) (s : State) : Prop :=
  FormedOf o s.domains s.channels s.warm s.slots s.regions s.notices s.results s.lru s.grants s.inFlight s.units
    s.ways s.fills s.log s.poisonList s.missQueue s.requests s.corrected

/-- Sound is the form of a state between steps, in which no produced request stands. -/
theorem sound_iff {s : State} : Sound s ↔ Formed none s ∧ s.produced = [] := by
  constructor
  · intro h
    refine ⟨?_, h.produced⟩
    exact
      { h with
        domains := .of_listed h.domains
          (fun d _ => by by_cases hd : d = 0 <;> simp [DomainFits, Domain.resetOf, Domain.reset, hd])
          (fun p hp => ⟨h.guests p hp, h.counters p hp⟩)
        channels := .of_listed h.channels
          (fun c hc => by
            have hw : s.warm.map (·.channel) ≠ some c := by
              intro hw
              obtain ⟨w, hw', rfl⟩ := Option.map_eq_some_iff.1 hw
              have := h.resetSlot w (by simp [hw'])
              simp [chan, hc, Channel.reset] at this
            constructor <;> simp [Channel.reset, owed, hw])
          (fun p hp => by
            have hc : chan s p.1 = p.2 := by simp [chan, tblGet_of_mem h.channels.1 hp]
            refine ⟨(h.queues p hp).1, (h.queues p hp).2, h.responses p hp, ?_⟩
            by_cases hw : s.warm.map (·.channel) = some p.1
            · obtain ⟨w, hw', hwc⟩ := Option.map_eq_some_iff.1 hw
              have := h.resetSlot w (by simp [hw'])
              rw [hwc, hc] at this
              simp only [owed, hw]
              split at this <;> simp_all
            · have := h.reservations p hp
              simp only [owed, hw]
              split <;> simp_all)
        slots := .of_listed h.slots (fun _ _ => Nat.zero_le _) h.dirtyQueues
        notices := .of_listed h.notices
          (fun n _ => by
            refine ⟨?_, by simp [Source.resetOf]⟩
            unfold Source.resetOf
            dsimp only
            split <;> decide)
          h.sources
        lru := .of_listed h.lru (fun _ _ => .refl _) fun p hp => (h.orders p hp).2
        sets := fun p hp => (h.orders p hp).1
        fillWays := fun f hf w hw => h.fillWays f hf w (by simp [hw]) }
  · rintro ⟨h, hproduced⟩
    exact
      { h with
        domains := h.domains.form, channels := h.channels.form, slots := h.slots.form, notices := h.notices.form
        lru := h.lru.form, produced := hproduced
        orders := fun p hp => ⟨h.sets p hp, h.lru.listed hp⟩
        fillWays := fun f hf w hw => h.fillWays f hf w (by simpa using hw)
        guests := fun p hp => (h.domains.listed hp).1
        counters := fun p hp => (h.domains.listed hp).2
        queues := fun p hp => ⟨(h.channels.listed hp).control, (h.channels.listed hp).work⟩
        responses := fun p hp => (h.channels.listed hp).slots
        reservations := fun p hp ha => by
          have := (h.channels.listed hp).reserved
          rw [if_neg ha] at this
          omega
        resetSlot := fun w hw => by
          have := (h.channels.each w.channel).reserved
          have hw' : s.warm = some w := by simpa using hw
          simp only [owed, hw', Option.map_some, if_true] at this
          unfold chan
          split at this <;> rename_i ha <;> simp [ha] <;> omega
        dirtyQueues := fun p hp => h.slots.listed hp
        sources := fun p hp => h.notices.listed hp }

variable {o : Option Nat} {s : State}

/-! ### What is read of a state of the form -/

theorem Formed.domain (h : Formed o s) (d : Nat) : DomainFits d (dom s d) := h.domains.each d
theorem Formed.channel (h : Formed o s) (c : Nat) : ChannelFits (owed o s.warm c) (chan s c) := h.channels.each c
theorem Formed.slot (h : Formed o s) (k : Nat) : (slotOf s k).queue.length ≤ Config.trackQueue := h.slots.each k
theorem Formed.source (h : Formed o s) (n : Nat) : SourceFits (sourceOf s n) := h.notices.each n
theorem Formed.order (h : Formed o s) (set : Nat) : (lruOf s set).Perm lruReset := h.lru.each set

theorem Formed.foldl {α : Type} {f : State → α → State} (h : Formed o s) (hf : ∀ s x, Formed o s → Formed o (f s x))
    (l : List α) : Formed o (l.foldl f s) := by
  induction l generalizing s with
  | nil => exact h
  | cons x l ih => exact ih (hf s x h)

/-! ### Tables (Ops) -/

theorem Formed.writeDom (h : Formed o s) {d : Nat} {e : Domain} (he : DomainFits d e) : Formed o (setDom d e s) :=
  { h with domains := h.domains.set he }

/-- An entry is written whose state and violation counter stand. -/
theorem Formed.setDom (h : Formed o s) {d : Nat} {e : Domain}
    (he : (e.state, e.violations) = ((dom s d).state, (dom s d).violations)) : Formed o (setDom d e s) := by
  obtain ⟨hs, hv⟩ := Prod.mk.inj he
  exact h.writeDom ⟨hs ▸ (h.domain d).1, hv ▸ (h.domain d).2⟩

/-- An entry is written with a state other than ROOT, and its violation counter stands or is cleared. -/
theorem Formed.setState (h : Formed o s) {d : Nat} {e : Domain} (hs : e.state ≠ .root)
    (hv : e.violations = (dom s d).violations ∨ e.violations = 0) : Formed o (Machine.setDom d e s) :=
  h.writeDom ⟨fun _ => hs, hv.elim (fun hv => hv ▸ (h.domain d).2) fun hv => hv ▸ Nat.zero_le _⟩

/-- One channel is written, and what the channels owe changes at that channel only. -/
theorem Formed.writeChanOwed {o' : Option Nat} {w : Option WarmReset} (h : Formed o s) {c : Nat} {e : Channel}
    (howed : ∀ x, x ≠ c → owed o' w x = owed o s.warm x) (he : ChannelFits (owed o' w c) e) :
    Formed o' (setChan c e { s with warm := w }) :=
  { h with
    channels :=
      { form := h.channels.form.set c e
        each := fun x => by
          have hread : (tblGet (setChan c e s).channels x).getD Channel.reset = if x = c then e else chan s x :=
            chan_setChan s c x e
          refine hread ▸ ?_
          split
          next hx => exact hx ▸ he
          next hx => exact (howed x hx).symm ▸ h.channel x } }

theorem Formed.writeChan (h : Formed o s) {c : Nat} {e : Channel} (he : ChannelFits (owed o s.warm c) e) :
    Formed o (setChan c e s) :=
  h.writeChanOwed (w := s.warm) (fun _ _ => rfl) he

/-- A channel is written whose queues, responses and reservations stand, and which has no command more. -/
theorem Formed.setChan (h : Formed o s) {c : Nat} {e : Channel}
    (he : (e.control, e.work, e.ready, e.reserved) =
      ((chan s c).control, (chan s c).work, (chan s c).ready, (chan s c).reserved))
    (ha : (chan s c).active = none → e.active = none) : Formed o (setChan c e s) := by
  simp only [Prod.mk.injEq] at he
  obtain ⟨hctl, hwork, hready, hres⟩ := he
  obtain ⟨hctl', hwork', hslots, hreserved⟩ := h.channel c
  refine h.writeChan ⟨hctl ▸ hctl', hwork ▸ hwork', by rw [hready, hres]; exact hslots, ?_⟩
  rw [hres]
  by_cases hn : (chan s c).active = none
  · simpa [hn, ha hn] using hreserved
  · rw [if_neg hn] at hreserved
    split <;> omega

theorem Formed.setSlot (h : Formed o s) {k : Nat} {e : Slot} (he : e.queue.length ≤ (slotOf s k).queue.length) :
    Formed o (setSlot k e s) :=
  { h with slots := h.slots.set (he.trans (h.slot k)) }

theorem Formed.setRegion (h : Formed o s) {i : Nat} {e : Region} : Formed o (setRegion i e s) :=
  { h with regions := h.regions.set i e }

theorem Formed.setSource (h : Formed o s) {n : Nat} {m : Source} (hm : SourceFits m) : Formed o (setSource n m s) :=
  { h with notices := h.notices.set hm }

theorem Formed.setResult (h : Formed o s) {d : Nat} {e : LastResult} : Formed o (setResult d e s) :=
  { h with results := h.results.set d e }

theorem Formed.setGrant (h : Formed o s) {i : Nat} {g : Grant} (hi : i < Config.grantEntries) :
    Formed o (setGrant i g s) :=
  { h with grants := h.grants.put hi g }

theorem Formed.setUnit (h : Formed o s) {u : Nat} {z : Zeroing} (hu : u < Config.scrubUnits) :
    Formed o (setUnit u z s) :=
  { h with units := h.units.put hu z }

theorem Formed.idleUnit (h : Formed o s) {u : Nat} : Formed o (idleUnit u s) :=
  { h with units := h.units.del u }

theorem Formed.mapActive (h : Formed o s) {c : Nat} {f : Active → Active} : Formed o (mapActive c f s) :=
  h.setChan rfl fun ha => by rw [ha]; rfl

theorem Formed.goPhase (h : Formed o s) {c : Nat} {p : Phase} {w : Wait} : Formed o (goPhase c p w s) := h.mapActive
theorem Formed.goWait (h : Formed o s) {c : Nat} {w : Wait} : Formed o (goWait c w s) := h.mapActive
theorem Formed.goWork (h : Formed o s) {c : Nat} {w : Work} : Formed o (goWork c w s) := h.mapActive
theorem Formed.goEnding (h : Formed o s) {c : Nat} {r : Result} : Formed o (goEnding c r s) := h.mapActive
theorem Formed.setClaim (h : Formed o s) {c : Nat} {g : Option Nat} : Formed o (setClaim c g s) := h.setChan rfl id

end Sys2Proof.Machine
end

section
namespace Sys2Proof.Machine
variable {o : Option Nat} {s : State}

/-! ### Notices, violations and responses (Flags) -/

theorem Formed.raise (h : Formed o s) {n : NoticeName} : Formed o (raise n s) := by
  unfold Machine.raise
  dsimp only
  split
  · exact h
  · exact h.setSource ⟨(h.source _).1, fun hn => absurd hn Bool.false_ne_true⟩

/-- A packet is placed for a pending source only. -/
theorem Formed.placeNotice (h : Formed o s) : Formed o (placeNotice s) := by
  unfold Machine.placeNotice
  split
  · exact h
  · split
    · exact h
    · rename_i n hn
      have hcand : isCandidate s n = true := by
        obtain ⟨k, -, hk⟩ := List.exists_of_findSome?_eq_some hn
        exact (List.mem_filter.1 (List.mem_of_find?_eq_some hk)).2
      simp only [isCandidate, Bool.and_eq_true] at hcand
      exact Formed.setSource (s := { s with noticeSlot := _ }) h ⟨(h.source n).1, fun _ => hcand.1.1⟩

theorem Formed.placeTx (h : Formed o s) : Formed o (placeTx s) := by
  unfold Machine.placeTx
  dsimp only
  (repeat' split) <;> exact h

theorem Formed.placeOffer (h : Formed o s) : Formed o (placeOffer s) := by
  unfold Machine.placeOffer
  split <;> exact h

theorem Formed.finish (h : Formed o s) : Formed o (finish s) := h.placeNotice.placeTx.placeOffer

theorem Formed.enterCause (h : Formed o s) {c : Cause} : Formed o (enterCause c s) := by
  unfold Machine.enterCause
  split
  · exact h
  · split
    · exact Formed.raise (by exact h)
    · exact Formed.raise (by exact h)
    · exact h

theorem Formed.logViolation (h : Formed o s) {v : Violation} : Formed o (logViolation v s) := by
  unfold Machine.logViolation
  split
  · exact Formed.raise (s := { s with log := [v] }) { h with log := Nat.le_of_ble_eq_true rfl }
  · split
    · rename_i hlt
      exact { h with log := by rw [List.length_append]; exact hlt }
    · exact h.raise

theorem Formed.fenceTest (h : Formed o s) {d : Nat} : Formed o (fenceTest d s) := by
  unfold Machine.fenceTest
  dsimp only
  split
  · exact Formed.raise (by exact h.setState nofun (.inl rfl))
  · exact h

theorem Formed.countViolation (h : Formed o s) {d address : Nat} : Formed o (countViolation d address s) := by
  unfold Machine.countViolation
  exact Formed.fenceTest (by exact h.writeDom ⟨(h.domain d).1, Nat.min_le_right _ _⟩)

theorem Formed.violate (h : Formed o s) {d : Nat} {write : Bool} {address : Nat} {reason : Reason}
    {seen : Option TagRecord} : Formed o (violate d write address reason seen s) := by
  unfold Machine.violate
  dsimp only
  split
  · exact h.logViolation.countViolation
  · exact h.logViolation

theorem Formed.decideFor (h : Formed o s) {r : Request} {status : Status} {data : Line} :
    Formed o (decideFor r status data s) := h

theorem Formed.answer (h : Formed o s) {r : Request} {status : Status} : Formed o (answer r status s) := h

/-- A response takes a free slot of its channel. -/
theorem Formed.pushResponse (h : Formed o s) {c : Nat} {r : Response} (hc : slotFree (chan s c) = true) :
    Formed o (pushResponse c r s) := by
  obtain ⟨hctl, hwork, -, hres⟩ := h.channel c
  have hfree : (chan s c).ready.length + (chan s c).reserved < Config.responseSlots := by simpa [slotFree] using hc
  have hslots : ((chan s c).ready ++ [r]).length + (chan s c).reserved ≤ Config.responseSlots := by
    rw [List.length_append, List.length_singleton]
    omega
  exact (h.writeChan (e := { chan s c with ready := (chan s c).ready ++ [r] }) ⟨hctl, hwork, hslots, hres⟩).raise

theorem owed_self (warm : Option WarmReset) (c : Nat) : owed (some c) warm c = owed none warm c + 1 := by
  simp [owed, Nat.add_comm]

theorem owed_ne (warm : Option WarmReset) {c x : Nat} (hx : x ≠ c) : owed (some c) warm x = owed none warm x := by
  simp [owed, Ne.symm hx]

/-- A state in which channel c owes a response more is of the form once that channel fits without it. -/
theorem Formed.settleOwed {c : Nat} (h : Formed (some c) s) {e : Channel} (he : ChannelFits (owed none s.warm c) e) :
    Formed none (Machine.setChan c e s) :=
  h.writeChanOwed (w := s.warm) (fun _ hx => (owed_ne _ hx).symm) he

/-- The response that a channel owes takes the slot reserved for it (R170). -/
theorem Formed.respond {c : Nat} (h : Formed (some c) s) {b : Line} {r : Result} {p : Report} :
    Formed none (respond c b r p s) := by
  obtain ⟨hctl, hwork, hslots, hres⟩ := h.channel c
  rw [owed_self] at hres
  have hless : (chan s c).ready.length + ((chan s c).reserved - 1) < Config.responseSlots := by omega
  refine (h.settleOwed (e := { chan s c with reserved := (chan s c).reserved - 1 })
    ⟨hctl, hwork, hless.le, by dsimp only; omega⟩).pushResponse ?_
  rw [chan_setChan, if_pos rfl, slotFree, decide_eq_true_eq]
  exact hless

/-- The active command ends with the response that it owes, or without one in a warm reset (R170, R173). -/
theorem Formed.completeWork (h : Formed none s) {c : Nat} {r : Result} {p : Report} :
    Formed none (completeWork c r p s) := by
  unfold Machine.completeWork
  split
  · exact h
  · rename_i a ha
    obtain ⟨hctl, hwork, hslots, hres⟩ := h.channel c
    rw [if_neg (by rw [ha]; exact Option.some_ne_none a)] at hres
    dsimp only
    split
    · rename_i w hw
      have hcleared : Formed none
          (Machine.setChan c { chan s c with active := none, stop := false, claim := none } s) :=
        h.setChan rfl fun _ => rfl
      have howed : ∀ x, owed none (some { w with stopped := w.stopped + 1 }) x = owed none s.warm x := fun x => by
        rw [show s.warm = some w from hw]
        rfl
      refine hcleared.writeChanOwed (w := some { w with stopped := w.stopped + 1 }) (fun x _ => howed x) ?_
      rw [howed, chan_setChan, if_pos rfl]
      exact ⟨hctl, hwork, (Nat.add_le_add_left (Nat.sub_le _ _) _).trans hslots, by rw [if_pos rfl]; dsimp only; omega⟩
    · refine Formed.setChan (Formed.respond ?_) rfl id
      refine h.writeChanOwed (w := s.warm) (fun x hx => owed_ne _ hx) ⟨hctl, hwork, hslots, ?_⟩
      rw [owed_self, if_pos rfl]
      dsimp only
      omega

/-! ### The downstream port -/

/-- The Fill Table changes entry by entry, each keeping its way or taking one of its set. -/
theorem Formed.mapFills (h : Formed o s) {f : Fill → Fill}
    (hf : ∀ x w, (f x).way = some w → x.way = some w ∨ w < Config.cacheWays) :
    Formed o { s with fills := s.fills.map f } :=
  { h with
    fillWays := fun y hy w hw => by
      obtain ⟨x, hx, rfl⟩ := List.mem_map.1 hy
      exact (hf x w hw).elim (h.fillWays x hx w) id
    fills := by rw [List.length_map]; exact h.fills }

theorem Formed.noteIssue (h : Formed o s) {tag : Nat} {job : OwnJob} : Formed o (noteIssue tag job s) := by
  unfold Machine.noteIssue
  split
  · refine h.mapFills fun x w hw => .inl ?_
    split at hw <;> exact hw
  · split
    next hz => exact h.setUnit (h.units.lt hz)
    next => exact h
  · exact h

theorem Formed.sendJob (h : Formed o s) {tag : Nat} {job : OwnJob} : Formed o (sendJob tag job s) :=
  Formed.noteIssue (by exact h)

theorem Formed.produceJob (h : Formed o s) {job : OwnJob} : Formed o (produceJob job s) := h
theorem Formed.keepJobs (h : Formed o s) {keep : OwnJob → Bool} : Formed o (keepJobs keep s) := h

theorem Formed.issueJob (h : Formed o s) {job : OwnJob} : Formed o (issueJob job s) := by
  unfold Machine.issueJob
  split
  · exact h
  · split
    · exact h.sendJob
    · exact h

theorem Formed.issueProduced (h : Formed o s) {old : State} : Formed o (issueProduced old s) :=
  Formed.foldl (by exact h) (fun _ _ h => h.issueJob) _

theorem Formed.grantTag (h : Formed o s) {cls : ReqClass} : Formed o (grantTag cls s) := by
  unfold Machine.grantTag
  split
  · exact Formed.sendJob (by exact h)
  · exact h

theorem Formed.withdrawOffer (h : Formed o s) {tag : Nat} : Formed o (withdrawOffer tag s) := h
theorem Formed.retireTag (h : Formed o s) {tag : Nat} : Formed o (retireTag tag s) := h
theorem Formed.holdTag (h : Formed o s) {tag : Nat} : Formed o (holdTag tag s) := h
theorem Formed.freeHeldTag (h : Formed o s) {tag : Nat} : Formed o (freeHeldTag tag s) := h

theorem Formed.takeOffer (h : Formed o s) : Formed o (takeOffer s) := by
  unfold Machine.takeOffer
  (repeat' split) <;> exact h

theorem Formed.elapse (h : Formed o s) {d : Nat} : Formed o (elapse d s) :=
  { h with inFlight := h.inFlight.map _ fun _ => rfl }

/-! ### Drains and the In-Flight Table -/

theorem Formed.beginDrain (h : Formed o s) {u : DrainUser} {k : DrainKey} : Formed o (beginDrain u k s) := by
  rw [beginDrain_eq]
  split <;> exact h

theorem Formed.withdrawDrains (h : Formed o s) {u : DrainUser} : Formed o (withdrawDrains u s) := h
theorem Formed.mapDrains (h : Formed o s) {f : Drain → Drain} : Formed o (mapDrains f s) := h

theorem Formed.freeEntry (h : Formed o s) {i : Nat} : Formed o (freeEntry i s) :=
  { h with inFlight := h.inFlight.del i }

theorem Formed.allocate (h : Formed o s) {i : Nat} {x : HeldTx} (hi : i < Config.inFlightEntries) :
    Formed o (allocate i x s) :=
  { h with inFlight := h.inFlight.put hi _ }

theorem Formed.forward (h : Formed o s) {x : HeldTx} : Formed o (forward x s) := by
  unfold Machine.forward
  split
  next hi => exact h.allocate (tblFree_lt hi)
  next => exact h

theorem Formed.forwardHeld (h : Formed o s) : Formed o (forwardHeld s) := by
  unfold Machine.forwardHeld
  split
  next hi => exact Formed.mapDrains (Formed.allocate (by exact h) (tblFree_lt hi))
  next => exact h

theorem Formed.completeEntry (h : Formed o s) {e : InFlight} {status : Status} {data : Line} :
    Formed o (completeEntry e status data s) := by
  unfold Machine.completeEntry
  split <;> exact h

theorem Formed.inFlightCompletion (h : Formed o s) {i : Nat} {status : DownStatus} {data : Line} :
    Formed o (inFlightCompletion i status data s) := by
  unfold Machine.inFlightCompletion
  split
  · exact h
  · split
    · exact h
    · split
      · exact h.freeEntry
      · split <;> exact h.completeEntry.freeEntry

theorem completeEntry_inFlight (e : InFlight) (status : Status) (data : Line) (s : State) :
    (completeEntry e status data s).inFlight = s.inFlight := by
  unfold completeEntry
  split <;> rfl

theorem Formed.inFlightTimeout (h : Formed o s) {i : Nat} : Formed o (inFlightTimeout i s) := by
  unfold Machine.inFlightTimeout
  split
  · exact h
  · rename_i e he
    split
    · exact h
    · have ht : Formed o (Machine.completeEntry e .timeout 0 (Machine.elapse (Config.writeTimeout - e.timer) s)) :=
        h.elapse.completeEntry
      refine Formed.raise ?_
      exact { ht with inFlight := (completeEntry_inFlight e _ _ _).symm ▸ h.elapse.inFlight.put (h.inFlight.lt he) _ }

end Sys2Proof.Machine
end

section
namespace Sys2Proof.Machine
variable {o : Option Nat} {s : State}

/-! ### The Tag Cache and the Fill Table -/

/-- An order of a set's ways is one after a way has moved to its most recently used end (R41). -/
theorem perm_moved {l m : List Nat} (h : l.Perm m) (hm : m.Nodup) {x : Nat} (hx : x ∈ m) :
    (l.filter (· != x) ++ [x]).Perm m := by
  rw [← (h.nodup_iff.2 hm).erase_eq_filter x]
  exact (List.perm_append_singleton x _).trans ((List.perm_cons_erase (h.mem_iff.2 hx)).symm.trans h)

theorem mem_lruReset {w : Nat} (hw : w < Config.cacheWays) : w ∈ lruReset := List.mem_range.2 hw

theorem lt_of_mem_lruReset {w : Nat} (hw : w ∈ lruReset) : w < Config.cacheWays :=
  List.mem_range.1 (show w ∈ List.range Config.cacheWays from hw)

theorem wayKey_lt {set way : Nat} (hset : set < Config.cacheSets) (hway : way < Config.cacheWays) :
    wayKey set way < Config.cacheWays * Config.cacheSets := by
  unfold wayKey Config.cacheWays Config.cacheSets at *
  omega

theorem cacheSet_lt (line : Nat) : cacheSet line < Config.cacheSets := Nat.mod_lt _ (by decide)

theorem Formed.touch (h : Formed o s) {key : Nat} (hk : key < Config.cacheWays * Config.cacheSets) :
    Formed o (touch key s) := by
  have hset : key / Config.cacheWays < Config.cacheSets := Nat.div_lt_of_lt_mul hk
  have hway : key % Config.cacheWays ∈ lruReset := mem_lruReset (Nat.mod_lt _ (by decide))
  exact
    { h with
      lru := h.lru.set (x := key / Config.cacheWays) (perm_moved (h.order _) (by decide) hway)
      sets := fun p hp => (mem_tblSet hp).elim (fun hx => hx.1 ▸ hset) (h.sets p) }

theorem Formed.key_lt (h : Formed o s) {line key : Nat} (hk : findKey s line = some key) :
    key < Config.cacheWays * Config.cacheSets :=
  have ⟨_, hw, _⟩ := findKey_some hk
  h.ways.lt hw

theorem Formed.putRecord (h : Formed o s) {g : Nat} {r : TagRecord} : Formed o (putRecord g r s) := by
  unfold Machine.putRecord
  split
  · exact h
  · split
    · exact h
    next hw => exact { h with ways := h.ways.put (h.ways.lt hw) _ }

theorem Formed.chooseWay_lt (h : Formed o s) {set w : Nat} (hw : chooseWay s set = some w) : w < Config.cacheWays := by
  unfold chooseWay at hw
  rcases Option.or_eq_some_iff.1 hw with hw | ⟨-, hw⟩
  · exact List.mem_range.1 (List.mem_of_find?_eq_some hw)
  · exact lt_of_mem_lruReset ((h.order set).mem_iff.1 (List.mem_of_find?_eq_some hw))

theorem Formed.claimFor (h : Formed o s) {serial set way : Nat} (hw : way < Config.cacheWays) :
    Formed o (claimFor serial set way s) := by
  have hclaimed : Formed o { s with
      fills := s.fills.map (fun f => if f.serial = serial then { f with way := some way } else f) } :=
    h.mapFills fun f w hf => by
      split at hf
      · exact .inr (Option.some.inj hf ▸ hw)
      · exact .inl hf
  unfold Machine.claimFor
  dsimp only
  split
  · split <;> exact hclaimed
  · exact hclaimed

theorem Formed.startFill (h : Formed o s) {line : Nat} (hroom : s.fills.length < Config.fillEntries) :
    Formed o (startFill line s) := by
  have hstarted : Formed o (Machine.produceJob (.fill s.fillSerial line) { s with
      fillSerial := s.fillSerial + 1
      fills := s.fills ++ [{ serial := s.fillSerial, line := line, way := none, tag := none, data := none }] }) :=
    { h with
      fillWays := fun f hf w hw => by
        rcases List.mem_append.1 hf with hf | hf
        · exact h.fillWays f hf w hw
        · rw [List.mem_singleton.1 hf] at hw
          cases hw
      fills := List.length_append.trans_le hroom }
  unfold Machine.startFill
  dsimp only
  split
  next w hw =>
    refine hstarted.claimFor ?_
    split at hw
    · cases hw
    · exact h.chooseWay_lt hw
  next => exact hstarted

theorem Formed.joinFill (h : Formed o s) {line : Nat} : Formed o (joinFill line s) := by
  unfold Machine.joinFill
  split
  · exact h
  · split
    next hroom => exact h.startFill hroom.1
    next => exact h

theorem Formed.issueWriteBacks (h : Formed o s) {ks : List (Nat × Nat)} : Formed o (issueWriteBacks ks s) :=
  h.foldl (fun _ _ h => h.produceJob) _

theorem Formed.writeBackMore (h : Formed o s) {failed : List Nat} : Formed o (writeBackMore failed s) :=
  h.issueWriteBacks

theorem Formed.dropGrant (h : Formed o s) {i : Nat} : Formed o (dropGrant i s) := by
  unfold Machine.dropGrant
  split
  · exact h
  · refine Formed.setDom (Formed.setDom ?_ (by rfl)) (by rfl)
    exact { h with grants := h.grants.del i }

theorem Formed.removeGrant (h : Formed o s) {i : Nat} {g : Grant} {r : TagRecord} : Formed o (removeGrant i g r s) :=
  h.putRecord.dropGrant

theorem Formed.dropGrantsOf (h : Formed o s) {g : Nat} : Formed o (dropGrantsOf g s) :=
  h.foldl (fun _ _ h => h.dropGrant) _

theorem Formed.listPoison (h : Formed o s) {g : Nat} {owner : Option Nat} {cause : PoisonCause} :
    Formed o (listPoison g owner cause s) := by
  unfold Machine.listPoison
  split
  · exact { h with poison := by rw [List.length_map]; exact h.poison }
  · split
    next hroom => exact { h with poison := List.length_append.trans_le hroom }
    next => exact h.enterCause

theorem Formed.poisonTables (h : Formed o s) {g : Nat} {owner : Option Nat} {cause : PoisonCause} :
    Formed o (poisonTables g owner cause s) :=
  h.dropGrantsOf.listPoison

theorem Formed.poisonNow (h : Formed o s) {g : Nat} {cause : PoisonCause} : Formed o (poisonNow g cause s) := by
  unfold Machine.poisonNow
  split
  · exact h
  · exact h.putRecord.poisonTables

theorem Formed.unlistPoison (h : Formed o s) {g : Nat} : Formed o (unlistPoison g s) :=
  { h with poison := (List.length_filter_le _ _).trans h.poison }

theorem Formed.countCorrected (h : Formed o s) {g : Nat} : Formed o (countCorrected g s) := by
  unfold Machine.countCorrected
  dsimp only
  split
  · refine Formed.raise ?_
    exact { h with correct := Nat.min_le_right _ _ }
  · exact { h with correct := Nat.min_le_right _ _ }

theorem Formed.meetHold (h : Formed o s) {g : Nat} : Formed o (meetHold g s) := by
  unfold Machine.meetHold
  split
  · exact h
  · exact h.enterCause

theorem Formed.stateLost (h : Formed o s) {g : Nat} {owner : Option Nat} : Formed o (stateLost g owner s) :=
  h.poisonTables.raise.meetHold

theorem Formed.ownerLost (h : Formed o s) {g : Nat} : Formed o (ownerLost g s) := h.poisonTables.raise.enterCause

theorem Formed.checkRecord (h : Formed o s) {g : Nat} {rd : RecordRead} : Formed o (checkRecord g rd s).2.2 := by
  unfold Machine.checkRecord
  split
  · exact h.ownerLost
  · exact h.stateLost
  · exact h.countCorrected.stateLost
  · exact h
  all_goals exact h.countCorrected

theorem Formed.checkLine (h : Formed o s) {line : Nat} {d : RecordRead × RecordRead × RecordRead × RecordRead} :
    Formed o (checkLine line d s).2.2 :=
  h.checkRecord.checkRecord.checkRecord.checkRecord

theorem Formed.installLine (h : Formed o s) {f : Fill} {way : Nat}
    {d : RecordRead × RecordRead × RecordRead × RecordRead} (hway : way < Config.cacheWays) :
    Formed o (installLine f way d s) := by
  have hchecked := h.checkLine (line := f.line) (d := d)
  have hkey := wayKey_lt (cacheSet_lt f.line) hway
  refine Formed.touch ?_ hkey
  exact
    { hchecked with
      ways := hchecked.ways.put hkey _
      fillWays := fun x hx => hchecked.fillWays x (List.mem_of_mem_filter hx)
      fills := (List.length_filter_le _ _).trans hchecked.fills
      misses := by rw [List.length_map]; exact hchecked.misses }

/-! ### Commands -/

/-- A command is taken: its channel reserves the slot of its response (R168). -/
theorem Formed.dequeue (h : Formed none s) {c : Nat} (hfree : slotFree (chan s c) = true) :
    Formed (some c) (dequeue c s) := by
  obtain ⟨hctl, hwork, -, hres⟩ := h.channel c
  have hroom : (chan s c).ready.length + (chan s c).reserved < Config.responseSlots := by simpa [slotFree] using hfree
  have howed : ∀ e : Channel, e.control.length ≤ Config.queueDepth → e.work.length ≤ Config.queueDepth →
      (e.ready, e.reserved, e.active) = ((chan s c).ready, (chan s c).reserved + 1, (chan s c).active) →
      Formed (some c) (Machine.setChan c e s) := fun e hctl hwork he => by
    simp only [Prod.mk.injEq] at he
    obtain ⟨hready, hreserved, hactive⟩ := he
    refine h.writeChanOwed (w := s.warm) (fun x hx => owed_ne _ hx) ⟨hctl, hwork, ?_, ?_⟩
    · rw [hready, hreserved]
      omega
    · rw [hactive, hreserved, owed_self]
      omega
  unfold Machine.dequeue
  dsimp only
  split
  next t hq =>
    rw [hq, List.length_cons] at hctl
    exact howed _ (Nat.le_of_succ_le hctl) hwork rfl
  next => exact howed _ hctl ((List.length_tail ▸ Nat.sub_le _ _).trans hwork) rfl

/-- The response that a taken work command owes is now the one of its channel's active command (R168, R170). -/
theorem Formed.activate {c : Nat} (h : Formed (some c) s) {b : Line} {w : Work} {p : Phase} {wait : Wait} :
    Formed none (activate c b w p wait s) := by
  obtain ⟨hctl, hwork, hslots, hres⟩ := h.channel c
  rw [owed_self] at hres
  refine h.settleOwed ⟨hctl, hwork, hslots, ?_⟩
  rw [if_neg (Option.some_ne_none _)]
  dsimp only
  omega

theorem Formed.refuse {c : Nat} (h : Formed (some c) s) {b : Line} {r : Result} {p : Report} :
    Formed none (refuse c b r p s) :=
  h.respond.setChan rfl id

theorem Formed.idleSlot (h : Formed o s) {k : Nat} : Formed o (idleSlot k s) := by
  unfold Machine.idleSlot
  dsimp only
  split
  · exact Formed.setSlot (by exact h.setDom rfl) (by exact Nat.zero_le _)
  · exact h.setSlot (Nat.zero_le _)

theorem length_clearMarks (q : List QueueEntry) : (clearMarks q).length = q.length := List.length_map _

theorem Formed.cleanUp (h : Formed o s) {c : Nat} {w : Work} : Formed o (cleanUp c w s) := by
  unfold Machine.cleanUp
  split
  · exact h
  · exact h.setDom rfl
  · split
    · exact h.idleSlot
    · exact h
  · dsimp only
    split
    · exact h.setSlot (length_clearMarks _).le
    · exact h
  · exact h.setRegion
  · exact h

theorem Formed.stopWork (h : Formed none s) {c : Nat} {r : Result} : Formed none (stopWork c r s) := by
  unfold Machine.stopWork
  split
  · exact h
  · exact h.cleanUp.completeWork

theorem Formed.doneWork (h : Formed none s) {c : Nat} : Formed none (doneWork c s) := by
  unfold Machine.doneWork
  split
  · exact h
  · exact h.completeWork

theorem Formed.lookup (h : Formed o s) {g : Nat} {r : TagRecord} {t : State} (ht : lookup g s = some (r, t)) :
    Formed o t := by
  unfold Machine.lookup at ht
  split at ht
  next k _ hk _ =>
    cases ht
    exact h.touch (h.key_lt hk)
  next => cases ht

theorem Formed.withRecord (h : Formed o s) {c g : Nat} {k : TagRecord → State → State}
    (hk : ∀ r t, Formed o t → Formed o (k r t)) : Formed o (withRecord c g k s) := by
  unfold Machine.withRecord
  split
  next hl => exact hk _ _ (h.lookup hl)
  next => exact h.goWait.joinFill

/-! ### FORMAT and FLUSH_TAGS -/

theorem Formed.doFormat {c : Nat} (h : Formed (some c) s) {b : Line} : Formed none (doFormat c b s) := by
  unfold Machine.doFormat
  split
  · exact h.refuse
  · split
    · exact h.refuse
    · have hdrain : ∀ u k, Formed (some c) (Machine.beginDrain u k
          { s with mode := .formatting, tagBase := some (wordA b), progress := 0, ways := [] }) := fun u k =>
        Formed.beginDrain (by exact { h with ways := tableBelow_nil _ })
      dsimp only
      split <;> exact (hdrain _ _).activate

theorem Formed.formatComplete (h : Formed none s) {c : Nat} : Formed none (formatComplete c s) :=
  Formed.doneWork (Formed.raise (by exact h))

theorem Formed.formatStep (h : Formed none s) {c : Nat} {a : Active} {base next : Nat} {lowest : Option Nat} :
    Formed none (formatStep c a base next lowest s) := by
  unfold Machine.formatStep
  split
  · split
    · exact h.stopWork
    · exact h.goWait
  · split
    · exact h.formatComplete
    · exact (h.foldl (fun _ _ h => h.produceJob) _).goWork.goWait

theorem Formed.formatStop (h : Formed o s) {c : Nat} {r : Result} : Formed o (formatStop c r s) := by
  unfold Machine.formatStop
  split
  · exact h.keepJobs.goWork.goEnding.goWait
  · exact h

theorem Formed.formatWriteEnded (h : Formed o s) {line : Nat} {ok : Bool} : Formed o (formatWriteEnded line ok s) := by
  unfold Machine.formatWriteEnded
  split
  · exact h
  · split
    · exact Formed.goWait (by exact h)
    · split
      · exact h.goWork.formatStop
      · exact h

theorem Formed.doFlushTags {c : Nat} (h : Formed (some c) s) {b : Line} : Formed none (doFlushTags c b s) := h.activate

theorem Formed.flushStep (h : Formed none s) {c : Nat} {a : Active} {x : FlushWork} :
    Formed none (flushStep c a x s) := by
  unfold Machine.flushStep
  extract_lets room ahead now position lines fresh y u
  have hu : Formed none u := h.goWork.issueWriteBacks
  split
  · split
    · exact hu.stopWork
    · split
      · exact hu.doneWork
      · exact hu.stopWork
  · exact hu.goWait

theorem Formed.inheritWrites (h : Formed o s) {lines : List Nat} {c : Nat} : Formed o (inheritWrites lines s c) := by
  unfold Machine.inheritWrites
  split
  · exact h.goWork
  · exact h

theorem Formed.flushStop (h : Formed o s) {c : Nat} {r : Result} {x : FlushWork} : Formed o (flushStop c r x s) :=
  (h.keepJobs.goWork.foldl (fun _ _ h => h.inheritWrites) _).goEnding.goWait

theorem Formed.flushCount (h : Formed o s) {line : Nat} {ok : Bool} {c : Nat} : Formed o (flushCount line ok c s) := by
  unfold Machine.flushCount
  split
  · split
    · exact h.goWork.goWait
    · exact h
  · exact h

theorem Formed.flushEnded (h : Formed o s) {line : Nat} {ok : Bool} : Formed o (flushEnded line ok s) :=
  h.foldl (fun _ _ h => h.flushCount) _

end Sys2Proof.Machine
end

section
namespace Sys2Proof.Machine
variable {o : Option Nat} {s : State}

/-! ### Responses that are owed (R168, R173) -/

theorem ChannelFits.mono {m n : Nat} {e : Channel} (h : ChannelFits m e) (hle : n ≤ m) : ChannelFits n e :=
  ⟨h.control, h.work, h.slots, (Nat.add_le_add_left hle _).trans h.reserved⟩

/-- The channels may come to owe fewer responses, by another warm reset or none. -/
theorem Formed.owe {o' : Option Nat} {w : Option WarmReset} (h : Formed o s)
    (hle : ∀ x, owed o' w x ≤ owed o s.warm x) : Formed o' { s with warm := w } :=
  { h with channels := h.channels.mono fun x _ hx => hx.mono (hle x) }

/-- The warm reset goes on at its channel. -/
theorem Formed.setWarm {w : Option WarmReset} (h : Formed o s) (hw : w.map (·.channel) = s.warm.map (·.channel)) :
    Formed o { s with warm := w } :=
  h.owe fun x => by rw [owed, owed, hw]

/-! ### Scrub Units and poisonings -/

theorem Formed.withholdLines (h : Formed o s) : Formed o (withholdLines s) := h

theorem Formed.tryEndScrub (h : Formed none s) {c : Nat} : Formed none (tryEndScrub c s) := by
  unfold Machine.tryEndScrub
  split
  · exact h
  · split
    · exact h.stopWork
    · exact h

theorem Formed.poisonMade (h : Formed none s) {src : PoisonSource} : Formed none (poisonMade src s) := by
  unfold Machine.poisonMade
  split
  · exact h.freeEntry
  · split
    · split
      · exact h.setChan rfl id
      · exact h.tryEndScrub
    · exact h.tryEndScrub

theorem Formed.orderPoison (h : Formed none s) {g : Nat} {cause : PoisonCause} {src : PoisonSource} :
    Formed none (orderPoison g cause src s) := by
  unfold Machine.orderPoison
  split
  · exact h.poisonNow.poisonMade
  · exact h

theorem Formed.poisonStep (h : Formed none s) {p : PendingPoison} : Formed none (poisonStep p s) := by
  unfold Machine.poisonStep
  split
  next hl =>
    have ht := h.lookup hl
    exact Formed.poisonMade (Formed.poisonNow (by exact ht))
  next =>
    split
    · exact h
    · exact Formed.joinFill (by exact h)

theorem Formed.grantUnit (h : Formed o s) {u c : Nat} (hu : u < Config.scrubUnits) : Formed o (grantUnit u c s) := by
  unfold Machine.grantUnit
  refine Formed.foldl (Formed.goPhase (Formed.setUnit ?_ hu)) (fun _ _ h => h.produceJob) _
  exact h

theorem Formed.haltUnit (h : Formed o s) {u : Nat} : Formed o (haltUnit u s) := by
  unfold Machine.haltUnit
  split
  · exact h
  next hz => exact h.keepJobs.setUnit (h.units.lt hz)

theorem Formed.settleUnit (h : Formed none s) {u : Nat} : Formed none (settleUnit u s) := by
  unfold Machine.settleUnit
  split
  · exact h
  · split
    · exact h
    · dsimp only
      split
      · exact h.idleUnit
      · split
        · split <;> exact h.idleUnit.goPhase
        · exact h.idleUnit.tryEndScrub
        · exact h.idleUnit

theorem Formed.zeroWriteEnded (h : Formed none s) {u : Nat} {ok : Bool} : Formed none (zeroWriteEnded u ok s) := by
  unfold Machine.zeroWriteEnded
  split
  · exact h
  next z hz =>
    have hu := h.units.lt hz
    split
    · exact (h.setUnit hu).settleUnit
    · split
      · exact h.settleUnit
      · dsimp only
        split
        · exact (h.setUnit hu).haltUnit.settleUnit
        · exact (h.setUnit hu).haltUnit.goEnding.goPhase.orderPoison.settleUnit

theorem Formed.haltUnitsOf (h : Formed none s) {c : Nat} : Formed none (haltUnitsOf c s) :=
  h.foldl (fun _ _ h => h.haltUnit.settleUnit) _

/-! ### Granule operations -/

theorem Formed.doAssign {c : Nat} (h : Formed (some c) s) {b : Line} : Formed none (doAssign c b s) := by
  unfold Machine.doAssign
  dsimp only
  split
  · exact h.refuse
  · split
    · exact h.refuse
    · split
      · exact h.refuse
      · exact h.activate

theorem Formed.doRelease {c : Nat} (h : Formed (some c) s) {b : Line} : Formed none (doRelease c b s) := by
  unfold Machine.doRelease
  dsimp only
  split
  · exact h.refuse
  · split
    · exact h.refuse
    · exact h.activate

theorem Formed.doRestore {c : Nat} (h : Formed (some c) s) {b : Line} : Formed none (doRestore c b s) := by
  unfold Machine.doRestore
  split
  · exact h.refuse
  · exact h.activate

theorem Formed.doQueryGranules {c : Nat} (h : Formed (some c) s) {b : Line} : Formed none (doQueryGranules c b s) := by
  unfold Machine.doQueryGranules
  split
  · exact h.refuse
  · exact h.activate

theorem Formed.revokeAllOf (h : Formed o s) {d : Nat} : Formed o (revokeAllOf d s) :=
  { h with grants := h.grants.map _ fun p => by split <;> rfl }

theorem Formed.beginClearance (h : Formed o s) {c d : Nat} : Formed o (beginClearance c d s) :=
  h.beginDrain.foldl (fun _ _ h => h.beginDrain) _

theorem Formed.doRetire {c : Nat} (h : Formed (some c) s) {b : Line} : Formed none (doRetire c b s) := by
  unfold Machine.doRetire
  dsimp only
  split
  · exact h.refuse
  · split
    · exact h.refuse
    · split
      · exact h.refuse
      · have hcleared : ∀ d e, e.state = .retiring → e.violations = (dom s d).violations → Formed (some c)
            (Machine.beginClearance c d (Machine.revokeAllOf d (Machine.setDom d e s))) := fun d e hs hv =>
          (h.setState (by rw [hs]; nofun) (.inl hv)).revokeAllOf.beginClearance
        split <;> exact Formed.activate (hcleared _ _ (by rfl) (by rfl))

theorem Formed.startGranuleDrain (h : Formed o s) {c g : Nat} : Formed o (startGranuleDrain c g s) := by
  unfold Machine.startGranuleDrain
  dsimp only
  split <;> exact h.beginDrain.goPhase

theorem Formed.nextGranule (h : Formed o s) {c : Nat} {w : Work} : Formed o (nextGranule c w s) :=
  h.setClaim.goWork.goPhase

theorem Formed.assignVisit (h : Formed none s) {c d g : Nat} {keep : Bool} {r : TagRecord} :
    Formed none (assignVisit c d g keep r s) := by
  unfold Machine.assignVisit
  split
  · exact h.stopWork
  · exact (h.putRecord.setDom (by rfl)).setClaim.startGranuleDrain

theorem Formed.releaseVisit (h : Formed none s) {c d g : Nat} {r : TagRecord} :
    Formed none (releaseVisit c d g r s) := by
  unfold Machine.releaseVisit
  split
  · exact h.stopWork
  · exact h.putRecord.setClaim.startGranuleDrain

theorem Formed.restoreVisit (h : Formed none s) {c g : Nat} {r : TagRecord} : Formed none (restoreVisit c g r s) := by
  unfold Machine.restoreVisit
  split
  · exact h.stopWork
  · exact h.setClaim.startGranuleDrain

theorem Formed.dropRequestOf (h : Formed o s) {d : Nat} : Formed o (dropRequestOf d s) := by
  have hdropped : Formed o { s with requests := s.requests.filter (fun q => q.requester != d) } :=
    { h with requests := (List.length_filter_le _ _).trans h.requests }
  unfold Machine.dropRequestOf
  extract_lets headIs t u
  refine Formed.setResult ?_
  unfold u
  split
  · exact Formed.withdrawDrains (by exact hdropped)
  · exact hdropped

theorem Formed.retireComplete (h : Formed none s) {c : Nat} {r : RetireWork} {left : Nat} :
    Formed none (retireComplete c r left s) :=
  Formed.completeWork (Formed.dropRequestOf (h.setState (by decide) (.inr rfl)))

theorem Formed.retireWalk (h : Formed o s) {c : Nat} {r : RetireWork} : Formed o (retireWalk c r s) := h.goWork.goPhase

theorem Formed.retireOwned (h : Formed none s) {c : Nat} {r : RetireWork} {rec : TagRecord} :
    Formed none (retireOwned c r rec s) := by
  have hchange : ∀ g x, Formed none
      (Machine.startGranuleDrain c g (Machine.setClaim c (some g) (Machine.putRecord g x s))) :=
    fun _ _ => h.putRecord.setClaim.startGranuleDrain
  unfold Machine.retireOwned
  dsimp only
  split
  · split
    · exact h.setClaim.putRecord.setClaim.startGranuleDrain
    · exact hchange _ _
  · split
    · exact h.goWait
    · exact hchange _ _
  · split
    · exact h.stopWork
    · split
      · exact h.goWait
      · exact hchange _ _
  · split
    · exact h.goWait
    · exact h.goWork.setClaim.startGranuleDrain
  · exact h.nextGranule
  · exact h.nextGranule

theorem Formed.retireVisit (h : Formed none s) {c : Nat} {r : RetireWork} {rec : TagRecord} :
    Formed none (retireVisit c r rec s) := by
  unfold Machine.retireVisit
  dsimp only
  split
  · exact h.goWork.retireOwned
  · exact h.goWork.goPhase

theorem Formed.retireStep (h : Formed none s) {c : Nat} {r : RetireWork} : Formed none (retireStep c r s) := by
  unfold Machine.retireStep
  split
  · exact h.retireComplete
  · split
    · exact h.retireComplete
    · exact h.goWork.goPhase.withRecord fun _ _ h => h.retireVisit

theorem Formed.visitStep (h : Formed none s) {c : Nat} {a : Active} : Formed none (visitStep c a s) := by
  unfold Machine.visitStep
  split
  · split
    · exact h.doneWork
    · exact h.withRecord fun _ _ h => h.assignVisit
  · split
    · exact h.doneWork
    · exact h.withRecord fun _ _ h => h.releaseVisit
  · exact h.withRecord fun _ _ h => h.restoreVisit
  · split
    · exact h.doneWork
    · exact h.withRecord fun _ _ h => h.goWork.goPhase
  · exact h.retireStep
  · exact h

theorem Formed.notePoisoned (h : Formed o s) {c : Nat} {w : Work} {r : TagRecord} :
    Formed o (notePoisoned c w r s) := by
  unfold Machine.notePoisoned
  split
  · split
    · exact h.goWork
    · exact h
  · exact h

theorem Formed.ownedDown (h : Formed o s) {d : Nat} : Formed o (ownedDown d s) := h.setDom rfl

theorem Formed.finishGranule (h : Formed none s) {c g : Nat} {w : Work} {r : TagRecord} :
    Formed none (finishGranule c g w r s) := by
  unfold Machine.finishGranule
  split
  · exact h.putRecord.nextGranule
  · exact h.putRecord.ownedDown.nextGranule
  · refine Formed.completeWork (Formed.unlistPoison ?_)
    split
    · split
      · exact h.putRecord
      · exact h.putRecord.ownedDown
    · exact h.putRecord
  · refine Formed.nextGranule ?_
    have hown : ∀ x, Formed none (if r.owner = some x then Machine.ownedDown x (Machine.putRecord g openRecord s)
        else Machine.putRecord g openRecord s) := fun x => by
      split
      · exact h.putRecord.ownedDown
      · exact h.putRecord
    split
    · exact (hown _).unlistPoison
    · exact hown _
  · exact h

theorem Formed.afterDrain (h : Formed none s) {c : Nat} {a : Active} {r : TagRecord} :
    Formed none (afterDrain c a r s) := by
  unfold Machine.afterDrain
  dsimp only
  split
  · exact h.stopWork
  · split
    · exact h.notePoisoned.goPhase
    · exact h.finishGranule

theorem Formed.afterZero (h : Formed none s) {c : Nat} {a : Active} {r : TagRecord} :
    Formed none (afterZero c a r s) := by
  unfold Machine.afterZero
  dsimp only
  split
  · exact h.stopWork
  · exact h.finishGranule

theorem Formed.undoRecord (h : Formed o s) {c g : Nat} {w : Work} {r : TagRecord} :
    Formed o (undoRecord c g w r s) := by
  unfold Machine.undoRecord
  dsimp only
  split
  · exact h
  · split
    · exact h.putRecord.ownedDown
    · exact h.putRecord
    · exact h.putRecord
    · exact h

theorem Formed.undoStep (h : Formed none s) {c : Nat} {a : Active} : Formed none (undoStep c a s) :=
  h.withRecord fun _ _ h => h.undoRecord.stopWork

theorem Formed.pendingUndoStep (h : Formed o s) {c : Nat} {u : PendingUndo} : Formed o (pendingUndoStep c u s) := by
  unfold Machine.pendingUndoStep
  split
  next hl => exact (h.lookup hl).undoRecord.setChan rfl id
  next =>
    split
    · exact h.setChan rfl id
    · exact Formed.joinFill (by exact h.setChan rfl id)

/-! ### Tracking -/

theorem Formed.doTrackStart {c : Nat} (h : Formed (some c) s) {b : Line} : Formed none (doTrackStart c b s) := by
  unfold Machine.doTrackStart
  dsimp only
  split
  · exact h.refuse
  · split
    · exact h.refuse
    · split
      · exact h.refuse
      · split
        · exact h.refuse
        · refine Formed.activate (Formed.setDom (Formed.setSlot h ?_) (by rfl))
          exact Nat.zero_le _

theorem Formed.trackStartDone (h : Formed none s) {c k f n cleared : Nat} :
    Formed none (trackStartDone c k f n cleared s) :=
  Formed.completeWork (by exact h.setSlot le_rfl)

theorem Formed.trackStartRecord (h : Formed none s) {c k d f n done cleared : Nat} {r : TagRecord} :
    Formed none (trackStartRecord c k d f n done cleared r s) := by
  unfold Machine.trackStartRecord
  extract_lets hit t total
  have ht : Formed none t := by
    unfold t
    split
    · exact h.putRecord
    · exact h
  split
  · exact ht.trackStartDone
  · exact ht.goWork.goPhase

theorem Formed.trackStartStep (h : Formed none s) {c k d f n done cleared : Nat} :
    Formed none (trackStartStep c k d f n done cleared s) := by
  unfold Machine.trackStartStep
  split
  · exact h.stopWork
  · split
    · exact h.stopWork
    · exact h.goPhase.withRecord fun _ _ h => h.trackStartRecord

theorem length_markKeep (g : Nat) (q : List QueueEntry) : (markKeep g q).length = q.length := by
  induction q with
  | nil => rfl
  | cons e q ih =>
    unfold markKeep
    split
    · rfl
    · rw [List.length_cons, ih, List.length_cons]

theorem Formed.slotTake (h : Formed o s) {k g : Nat} : Formed o (slotTake k g s) := by
  unfold Machine.slotTake
  dsimp only
  split
  · exact h.setSlot (length_markKeep g _).le
  · split
    · split
      next hroom =>
        have htaken : Formed o (Machine.setSlot k { slotOf s k with
            queue := (slotOf s k).queue ++ [{ granule := g, group := false, keep := false }] } s) :=
          { h with slots := h.slots.set (List.length_append.trans_le hroom) }
        split
        · exact htaken.raise
        · exact htaken
      next => exact Formed.raise (by exact h.setSlot le_rfl)
    · exact h

theorem Formed.markWrite (h : Formed o s) {g : Nat} {r : TagRecord} : Formed o (markWrite g r s) := by
  unfold Machine.markWrite
  split
  · split
    · exact h
    · exact h.putRecord.slotTake
  · exact h

theorem Formed.doTrackCollect {c : Nat} (h : Formed (some c) s) {b : Line} : Formed none (doTrackCollect c b s) := by
  unfold Machine.doTrackCollect
  dsimp only
  split
  · exact h.refuse
  · split
    · exact h.refuse
    · exact h.activate

theorem Formed.collectDone (h : Formed none s) {c : Nat} {k : CollectWork} : Formed none (collectDone c k s) :=
  h.cleanUp.completeWork

theorem Formed.startGroup (h : Formed o s) {c : Nat} {k : CollectWork} : Formed o (startGroup c k s) := by
  unfold Machine.startGroup
  refine Formed.goPhase (Formed.goWork (Formed.setSlot h ?_))
  dsimp only
  rw [List.length_append, List.length_map, ← List.length_append, List.take_append_drop]

theorem Formed.collectBuffer (h : Formed none s) {c : Nat} {k : CollectWork} {r : TagRecord} :
    Formed none (collectBuffer c k r s) := by
  unfold Machine.collectBuffer
  dsimp only
  split
  · exact h.stopWork
  · split
    · exact h.stopWork
    · split
      · exact h.stopWork
      · have hnamed : ∀ w, Formed none (Machine.goPhase c .clearing .running (Machine.goWork c w
            (Machine.setClaim c (some k.buffer)
              (Machine.setSlot k.slot { slotOf s k.slot with collecting := some c } s)))) :=
          fun _ => Formed.goPhase (Formed.goWork (Formed.setClaim (by exact h.setSlot le_rfl)))
        split
        · exact (hnamed _).collectDone
        · exact (hnamed _).startGroup

theorem Formed.collectRecord (h : Formed o s) {c : Nat} {k : CollectWork} {g : Nat} {r : TagRecord} :
    Formed o (collectRecord c k g r s) := by
  unfold Machine.collectRecord
  refine Formed.goPhase (Formed.goWork (Formed.beginDrain ?_))
  split
  · exact h.putRecord
  · exact h

theorem Formed.harvestIssue (h : Formed o s) {c : Nat} : Formed o (harvestIssue c s) := h.goPhase.produceJob

theorem Formed.collectStep (h : Formed o s) {c : Nat} {k : CollectWork} : Formed o (collectStep c k s) := by
  unfold Machine.collectStep
  split
  · exact h.withRecord fun _ _ h => h.collectRecord
  · split
    · exact h.harvestIssue
    · exact h.goPhase

theorem length_deliver_le (q : List QueueEntry) : (deliver q).length ≤ q.length := by
  unfold deliver
  rw [List.length_append, length_clearMarks]
  have hkept : (q.filter fun e => e.group && e.keep).length ≤ (q.filter fun e => e.group).length := by
    rw [← List.countP_eq_length_filter, ← List.countP_eq_length_filter]
    exact List.countP_mono_left fun e _ he => by simp_all
  have hall := List.length_eq_length_filter_add (l := q) fun e => e.group
  omega

theorem Formed.harvestEnded (h : Formed none s) {c : Nat} {ok : Bool} : Formed none (harvestEnded c ok s) := by
  unfold Machine.harvestEnded
  split
  next k _ _ _ _ =>
    split
    · have hdelivered : ∀ w, Formed none (Machine.goWork c w (Machine.setSlot k.slot { slotOf s k.slot with
          queue := deliver (slotOf s k.slot).queue } s)) :=
        fun _ => Formed.goWork (by exact h.setSlot (length_deliver_le _))
      dsimp only
      split
      · exact (hdelivered _).stopWork
      · split
        · exact (hdelivered _).collectDone
        · exact (hdelivered _).startGroup
    · exact h.stopWork
  next => exact h

theorem Formed.stopCollect (h : Formed none s) {c : Nat} {r : Result} : Formed none (stopCollect c r s) := by
  unfold Machine.stopCollect
  dsimp only
  split
  · exact h.keepJobs.goEnding
  · exact h.keepJobs.withdrawDrains.stopWork

theorem Formed.releaseSlot (h : Formed none s) {k : Nat} : Formed none (releaseSlot k s) := by
  unfold Machine.releaseSlot
  dsimp only
  split
  · exact h.idleSlot.stopCollect
  · exact h.idleSlot

end Sys2Proof.Machine
end

section
namespace Sys2Proof.Machine
variable {o : Option Nat} {s : State}

/-! ### Grants and guest requests -/

theorem Formed.moveGrant (h : Formed o s) {i : Nat} {g : Grant} (hi : i < Config.grantEntries) :
    Formed o (moveGrant i g s) :=
  h.setGrant hi

theorem Formed.doRevokeGrant {c : Nat} (h : Formed (some c) s) {b : Line} : Formed none (doRevokeGrant c b s) := by
  unfold Machine.doRevokeGrant
  dsimp only
  split
  · exact h.refuse
  next hi =>
    split
    · exact h.refuse
    · split <;> exact (h.moveGrant (Nat.lt_of_not_le hi)).beginDrain.activate

theorem Formed.revokeDone (h : Formed none s) {c : Nat} {r : RevokeWork} {mine : Bool} :
    Formed none (revokeDone c r mine s) :=
  h.completeWork

theorem Formed.revokeStep (h : Formed none s) {c : Nat} {r : RevokeWork} : Formed none (revokeStep c r s) := by
  unfold Machine.revokeStep
  split
  · exact h.revokeDone
  · exact h.withRecord fun _ _ h => h.removeGrant.revokeDone

theorem Formed.retireRemoval (h : Formed none s) {c : Nat} {r : RetireWork} : Formed none (retireRemoval c r s) := by
  unfold Machine.retireRemoval
  split
  · split
    · exact h.goWork
    · exact h.withRecord fun _ _ h => h.removeGrant.goWork.goPhase
  · split
    · exact h.releaseSlot.retireWalk
    · exact h.retireWalk

theorem Formed.retireRemovalFailed (h : Formed none s) {c : Nat} {r : RetireWork} :
    Formed none (retireRemovalFailed c r s) :=
  h.cleanUp.completeWork

theorem Formed.setRevocation (h : Formed o s) {todo : List (Nat × Nat)} {drained : Bool} {w : Wait} :
    Formed o (setRevocation todo drained w s) :=
  h.setWarm (by rw [Option.map_map]; rfl)

/-- Traffic resumes: the response that the warm reset owed becomes ready (R174). -/
theorem Formed.resumption (h : Formed none s) {w : WarmReset} (hw : s.warm = some w) :
    Formed none (resumption w s) := by
  have hended : Formed (some w.channel) { s with warm := none } := h.owe fun x => by
    simp only [owed, hw, Option.map_some, Option.map_none]
    simp
  refine Formed.respond (Formed.foldl (by exact hended) (fun _ _ h => ?_) _)
  split
  · split
    · exact h.setChan rfl id
    · exact h
  · exact h

theorem lookup_warm {g : Nat} {r : TagRecord} {t : State} (hl : lookup g s = some (r, t)) : t.warm = s.warm := by
  unfold lookup at hl
  split at hl
  · cases hl
    rfl
  · cases hl

theorem Formed.revocationStep (h : Formed none s) {w : WarmReset} {todo : List (Nat × Nat)} {done : Bool}
    (hw : s.warm = some w) : Formed none (revocationStep w todo done s) := by
  unfold Machine.revocationStep
  split
  · exact h.resumption hw
  · split
    · exact h.setRevocation
    · split
      · split
        next hl =>
          refine Formed.setRevocation (Formed.setWarm (h.lookup hl).removeGrant ?_)
          rw [removeGrant_warm, lookup_warm hl, hw]
          rfl
        next => exact h.setRevocation.joinFill
      · dsimp only
        split <;> exact h.beginDrain.setRevocation

theorem Formed.revocationFailed (h : Formed o s) : Formed o (revocationFailed s) := by
  unfold Machine.revocationFailed
  split
  · exact Formed.setRevocation (h.setWarm (by rw [Option.map_map]; rfl))
  · exact h

theorem Formed.finishRequest (h : Formed o s) {r : Result} {grant : Option Nat} {q : QueryPart} :
    Formed o (finishRequest r grant q s) := by
  unfold Machine.finishRequest
  split
  · exact h
  next hq =>
    have hlen := h.requests
    rw [hq] at hlen
    refine Formed.setResult ?_
    exact { h with requests := Nat.le_of_succ_le hlen }

theorem Formed.requestWait (h : Formed o s) {w : Wait} : Formed o (requestWait w s) := h

theorem Formed.withRequestRecord (h : Formed o s) {g : Nat} {k : TagRecord → State → State}
    (hk : ∀ r t, Formed o t → Formed o (k r t)) : Formed o (withRequestRecord g k s) := by
  unfold Machine.withRequestRecord
  split
  next hl => exact hk _ _ (h.lookup hl)
  next => exact h.requestWait.joinFill

theorem Formed.offerGrant (h : Formed o s) {i : Nat} {x : GuestRequest} {r : TagRecord} (hi : i < Config.grantEntries) :
    Formed o (offerGrant i x r s) := by
  unfold Machine.offerGrant
  refine Formed.setDom (Formed.setDom (Formed.putRecord (Formed.setGrant ?_ hi)) (by rfl)) (by rfl)
  exact h

theorem Formed.offerStep (h : Formed o s) {x : GuestRequest} {r : TagRecord} : Formed o (offerStep x r s) := by
  unfold Machine.offerStep
  split
  · exact h.finishRequest
  · split
    next hi => exact (h.offerGrant (tblFree_lt hi)).finishRequest
    next => exact h.finishRequest

theorem Formed.pinStep (h : Formed o s) {x : GuestRequest} {pinned : Bool} {r : TagRecord} :
    Formed o (pinStep x pinned r s) := by
  unfold Machine.pinStep
  split
  · exact h.finishRequest
  · dsimp only
    split
    · exact h.finishRequest
    · exact h.putRecord.finishRequest

theorem Formed.queryStep (h : Formed o s) {x : GuestRequest} {r : TagRecord} : Formed o (queryStep x r s) := by
  unfold Machine.queryStep
  split
  · exact h.finishRequest
  · split <;> exact h.finishRequest

theorem Formed.withdrawStart (h : Formed o s) {x : GuestRequest} : Formed o (withdrawStart x s) := by
  unfold Machine.withdrawStart
  split
  · exact h.finishRequest
  · split
    · exact h.finishRequest
    next hfound =>
      split
      · exact h.finishRequest
      · have hmoved : ∀ g u k, Formed o (Machine.beginDrain u k (Machine.moveGrant _ g s)) := fun _ _ _ =>
          (h.moveGrant (h.grants.2 _ (List.mem_of_find?_eq_some hfound))).beginDrain
        exact hmoved _ _ _

theorem Formed.withdrawRemoval (h : Formed o s) {i serial : Nat} : Formed o (withdrawRemoval i serial s) := by
  unfold Machine.withdrawRemoval
  split
  · exact h.finishRequest
  · exact h.withRequestRecord fun _ _ h => h.removeGrant.finishRequest

theorem Formed.requestStep (h : Formed o s) : Formed o (requestStep s) := by
  unfold Machine.requestStep
  split
  · split
    · exact h.withdrawRemoval
    · split
      · exact h.withRequestRecord fun _ _ h => h.offerStep
      · exact h.withdrawStart
      · exact h.withRequestRecord fun _ _ h => h.pinStep
      · exact h.withRequestRecord fun _ _ h => h.pinStep
      · exact h.withRequestRecord fun _ _ h => h.queryStep
      · exact h
  · exact h

theorem Formed.startRequest (h : Formed o s) {x : GuestRequest} : Formed o (startRequest x s) := by
  unfold Machine.startRequest
  split
  · exact h.finishRequest
  · exact h

end Sys2Proof.Machine
end

section
namespace Sys2Proof.Machine
variable {o : Option Nat} {s : State} {c : Nat} {b : Line}

/-! ### Control commands: each answers its channel's reservation -/

theorem Formed.doCreate (h : Formed (some c) s) : Formed none (doCreate c b s) := by
  unfold Machine.doCreate
  dsimp only
  split
  · exact h.respond
  · split
    · exact h.respond
    · exact (h.setState DState.noConfusion (.inr rfl)).respond

theorem Formed.moveDomain (h : Formed (some c) s) {old new : DState} {clear : Bool} (hnew : new ≠ .root) :
    Formed none (moveDomain c b old new clear s) := by
  unfold Machine.moveDomain
  dsimp only
  split
  · exact h.respond
  · split
    · exact h.respond
    · refine (h.setState ?_ ?_).respond
      · split <;> exact hnew
      · split
        · exact .inr rfl
        · exact .inl rfl

theorem Formed.doStart (h : Formed (some c) s) : Formed none (doStart c b s) := h.moveDomain (by decide)
theorem Formed.doPause (h : Formed (some c) s) : Formed none (doPause c b s) := h.moveDomain (by decide)
theorem Formed.doResume (h : Formed (some c) s) : Formed none (doResume c b s) := h.moveDomain (by decide)
theorem Formed.doUnfence (h : Formed (some c) s) : Formed none (doUnfence c b s) := h.moveDomain (by decide)

theorem Formed.doSetQuota (h : Formed (some c) s) : Formed none (doSetQuota c b s) := by
  unfold Machine.doSetQuota
  dsimp only
  split
  · exact h.respond
  · split
    · exact h.respond
    · exact Formed.respond (h.setDom (by rfl))

theorem Formed.doSetFence (h : Formed (some c) s) : Formed none (doSetFence c b s) := by
  unfold Machine.doSetFence
  dsimp only
  split
  · exact h.respond
  · split
    · exact h.respond
    · exact Formed.respond (Formed.fenceTest (h.setDom (by rfl)))

theorem Formed.doClearDomainCounters (h : Formed (some c) s) : Formed none (doClearDomainCounters c b s) := by
  unfold Machine.doClearDomainCounters
  dsimp only
  split
  · exact h.respond
  · refine Formed.respond ?_
    exact h.writeDom ⟨(h.domain _).1, Nat.zero_le _⟩

theorem Formed.doDomainStatus (h : Formed (some c) s) : Formed none (doDomainStatus c b s) := by
  unfold Machine.doDomainStatus
  split <;> exact h.respond

theorem Formed.doActivateGrant (h : Formed (some c) s) : Formed none (doActivateGrant c b s) := by
  unfold Machine.doActivateGrant
  dsimp only
  split
  · exact h.respond
  next hi =>
    split
    · exact h.respond
    · split
      · exact (h.setGrant (Nat.lt_of_not_le hi)).respond
      · exact h.respond

theorem Formed.doGrantRead (h : Formed (some c) s) : Formed none (doGrantRead c b s) := by
  unfold Machine.doGrantRead
  dsimp only
  split
  · exact h.respond
  · split <;> exact h.respond

theorem Formed.doTrackStop (h : Formed (some c) s) : Formed none (doTrackStop c b s) := by
  unfold Machine.doTrackStop
  dsimp only
  split
  · exact h.respond
  · split
    · exact h.respond
    · exact h.respond.releaseSlot

theorem Formed.doTrackStatus (h : Formed (some c) s) : Formed none (doTrackStatus c b s) := by
  unfold Machine.doTrackStatus
  dsimp only
  split <;> exact h.respond

theorem Formed.doViolationPop (h : Formed (some c) s) : Formed none (doViolationPop c b s) := by
  unfold Machine.doViolationPop
  split
  · exact h.respond
  next hlog =>
    have hlen := h.log
    rw [hlog] at hlen
    refine Formed.respond ?_
    exact { h with log := Nat.le_of_succ_le hlen }

theorem Formed.doNoticeConfig (h : Formed (some c) s) : Formed none (doNoticeConfig c b s) := by
  unfold Machine.doNoticeConfig
  dsimp only
  split
  · exact h.respond
  next hlegal =>
    refine Formed.respond ?_
    exact h.setSource ⟨Nat.le_of_not_lt fun hcls => hlegal (.inr hcls), (h.source _).2⟩

theorem Formed.clearMarks (h : Formed o s) {n : Nat} :
    Formed o (Machine.setSource n { sourceOf s n with pending := false, notified := false } s) :=
  h.setSource ⟨(h.source n).1, fun hn => absurd hn Bool.false_ne_true⟩

theorem Formed.doNoticeClear (h : Formed (some c) s) : Formed none (doNoticeClear c b s) := by
  unfold Machine.doNoticeClear
  dsimp only
  split
  · exact h.respond
  · refine Formed.respond ?_
    exact h.foldl (fun _ _ h => h.clearMarks) _

theorem Formed.doNoticeStatus (h : Formed (some c) s) : Formed none (doNoticeStatus c b s) := h.respond

theorem Formed.moveRegion (h : Formed (some c) s) {new : RegionState} : Formed none (moveRegion c b new s) := by
  unfold Machine.moveRegion
  dsimp only
  split
  · exact h.respond
  · split
    · exact h.respond
    · split
      · exact h.respond
      · exact h.respond
      · exact h.respond
      · exact h.setRegion.respond

theorem Formed.doRegionClear (h : Formed (some c) s) : Formed none (doRegionClear c b s) := h.moveRegion
theorem Formed.doRegionLockdown (h : Formed (some c) s) : Formed none (doRegionLockdown c b s) := h.moveRegion

theorem Formed.doFreeze (h : Formed (some c) s) : Formed none (doFreeze c b s) := Formed.respond (by exact h)

theorem Formed.doSetFaultPolicy (h : Formed (some c) s) : Formed none (doSetFaultPolicy c b s) := by
  unfold Machine.doSetFaultPolicy
  dsimp only
  split
  · exact h.respond
  · split
    · exact h.respond
    · exact Formed.respond (by exact h)

theorem Formed.doContain (h : Formed (some c) s) : Formed none (doContain c b s) := by
  unfold Machine.doContain
  split
  · exact h.enterCause.respond
  · exact h.respond

theorem Formed.doResumePart (h : Formed (some c) s) : Formed none (doResumePart c b s) := by
  unfold Machine.doResumePart
  dsimp only
  split
  · exact h.respond
  · split
    · exact h.respond
    · split
      · exact h.respond
      · exact Formed.respond (by exact h)

theorem Formed.doPartStatus (h : Formed (some c) s) : Formed none (doPartStatus c b s) := h.respond
theorem Formed.doAckIntegrity (h : Formed (some c) s) : Formed none (doAckIntegrity c b s) :=
  Formed.respond (by exact h)

theorem Formed.doClearIntegrityCount (h : Formed (some c) s) : Formed none (doClearIntegrityCount c b s) := by
  refine Formed.respond ?_
  exact { h with correct := Nat.zero_le _ }

theorem Formed.doSetCorrectedLimit (h : Formed (some c) s) : Formed none (doSetCorrectedLimit c b s) := by
  unfold Machine.doSetCorrectedLimit
  dsimp only
  split
  · exact h.respond
  · refine Formed.respond ?_
    split
    · exact Formed.raise (by exact h)
    · exact h

theorem Formed.doPoisonRead (h : Formed (some c) s) : Formed none (doPoisonRead c b s) := by
  unfold Machine.doPoisonRead
  dsimp only
  split
  · exact h.respond
  · split <;> exact h.respond

/-! ### ABORT and RESET_ENGINES -/

theorem Formed.stopCommand (h : Formed none s) {x : Nat} : Formed none (stopCommand x s) := by
  unfold Machine.stopCommand
  split
  · exact h
  · split
    · exact h.stopWork
    · exact h.stopWork
    · exact h.stopWork
    · exact h.stopWork
    · exact h.withdrawDrains.stopWork
    · split
      · exact h.stopCollect
      · exact h.stopWork
    · exact h.stopCollect
    · exact h.stopCollect
    · dsimp only
      split
      · exact h.withdrawDrains.stopWork
      · exact h.withdrawDrains.stopWork
      · exact h.withdrawDrains.goPhase
    · exact h.goPhase
    · exact h.goPhase
    · exact h.goPhase
    · exact h.haltUnitsOf
    · split
      · exact h.formatStop
      · exact h.flushStop
      · exact h.goWait
    · exact h
    · exact h

theorem Formed.requestStop (h : Formed none s) {x : Nat} : Formed none (requestStop x s) := by
  unfold Machine.requestStop
  dsimp only
  split
  · exact h
  · refine Formed.stopCommand (h.setChan (by rfl) fun ha => ?_)
    dsimp only
    rw [ha, Option.map_none]

theorem Formed.doAbort (h : Formed (some c) s) : Formed none (doAbort c b s) := by
  unfold Machine.doAbort
  dsimp only
  split
  · exact h.respond
  · refine Formed.requestStop (Formed.respond ?_)
    split
    · obtain ⟨hctl, -, hslots, hres⟩ := h.channel (wordA b)
      exact h.writeChan ⟨hctl, Nat.zero_le _, hslots, hres⟩
    · exact h

/-- The warm reset owes the response that its channel has reserved (R173). -/
theorem Formed.doResetEngines (h : Formed (some c) s) : Formed none (doResetEngines c b s) := by
  have hbegun : Formed none { s with warm := some (newWarmReset c b) } := h.owe fun x => by
    simp only [owed, newWarmReset, Option.map_some]
    split <;> simp_all
  exact Formed.foldl (by exact hbegun) (fun _ _ h => h.requestStop) _

/-! ### The engine -/

theorem Formed.doRegionSet (h : Formed (some c) s) : Formed none (doRegionSet c b s) := by
  unfold Machine.doRegionSet
  dsimp only
  split
  · exact h.refuse
  · exact h.setRegion.activate

theorem Formed.regionVisit (h : Formed none s) {i f n done : Nat} {noAccess : Bool} {r : TagRecord} :
    Formed none (regionVisit c i f n noAccess done r s) := by
  unfold Machine.regionVisit
  split
  · exact h.stopWork
  · split
    · exact h.stopWork
    · split
      · exact h.setRegion.completeWork
      · exact h.goWork.goPhase

theorem Formed.chanStep (h : Formed none s) {a : Active} : Formed none (chanStep c a s) := by
  unfold Machine.chanStep
  split
  · split
    · exact h.trackStartStep
    · exact h.withRecord fun _ _ h => h.regionVisit
    · exact h.visitStep
  · split
    · exact h.withRecord fun _ _ h => h.retireVisit
    · exact h
  · split
    · exact h.withRecord fun _ _ h => h.trackStartRecord
    · exact h.collectStep
    · exact h
  · split
    · exact h.withRecord fun _ _ h => h.collectBuffer
    · exact h
  · split
    · exact h.revokeStep
    · exact h.retireRemoval
    · exact h
  · exact h.withRecord fun _ _ h => h.afterDrain
  · exact h.withRecord fun _ _ h => h.afterZero
  · exact h.undoStep
  · split
    · exact h.formatStep
    · exact h.flushStep
    · exact h
  · exact h

theorem Formed.runCommand (h : Formed (some c) s) {cmd : Cmd} : Formed none (runCommand cmd c b s) := by
  cases cmd with
  | format => exact h.doFormat
  | assign => exact h.doAssign
  | release => exact h.doRelease
  | restore => exact h.doRestore
  | queryGranules => exact h.doQueryGranules
  | retire => exact h.doRetire
  | revokeGrant => exact h.doRevokeGrant
  | trackStart => exact h.doTrackStart
  | trackCollect => exact h.doTrackCollect
  | flushTags => exact h.doFlushTags
  | regionSet => exact h.doRegionSet
  | create => exact h.doCreate
  | start => exact h.doStart
  | pause => exact h.doPause
  | resume => exact h.doResume
  | unfence => exact h.doUnfence
  | setQuota => exact h.doSetQuota
  | setFence => exact h.doSetFence
  | clearDomainCounters => exact h.doClearDomainCounters
  | domainStatus => exact h.doDomainStatus
  | activateGrant => exact h.doActivateGrant
  | grantRead => exact h.doGrantRead
  | trackStop => exact h.doTrackStop
  | trackStatus => exact h.doTrackStatus
  | violationPop => exact h.doViolationPop
  | noticeConfig => exact h.doNoticeConfig
  | noticeClear => exact h.doNoticeClear
  | noticeStatus => exact h.doNoticeStatus
  | regionClear => exact h.doRegionClear
  | regionLockdown => exact h.doRegionLockdown
  | freeze => exact h.doFreeze
  | setFaultPolicy => exact h.doSetFaultPolicy
  | contain => exact h.doContain
  | resumePart => exact h.doResumePart
  | ackIntegrity => exact h.doAckIntegrity
  | clearIntegrityCount => exact h.doClearIntegrityCount
  | setCorrectedLimit => exact h.doSetCorrectedLimit
  | poisonRead => exact h.doPoisonRead
  | partStatus => exact h.doPartStatus
  | abort => exact h.doAbort
  | resetEngines => exact Formed.doResetEngines (s := s) (c := c) (b := b) h

theorem slotFree_of_takeable (ht : takeable c s = some b) : slotFree (chan s c) = true := by
  unfold takeable at ht
  dsimp only at ht
  split at ht
  · cases ht
  next hfree =>
    simp only [Bool.or_eq_true, Bool.not_eq_true', not_or, Bool.not_eq_false] at hfree
    exact hfree.2

theorem takeable_of_namedTake {cmd : Cmd} (ht : namedTake cmd c s = some b) : takeable c s = some b :=
  (Option.filter_eq_some_iff.1 ht).1

theorem Formed.takeCommand (h : Formed none s) {cmd : Cmd} (ht : takeable c s = some b) :
    Formed none (takeCommand cmd c b s) := by
  have htaken := h.dequeue (slotFree_of_takeable ht)
  unfold Machine.takeCommand
  dsimp only
  split
  · split
    · exact htaken.refuse
    · exact htaken.respond
  · exact htaken.runCommand

theorem Formed.retakeStep (h : Formed none s) : Formed none (retakeStep c s) := by
  unfold Machine.retakeStep
  split
  next ht =>
    split
    · exact h.takeCommand ht
    · exact h.setChan rfl id
  next => exact h.setChan rfl id

theorem Formed.stepBegins (h : Formed o s) {a : Active} : Formed o (stepBegins c a s) := by
  unfold Machine.stepBegins
  split
  · exact h.goWait
  · exact h

theorem Formed.runJob (h : Formed none s) {j : Job} : Formed none (runJob j s) := by
  unfold Machine.runJob
  split
  · split
    · exact h.stepBegins.chanStep
    · exact h
  · split
    · exact h.pendingUndoStep
    · exact h
  · exact h.retakeStep
  · exact h.requestStep
  · split
    · exact h.startRequest
    · exact h
  · exact h.poisonStep
  · split
    next hw =>
      split
      · exact h.revocationStep hw
      · exact h
    next => exact h

theorem Formed.settle (h : Formed none s) : Formed none (settle s) :=
  runLoop_keeps (P := Formed none) (fun _ _ h _ => h.runJob) _ h

end Sys2Proof.Machine
end

section
namespace Sys2Proof.Machine
variable {o : Option Nat} {s : State}

/-! ### Fills that land or fail (Events) -/

theorem Formed.resumeChannel (h : Formed o s) {line c : Nat} : Formed o (resumeChannel line s c) :=
  h.setChan rfl fun ha => by rw [ha]; rfl

theorem Formed.resumeLine (h : Formed o s) {line : Nat} : Formed o (resumeLine line s) := by
  unfold Machine.resumeLine
  have hresumed := h.foldl (f := Machine.resumeChannel line) (fun _ _ h => h.resumeChannel) channelNumbers
  exact Formed.setWarm (by exact hresumed) (by rw [Option.map_map]; rfl)

theorem way_of_landable {f : Fill} {w : Nat} {d : RecordRead × RecordRead × RecordRead × RecordRead}
    (hl : landable s f = some (w, d)) : f.way = some w := by
  unfold landable at hl
  split at hl
  next hw _ =>
    split at hl
    · cases hl
      exact hw
    · split at hl
      · cases hl
      · cases hl
        exact hw
  next => cases hl

theorem Formed.tryLand (h : Formed o s) {serial : Nat} : Formed o (tryLand serial s) := by
  unfold Machine.tryLand
  split
  · exact h
  next hf =>
    split
    next hl => exact (h.installLine (h.fillWays _ (List.mem_of_find?_eq_some hf) _ (way_of_landable hl))).resumeLine
    next => exact h

theorem Formed.commandFillFailed (h : Formed none s) {line c : Nat} : Formed none (commandFillFailed line s c) := by
  unfold Machine.commandFillFailed
  split
  · exact h
  · split
    · exact h
    · split
      · exact h.goWait
      · exact h.goWait
      · exact h.goWait
      · exact h.retireRemovalFailed
      · exact h.stopCollect
      · exact h.stopWork

theorem Formed.undoFillFailed (h : Formed o s) {line c : Nat} : Formed o (undoFillFailed line s c) := by
  unfold Machine.undoFillFailed
  split
  · split
    · exact h.setChan rfl id
    · exact h
  · exact h

theorem Formed.stepsFailed (h : Formed none s) {line : Nat} : Formed none (stepsFailed line s) := by
  unfold Machine.stepsFailed
  extract_lets t u v w
  have ht : Formed none t := h.foldl (f := Machine.commandFillFailed line) (fun _ _ h => h.commandFillFailed) _
  have hu : Formed none u := ht.foldl (f := Machine.undoFillFailed line) (fun _ _ h => h.undoFillFailed) _
  have hv : Formed none v := by
    unfold v
    split
    · exact hu.finishRequest
    · exact hu
  clear_value v
  have hw : Formed none w := hv
  split
  · split
    · exact hw.revocationFailed
    · exact hw
  · exact hw

theorem Formed.failFill (h : Formed none s) {serial : Nat} : Formed none (failFill serial s) := by
  unfold Machine.failFill
  split
  · exact h
  · refine (Formed.raise (Formed.foldl (Formed.keepJobs ?_) (fun _ _ h => h.answer) _)).stepsFailed
    exact
      { h with
        fillWays := fun x hx => h.fillWays x (List.mem_of_mem_filter hx)
        fills := (List.length_filter_le _ _).trans h.fills
        misses := (List.length_filter_le _ _).trans h.misses }

theorem Formed.fillData (h : Formed o s) {serial : Nat} {d : RecordRead × RecordRead × RecordRead × RecordRead} :
    Formed o (fillData serial d s) := by
  unfold Machine.fillData
  refine Formed.tryLand (h.mapFills fun x w hw => .inl ?_)
  split at hw <;> exact hw

/-! ### The warm reset's stages -/

theorem Formed.keepUndo (h : Formed none s) {c : Nat} : Formed none (keepUndo s c) := by
  unfold Machine.keepUndo
  split
  next a w _ hw =>
    obtain ⟨hctl, hwork, hslots, hres⟩ := (h.cleanUp (c := c) (w := a.work)).channel c
    have howed : ∀ x, owed none (some { w with stopped := w.stopped + 1 }) x =
        owed none (Machine.cleanUp c a.work s).warm x := fun x => by
      rw [cleanUp_warm, hw]
      rfl
    refine h.cleanUp.writeChanOwed (fun x _ => howed x) ⟨hctl, hwork, hslots, ?_⟩
    rw [howed, if_pos rfl]
    exact (Nat.add_le_add_right (Nat.zero_le _) _).trans hres
  next => exact h.setChan rfl id

theorem keepUndo_warm_isSome (c : Nat) : (keepUndo s c).warm.isSome = s.warm.isSome := by
  unfold keepUndo
  split
  next hw => rw [hw]; rfl
  next => rfl

/-- In a warm reset the channel's command has stopped, and no other channel has taken one. -/
theorem keepUndo_idle (hw : s.warm.isSome) {c x : Nat} (hx : x = c ∨ (chan s x).active = none) :
    (chan (keepUndo s c) x).active = none := by
  unfold keepUndo
  split
  next a w _ _ =>
    rw [chan_setChan]
    split
    · rfl
    next hne =>
      have hother : chan (cleanUp c a.work s) x = chan s x := by rw [chan, cleanUp_channels]; rfl
      exact (congrArg Channel.active hother).trans (hx.resolve_left hne)
  next hnone =>
    rw [chan_setChan]
    split
    next hxc =>
      cases ha : (chan s c).active with
      | none => rfl
      | some a =>
        obtain ⟨w, hw⟩ := Option.isSome_iff_exists.1 hw
        exact absurd hw (hnone a w ha)
    next hne => exact hx.resolve_left hne

theorem foldl_keepUndo_idle (l : List Nat) (hw : s.warm.isSome) {x : Nat}
    (hx : x ∈ l ∨ (chan s x).active = none) : (chan (l.foldl keepUndo s) x).active = none := by
  induction l generalizing s with
  | nil => exact hx.resolve_left List.not_mem_nil
  | cons c l ih =>
    refine ih ((keepUndo_warm_isSome c).trans hw) ?_
    rcases hx with hx | hx
    · exact (List.mem_cons.1 hx).elim (fun hxc => .inr (keepUndo_idle hw (.inl hxc))) .inl
    · exact .inr (keepUndo_idle hw (.inr hx))

theorem foldl_keepUndo_warm (l : List Nat) : (l.foldl keepUndo s).warm.isSome = s.warm.isSome := by
  induction l generalizing s with
  | nil => rfl
  | cons c l ih => exact ih.trans (keepUndo_warm_isSome c)

theorem foldl_clearChannel_warm (l : List Nat) (owner : Nat) : (l.foldl (clearChannel owner) s).warm = s.warm := by
  induction l generalizing s with
  | nil => rfl
  | cons c l ih => exact ih

/-- The channels without an active command are emptied but for the response that the warm reset owes. -/
theorem Formed.clearChannels (h : Formed none s) {owner : Nat} (hw : s.warm.map (·.channel) = some owner)
    (l : List Nat) (hidle : ∀ x ∈ l, (chan s x).active = none) : Formed none (l.foldl (clearChannel owner) s) := by
  induction l generalizing s with
  | nil => exact h
  | cons c l ih =>
    have hcleared : Formed none (Machine.clearChannel owner s c) := by
      refine h.writeChan ⟨Nat.zero_le _, Nat.zero_le _, ?_, ?_⟩
      · dsimp only
        split <;> decide
      · simp [owed, hw, hidle c List.mem_cons_self, eq_comm (a := c)]
    refine ih hcleared hw fun x hx => ?_
    rw [Machine.clearChannel, chan_setChan]
    split
    next hxc => exact hidle c List.mem_cons_self
    next => exact hidle x (List.mem_cons_of_mem _ hx)

theorem Formed.clearNoticeMarks (h : Formed o s) :
    Formed o (clearNoticeMarks s) := h.foldl (fun _ _ h => h.clearMarks) _

theorem Formed.clearingStep (h : Formed none s) {w : WarmReset} (hw : s.warm = some w)
    (hidle : ∀ x ∈ channelNumbers, (chan s x).active = none) : Formed none (clearingStep w s) := by
  have hcleared := h.clearChannels (owner := w.channel) (by rw [hw]; rfl) channelNumbers hidle
  have hlists : Formed none { channelNumbers.foldl (Machine.clearChannel w.channel) s with
      requests := [], results := [], log := [] } :=
    { hcleared with requests := Nat.zero_le _, results := tableForm_nil _, log := Nat.zero_le _ }
  refine Formed.clearNoticeMarks (hlists.setWarm ?_)
  dsimp only
  rw [foldl_clearChannel_warm, hw]
  rfl

theorem Formed.beginRevocation (h : Formed o s) {w : WarmReset} (hw : s.warm = some w) :
    Formed o (beginRevocation w s) := by
  have hdirty : Formed o { s with ways := s.ways.filter (fun p => p.2.dirty) } := { h with ways := h.ways.filter _ }
  exact hdirty.setWarm (by rw [hw]; rfl)

theorem Formed.writeBackStages (h : Formed o s) : Formed o (writeBackStages s) := by
  unfold Machine.writeBackStages
  split
  · dsimp only
    split
    · exact h.writeBackMore
    · exact h.writeBackMore
  next hw _ =>
    split
    · dsimp only
      split
      · exact h.writeBackMore.beginRevocation (by rw [Machine.writeBackMore, issueWriteBacks_warm, hw])
      · exact h.writeBackMore
    · exact h
  · exact h

theorem Formed.noteWriteEnded (h : Formed o s) {line : Nat} {ok : Bool} : Formed o (noteWriteEnded line ok s) :=
  (Formed.setWarm (w := s.warm.map _) h (by rw [Option.map_map]; rfl) : Formed o { s with warm := _ })

theorem Formed.afterSettling (h : Formed none s) : Formed none (afterSettling s) := by
  have hkept := h.withholdLines.foldl (f := Machine.keepUndo) (fun _ _ h => h.keepUndo) channelNumbers
  unfold Machine.afterSettling
  dsimp only
  split
  next w hw =>
    have hbegun : (Machine.withholdLines s).warm.isSome := by rw [← foldl_keepUndo_warm channelNumbers, hw]; rfl
    exact (hkept.clearingStep hw fun x hx => foldl_keepUndo_idle _ hbegun (.inl hx)).writeBackStages.settle
  next => exact hkept

/-! ### Write-backs and the ends of own requests -/

theorem Formed.writeBackOk (h : Formed o s) {key line : Nat} {changed : Bool} :
    Formed o (writeBackOk key line changed s) := by
  unfold Machine.writeBackOk
  split
  · exact h
  next hw =>
    split
    · split
      · exact h.produceJob
      · exact h
    · exact { h with ways := h.ways.put (h.ways.lt hw) _ }

theorem Formed.writeBackDone (h : Formed none s) {key line : Nat} {changed ok : Bool} :
    Formed none (writeBackDone key line changed ok s) := by
  unfold Machine.writeBackDone
  extract_lets t u v w
  have hu : Formed none u := by
    unfold u
    split
    · exact h.noteWriteEnded.writeBackOk
    · exact h.noteWriteEnded.enterCause
  have hw : Formed none w := by
    unfold w
    split
    · split
      · exact hu.flushEnded.tryLand
      · exact hu.flushEnded.failFill
    · exact hu.flushEnded
  exact hw.writeBackStages

theorem Formed.jobEnded (h : Formed none s) {x : Outstanding} {ok : Bool} : Formed none (jobEnded x ok s) := by
  unfold Machine.jobEnded
  split
  · exact h.failFill
  · exact h.writeBackDone
  · exact h.formatWriteEnded
  · exact h.zeroWriteEnded
  · exact h.harvestEnded

theorem Formed.writeCompletion (h : Formed none s) {cls : ReqClass} {tag : Nat} {status : DownStatus} {t : State}
    (ht : writeCompletion cls tag status s = some t) : Formed none t := by
  unfold Machine.writeCompletion at ht
  split at ht
  · split at ht
    · cases ht
      exact h.retireTag.jobEnded.settle
    · cases ht
  · cases ht

theorem Formed.fillCompletion (h : Formed none s) {tag : Nat} {reply : FillReply} {t : State}
    (ht : fillCompletion tag reply s = some t) : Formed none t := by
  unfold Machine.fillCompletion at ht
  split at ht
  · dsimp only at ht
    split at ht
    · cases ht
      exact h.retireTag.fillData.settle
    · cases ht
      exact h.retireTag.failFill.settle
  · cases ht

theorem Formed.ownTimeout (h : Formed none s) {tag : Nat} {t : State} (ht : ownTimeout tag s = some t) :
    Formed none t := by
  unfold Machine.ownTimeout at ht
  split at ht
  · cases ht
    exact h.elapse.retireTag.holdTag.jobEnded.settle
  · cases ht

theorem Formed.heldTagRelease (h : Formed o s) {tag : Nat} {t : State} (ht : heldTagRelease tag s = some t) :
    Formed o t := by
  unfold Machine.heldTagRelease at ht
  split at ht
  · cases ht
    exact h.elapse.freeHeldTag
  · cases ht

theorem Formed.staleDiscard (h : Formed o s) {tag : Nat} {t : State} (ht : staleDiscard tag s = some t) :
    Formed o t := by
  unfold Machine.staleDiscard at ht
  split at ht
  · cases ht
  · cases ht
    exact h.freeHeldTag

theorem Formed.orphanLimit (h : Formed none s) {i : Nat} {t : State} (ht : orphanLimit i s = some t) :
    Formed none t := by
  unfold Machine.orphanLimit at ht
  split at ht
  · cases ht
  next e he =>
    split at ht
    · cases ht
    · dsimp only at ht
      split at ht
      · cases ht
        exact h.elapse.freeEntry
      · cases ht
        have hpassed := h.elapse (d := Config.holdLimit - e.timer)
        refine (Formed.orderPoison ?_).settle
        exact { hpassed with inFlight := hpassed.inFlight.put (h.inFlight.lt he) _ }

/-! ### Power warning -/

theorem Formed.dropOrdered (h : Formed o s) {c : Nat} : Formed o (dropOrdered c s) := by
  unfold Machine.dropOrdered
  split <;> exact h

theorem Formed.abandon (h : Formed none s) {c : Nat} : Formed none (abandon s c) := by
  unfold Machine.abandon
  extract_lets t ch u
  have ht : Formed none t := Formed.dropOrdered h.withdrawDrains.withdrawDrains.withdrawDrains
  obtain ⟨hctl, hwork, hslots, hres⟩ := ht.channel c
  have hu : Formed none u := by
    refine ht.writeChan ⟨hctl, hwork, ?_, ?_⟩
    · dsimp only
      split
      · exact (Nat.add_le_add_left (Nat.sub_le _ _) _).trans hslots
      · exact hslots
    · dsimp only
      rw [if_pos rfl]
      cases ha : (chan t c).active with
      | none =>
        rw [if_pos ha] at hres
        exact hres
      | some a =>
        rw [if_neg (by rw [ha]; exact Option.some_ne_none a)] at hres
        simp only [ch, Option.isSome_some, if_true]
        omega
  exact hu.haltUnitsOf

theorem Formed.dropUnissued (h : Formed o s) : Formed o (dropUnissued s) := h

theorem Formed.flushGoesOn (h : Formed o s) : Formed o (flushGoesOn s) := by
  unfold Machine.flushGoesOn
  split
  · exact Formed.writeBackStages (by exact h)
  · exact h

theorem Formed.powerEdge (h : Formed none s) : Formed none (powerEdge s) := by
  have hended : Formed none { s with warm := none } := h.owe fun x => by simp [owed]
  have hbegun : Formed none { Machine.withholdLines s with flush := .waiting, running := none, warm := none } := hended
  exact (hbegun.withdrawDrains.withdrawDrains.foldl (fun _ _ h => h.abandon) _).dropUnissued.flushGoesOn

end Sys2Proof.Machine
end

section
namespace Sys2Proof.Machine
variable {o : Option Nat} {s : State} {r : Request} {g : Nat}

/-! ### The domain request line and the management path (Check) -/

theorem Formed.takeGuestRequest (h : Formed none s) {x : GuestRequest}
    (hroom : s.requests.length < Config.requestQueue) :
    Formed none (takeGuestRequest x s) := by
  unfold Machine.takeGuestRequest
  refine (Formed.setResult ?_).settle
  exact { h with requests := List.length_append.trans_le hroom }

theorem Formed.guestWrite (h : Formed none s) : Formed none (guestWrite r s) := by
  unfold Machine.guestWrite
  dsimp only
  split
  · exact h.answer
  next hgood =>
    have hroom : s.requests.length < Config.requestQueue :=
      Nat.lt_of_not_le fun hfull => hgood (.inr (.inr (.inr hfull)))
    exact (h.takeGuestRequest hroom).decideFor

theorem Formed.guestLine (h : Formed none s) : Formed none (guestLine r s) := by
  unfold Machine.guestLine
  split
  · exact h.answer
  · exact h.answer
  · exact h.answer
  · exact h.answer
  · split
    · exact h.violate.answer
    · exact h.answer
    · exact h.answer
    · exact h.answer
    · exact h.answer
    · exact h.answer
    · split
      · exact h.decideFor
      · exact h.guestWrite

theorem Formed.submit (h : Formed o s) {c : Nat} : Formed o (submit r c s) := by
  obtain ⟨hctl, hwork, hslots, hres⟩ := h.channel c
  unfold Machine.submit
  dsimp only
  split
  · split
    next hfree => exact (h.pushResponse hfree).decideFor
    next => exact h.answer
  · split
    · split
      next hroom =>
        refine Formed.decideFor ?_
        exact h.writeChan ⟨hctl, List.length_append.trans_le hroom, hslots, hres⟩
      next => exact h.answer
    · split
      next hroom =>
        refine Formed.decideFor ?_
        exact h.writeChan ⟨List.length_append.trans_le hroom, hwork, hslots, hres⟩
      next => exact h.answer

theorem Formed.readResponse (h : Formed none s) {c : Nat} : Formed none (readResponse r c s) := by
  obtain ⟨hctl, hwork, hslots, hres⟩ := h.channel c
  unfold Machine.readResponse
  dsimp only
  split
  · exact h.decideFor
  next hready =>
    rw [hready, List.length_cons, Nat.succ_add] at hslots
    refine (Formed.decideFor ?_).settle
    exact h.writeChan ⟨hctl, hwork, Nat.le_of_succ_le hslots, hres⟩

theorem Formed.management (h : Formed none s) {offset : Nat} : Formed none (management r offset s) := by
  unfold Machine.management
  split
  · exact h.submit
  · exact h.readResponse
  · exact h.decideFor
  · exact h.answer

/-! ### The check: one transaction more may join the Miss Queue -/

theorem Formed.refuseLogged (h : Formed o s) {reason : Reason} {seen : Option TagRecord} {status : Status} :
    Formed o (refuseLogged r reason seen status s) :=
  h.violate.answer

theorem Formed.decideByRecord (h : Formed o s) {rec : TagRecord} : Formed o (decideByRecord r g rec s) := by
  unfold Machine.decideByRecord
  split
  · exact h.refuseLogged
  · dsimp only
    split
    · exact h.forward
    · exact h.markWrite.forward

theorem Formed.checkRecordStep (h : Formed o s) (hroom : s.missQueue.length < Config.missEntries) :
    Formed o (checkRecordStep r g s) := by
  unfold Machine.checkRecordStep
  split
  next hl => exact (h.lookup hl).decideByRecord
  next =>
    refine Formed.joinFill ?_
    exact { h with misses := List.length_append.trans_le hroom }

theorem Formed.checkGranule (h : Formed o s) (hroom : s.missQueue.length < Config.missEntries) :
    Formed o (checkGranule r g s) := by
  unfold Machine.checkGranule
  split
  · exact h.refuseLogged
  · split
    · exact h.checkRecordStep hroom
    · split
      · exact h.forward
      · exact h.refuseLogged

theorem Formed.checkDomain (h : Formed o s) (hroom : s.missQueue.length < Config.missEntries) :
    Formed o (checkDomain r g s) := by
  unfold Machine.checkDomain
  split
  · exact h.checkGranule hroom
  · split
    · exact h.checkGranule hroom
    · exact h.refuseLogged
    · exact h.answer
    · exact h.answer
    · exact h.answer
    · exact h.answer
    · exact h.checkGranule hroom

theorem Formed.checkGoverned (h : Formed o s) (hroom : s.missQueue.length < Config.missEntries) :
    Formed o (checkGoverned r g s) := by
  unfold Machine.checkGoverned
  split
  · exact h.answer
  · split
    · exact h.forward
    · exact h.answer
  · split
    · exact h.answer
    · split
      · exact h.refuseLogged
      · exact h.forward
  · split
    · exact h.checkDomain hroom
    · exact h.answer
  · exact h.checkDomain hroom

theorem Formed.checkAperture (h : Formed none s) {offset : Nat} : Formed none (checkAperture r offset s) := by
  unfold Machine.checkAperture
  split
  · exact h.answer
  · split
    · exact h.management
    · split
      · exact h.guestLine
      · exact h.refuseLogged

theorem Formed.check (h : Formed none s) (hroom : s.missQueue.length < Config.missEntries) :
    Formed none (check r s) := by
  unfold Machine.check
  split
  · exact h.checkAperture
  · split <;> exact h.answer
  · exact h.checkGoverned hroom

theorem Formed.takeRequest (h : Formed none s) (hroom : s.missQueue.length < Config.missEntries) :
    Formed none (takeRequest r s) := by
  unfold Machine.takeRequest
  split
  · exact h
  · exact Formed.check (by exact h) hroom

theorem Formed.offerRequest (h : Formed none s) {t : State} (ht : offerRequest r s = some t) : Formed none t := by
  unfold Machine.offerRequest at ht
  split at ht
  next haccepts =>
    cases ht
    simp only [accepts, Bool.and_eq_true, decide_eq_true_eq] at haccepts
    obtain ⟨⟨⟨-, hroom⟩, -⟩, -⟩ := haccepts
    exact h.takeRequest hroom
  next => cases ht

theorem Formed.presentReleased (h : Formed none s) {t : State} (ht : presentReleased s = some t) : Formed none t := by
  unfold Machine.presentReleased at ht
  split at ht
  next m _ hm =>
    cases ht
    have hlen := List.length_erase_add_one (List.mem_of_find?_eq_some hm)
    have hmisses := h.misses
    have hroom : (s.missQueue.erase m).length < Config.missEntries := by omega
    refine Formed.check ?_ hroom
    exact { h with misses := hroom.le }
  next => cases ht

/-! ### The rows -/

variable {t : State}

theorem Formed.heldForward (h : Formed o s) (ht : heldForward s = some t) : Formed o t := by
  unfold Machine.heldForward at ht
  split at ht <;> cases ht
  exact h.forwardHeld

theorem Formed.completionTaken (h : Formed o s) (ht : completionTaken s = some t) : Formed o t := by
  unfold Machine.completionTaken at ht
  split at ht <;> cases ht
  exact h

theorem Formed.noticeTaken (h : Formed o s) (ht : noticeTaken s = some t) : Formed o t := by
  unfold Machine.noticeTaken at ht
  split at ht <;> cases ht
  exact h

theorem Formed.linkDown (h : Formed o s) : Formed o (linkDown s) :=
  { h with inFlight := h.inFlight.map _ fun _ => rfl, misses := Nat.zero_le _ }

theorem Formed.startHead (h : Formed none s) {k : GuestKind} (ht : startHead k s = some t) : Formed none t := by
  unfold Machine.startHead at ht
  split at ht
  · split at ht <;> cases ht
    exact h.startRequest.settle
  · cases ht

theorem Formed.takeRun (h : Formed none s) {cmd : Cmd} {c : Nat} (ht : takeRun cmd c s = some t) : Formed none t := by
  obtain ⟨b, hb, rfl⟩ := Option.map_eq_some_iff.1 ht
  exact (h.takeCommand (takeable_of_namedTake hb)).settle

theorem Formed.takeControl (h : Formed none s) {cmd : Cmd} {c : Nat} (ht : takeControl cmd c s = some t) :
    Formed none t := by
  obtain ⟨b, hb, rfl⟩ := Option.map_eq_some_iff.1 ht
  exact h.takeCommand (takeable_of_namedTake hb)

theorem Formed.fillClaims (h : Formed none s) {set way : Nat} (hway : way < Config.cacheWays)
    (ht : fillClaims set way s = some t) : Formed none t := by
  unfold Machine.fillClaims at ht
  split at ht
  · split at ht <;> cases ht
    exact (h.claimFor hway).tryLand.settle
  · cases ht

theorem Formed.waitListStart (h : Formed o s) (ht : waitListStart s = some t) : Formed o t := by
  unfold Machine.waitListStart at ht
  split at ht
  · split at ht <;> cases ht
    next hroom => exact Formed.startFill (by exact h) hroom
  · cases ht

theorem Formed.formatDrained (h : Formed none s) {c : Nat} (ht : formatDrained c s = some t) : Formed none t := by
  unfold Machine.formatDrained at ht
  split at ht <;> cases ht
  exact h.goPhase.settle

theorem Formed.unitGrant (h : Formed o s) (ht : unitGrant s = some t) : Formed o t := by
  unfold Machine.unitGrant at ht
  split at ht <;> cases ht
  next hu _ => exact h.grantUnit (tblFree_lt hu)

theorem Formed.granuleDrained (h : Formed none s) {c : Nat} (ht : granuleDrained c s = some t) : Formed none t := by
  unfold Machine.granuleDrained at ht
  split at ht <;> cases ht
  exact h.goPhase.settle

theorem Formed.clearanceDrained (h : Formed none s) {c : Nat} (ht : clearanceDrained c s = some t) :
    Formed none t := by
  unfold Machine.clearanceDrained at ht
  split at ht <;> cases ht
  exact h.goPhase.settle

theorem Formed.claimReleased (h : Formed none s) {c : Nat} (ht : claimReleased c s = some t) : Formed none t := by
  unfold Machine.claimReleased at ht
  split at ht
  · split at ht
    · split at ht <;> cases ht
      exact h.goWait.settle
    · cases ht
  · cases ht

theorem Formed.removalDue (h : Formed none s) {who : Remover} (ht : removalDue who s = some t) : Formed none t := by
  unfold Machine.removalDue at ht
  split at ht
  · split at ht <;> cases ht
    exact h.goPhase.settle
  · split at ht
    · split at ht <;> cases ht
      exact h.requestWait.settle
    · cases ht
  · split at ht
    · split at ht <;> cases ht
      exact h.setRevocation.settle
    · cases ht

theorem Formed.groupDrained (h : Formed o s) {c : Nat} (ht : groupDrained c s = some t) : Formed o t := by
  unfold Machine.groupDrained at ht
  split at ht <;> cases ht
  exact h.harvestIssue

theorem Formed.powerWarn (h : Formed none s) (ht : powerWarn s = some t) : Formed none t := by
  unfold Machine.powerWarn at ht
  split at ht <;> cases ht
  split
  · exact h
  · exact (Formed.powerEdge (by exact h)).settle

theorem Formed.faultAssert (h : Formed o s) (ht : faultAssert s = some t) : Formed o t := by
  unfold Machine.faultAssert at ht
  split at ht <;> cases ht
  split
  · exact Formed.enterCause (by exact h)
  · exact h

/-- The end of a row: what it has produced is issued, and the form stands between steps. -/
theorem sound_answerStep {x : Option State} (hs : Sound s) (h : answerStep s x = .next t)
    (hx : ∀ u, x = some u → Formed none u) : Sound t := by
  unfold answerStep at h
  split at h
  next u =>
    cases h
    refine sound_iff.2 ⟨(hx u rfl).issueProduced.finish, ?_⟩
    rw [finish_produced, issueProduced_produced, hs.produced]
  next =>
    cases h
    exact hs

theorem sound_offerUnless {b : Prop} [Decidable b] (hs : Sound s)
    (h : answerStep s (if b then none else offerRequest r s) = .next t) : Sound t :=
  sound_answerStep hs h fun u hu => by
    split at hu
    · cases hu
    · exact (sound_iff.1 hs).1.offerRequest hu

/-- A step that produces nothing. -/
theorem sound_next {u : State} (h : Host.Outcome.next (ρ := Refusal) (φ := Fault) u = .next t) (hu : Formed none u)
    (hp : u.produced = []) : Sound t := by
  cases h
  exact sound_iff.2 ⟨hu, hp⟩

/-- A row that is always possible. -/
theorem sound_always {u : State} (hs : Sound s) (h : answerStep s (some u) = .next t) (hu : Formed none u) : Sound t :=
  sound_answerStep hs h fun v hv => by
    cases hv
    exact hu

/-- A row that is possible under a condition. -/
theorem sound_when {b : Prop} [Decidable b] {u : State} (hs : Sound s)
    (h : answerStep s (if b then some u else none) = .next t) (hu : Formed none u) : Sound t :=
  sound_answerStep hs h fun v hv => by
    split at hv <;> cases hv
    exact hu

theorem sound_exec {i : Instr} (hs : Sound s) (h : exec i s = .next t) : Sound t := by
  have hf := (sound_iff.1 hs).1
  cases i with
  | coldReset b k => exact sound_next h (sound_iff.1 sound_reset).1 rfl
  | requestTaken _ | submission _ _ _ | responseRead _ _ => exact sound_answerStep hs h fun _ hu => hf.offerRequest hu
  | apertureOtherWrite _ _ _ _ _ | domainRequestWrite _ _ _ _ _ | domainRequestRead _ _ => exact sound_offerUnless hs h
  | presentReleasedWaiter => exact sound_answerStep hs h fun _ hu => hf.presentReleased hu
  | heldTransactionForward => exact sound_answerStep hs h fun _ hu => hf.heldForward hu
  | completionTaken => exact sound_answerStep hs h fun _ hu => hf.completionTaken hu
  | noticePacketTaken => exact sound_answerStep hs h fun _ hu => hf.noticeTaken hu
  | upstreamLinkDown => exact sound_next h hf.linkDown.finish (by rw [finish_produced]; exact hs.produced)
  | upstreamLinkUp =>
    refine sound_answerStep hs h fun u hu => ?_
    split at hu <;> cases hu
    exact hf
  | downstreamLinkDown | downstreamLinkUp =>
    exact sound_next h (Formed.finish (by exact hf)) (by rw [finish_produced]; exact hs.produced)
  | downstreamOfferTaken => exact sound_when hs h hf.takeOffer
  | downstreamTagGrant _ => exact sound_always hs h hf.grantTag
  | forwardedCompletion _ _ _ => exact sound_always hs h hf.inFlightCompletion
  | forwardedTimeout _ => exact sound_always hs h hf.inFlightTimeout
  | staleCompletionDiscard _ => exact sound_answerStep hs h fun _ hu => hf.staleDiscard hu
  | orphanLimit _ => exact sound_answerStep hs h fun _ hu => hf.orphanLimit hu
  | ownRequestTimeout _ => exact sound_answerStep hs h fun _ hu => hf.ownTimeout hu
  | heldTagRelease _ => exact sound_answerStep hs h fun _ hu => hf.heldTagRelease hu
  | fillReadCompletion _ _ => exact sound_answerStep hs h fun _ hu => hf.fillCompletion hu
  | fillClaimsWay _ way => exact sound_answerStep hs h fun _ hu => hf.fillClaims way.isLt hu
  | fillWaitListStart => exact sound_answerStep hs h fun _ hu => hf.waitListStart hu
  | writeBackCompletion _ _ | formatWriteCompletion _ _ | zeroWriteCompletion _ _ | harvestWriteCompletion _ _ =>
    exact sound_answerStep hs h fun _ hu => hf.writeCompletion hu
  | formatDrainDone _ => exact sound_answerStep hs h fun _ hu => hf.formatDrained hu
  | scrubUnitGrant => exact sound_answerStep hs h fun _ hu => hf.unitGrant hu
  | granuleDrainDone _ => exact sound_answerStep hs h fun _ hu => hf.granuleDrained hu
  | retireClearanceDrainsDone _ => exact sound_answerStep hs h fun _ hu => hf.clearanceDrained hu
  | retireClaimReleased _ => exact sound_answerStep hs h fun _ hu => hf.claimReleased hu
  | revocationRemoval _ => exact sound_answerStep hs h fun _ hu => hf.removalDue hu
  | harvestGroupDrained _ => exact sound_answerStep hs h fun _ hu => hf.groupDrained hu
  | offer | withdraw | pin | unpin | query => exact sound_answerStep hs h fun _ hu => hf.startHead hu
  | format _ | assign _ | release _ | restore _ | queryGranules _ | retire _ | revokeGrant _ | trackStart _
  | trackCollect _ | flushTags _ | regionSet _ | trackStop _ | abort _ | resetEngines _ =>
    exact sound_answerStep hs h fun _ hu => hf.takeRun hu
  | create _ | start _ | pause _ | resume _ | unfence _ | setQuota _ | setFence _ | clearDomainCounters _
  | domainStatus _ | activateGrant _ | grantRead _ | trackStatus _ | violationPop _ | noticeConfig _ | noticeClear _
  | noticeStatus _ | regionClear _ | regionLockdown _ | freeze _ | setFaultPolicy _ | contain _ | resumePart _
  | ackIntegrity _ | clearIntegrityCount _ | setCorrectedLimit _ | poisonRead _ | partStatus _ =>
    exact sound_answerStep hs h fun _ hu => hf.takeControl hu
  | warmResetSettled => exact sound_when hs h hf.afterSettling
  | powerWarn => exact sound_answerStep hs h fun _ hu => hf.powerWarn hu
  | powerWarnQuiesced => exact sound_when hs h hf.flushGoesOn
  | platformFaultAssert => exact sound_answerStep hs h fun _ hu => hf.faultAssert hu
  | platformFaultDeassert | powerWarnDeassert => exact sound_next h hf hs.produced

/-- Settles O17: every operation keeps the form, the rows issue what they have produced, and an empty queue only lets
the timers run. -/
theorem everyStepKeepsTheTablesSound : Obligations.EveryStepKeepsTheTablesSound := by
  intro s t hs h
  unfold step at h
  split at h
  next c rest _ =>
    have hrest : Sound { s with pending := rest } := { hs with }
    exact sound_exec hrest h
  next => exact sound_next h (sound_iff.1 hs).1.elapse hs.produced

end Sys2Proof.Machine
end

section
/-!
PROOFS. The integrity commands and PART_STATUS (R53, R57, R58, R203): O13.
-/

namespace Sys2Proof.Machine
variable {s : State} {cmd : Cmd} {c : Nat} {b : Line}

/-- A control command that produces no request ends its row with what its rule leaves (R168, R170). -/
theorem answerStep_takeControl (h : TakesControl cmd c b s)
    (hp : (runCommand cmd c b (dequeue c s)).produced = s.produced) :
    answerStep s (takeControl cmd c s) = .next (finish (runCommand cmd c b (dequeue c s))) := by
  rw [takeControl_eq h]
  unfold answerStep
  dsimp only
  rw [issueProduced_same _ hp]

theorem TakesControl.head (h : TakesControl cmd c b s) : (chan s c).control.head? = some b := h.2.1

/-- An optional value in a whole value word (R181). -/
theorem optField_word (x : Option Nat) : optField 8 x = x.getD (2 ^ 64 - 1) := rfl

/-- An optional value in half a value word (R181). -/
theorem optField_half (x : Option Nat) : optField 4 x = x.getD (2 ^ 32 - 1) := rfl

/-! ### The response of each command on the state without its block -/

theorem ackIntegrity_responds :
    runCommand .ackIntegrity c b (dequeue c s) =
      respond c b .done { w0 := s.hold.getD (2 ^ 64 - 1) } { dequeue c s with hold := none } := by
  simp only [runCommand, doAckIntegrity, dequeue_hold, optField_word]

theorem clearIntegrityCount_responds :
    runCommand .clearIntegrityCount c b (dequeue c s) =
      respond c b .done { w0 := s.corrected, w1 := s.firstCorrected.getD (2 ^ 64 - 1) }
        { dequeue c s with corrected := 0, firstCorrected := none } := by
  simp only [runCommand, doClearIntegrityCount, dequeue_corrected, dequeue_firstCorrected, optField_word]

theorem setCorrectedLimit_refused (hb : wordA b < 1 ∨ 255 < wordA b) :
    runCommand .setCorrectedLimit c b (dequeue c s) = respond c b .parameter {} (dequeue c s) := by
  have hbad : wordA b = 0 ∨ Config.correctedMax < wordA b := hb.imp_left Nat.lt_one_iff.1
  simp only [runCommand, doSetCorrectedLimit, if_pos hbad]

theorem setCorrectedLimit_responds (hb : ¬(wordA b < 1 ∨ 255 < wordA b)) :
    runCommand .setCorrectedLimit c b (dequeue c s) =
      respond c b .done {}
        (if wordA b ≤ s.corrected then raise .tagCorrectedLimit { dequeue c s with correctedLimit := wordA b }
          else { dequeue c s with correctedLimit := wordA b }) := by
  have hgood : ¬(wordA b = 0 ∨ Config.correctedMax < wordA b) := mt (Or.imp_left Nat.lt_one_iff.2) hb
  simp only [runCommand, doSetCorrectedLimit, if_neg hgood, dequeue_corrected]

theorem poisonRead_refused (hb : 15 < wordA b) :
    runCommand .poisonRead c b (dequeue c s) = respond c b .parameter {} (dequeue c s) := by
  have hbad : Config.poisonEntries ≤ wordA b := hb
  simp only [runCommand, doPoisonRead, if_pos hbad]

theorem poisonRead_empty (hb : ¬15 < wordA b) (he : s.poisonList[wordA b]? = none) :
    runCommand .poisonRead c b (dequeue c s) =
      respond c b .noEntry { w3 := s.poisonList.length } (dequeue c s) := by
  have hgood : ¬Config.poisonEntries ≤ wordA b := hb
  simp only [runCommand, doPoisonRead, if_neg hgood, dequeue_poisonList, he]

theorem poisonRead_entry {e : PoisonEntry} (hb : ¬15 < wordA b) (he : s.poisonList[wordA b]? = some e) :
    runCommand .poisonRead c b (dequeue c s) =
      respond c b .done
        { w0 := e.granule, w1 := e.owner.getD (2 ^ 64 - 1), w2 := poisonCauseCode e.cause
          w3 := s.poisonList.length } (dequeue c s) := by
  have hgood : ¬Config.poisonEntries ≤ wordA b := hb
  simp only [runCommand, doPoisonRead, if_neg hgood, dequeue_poisonList, he, optField_word]

theorem boolBit_lt (x : Bool) : boolBit x < 2 := by cases x <;> decide

theorem modeCode_lt (m : Mode) : modeCode m < 2 ^ 8 := by cases m <;> decide

theorem causeCode_lt (x : Option Cause) : causeCode x < 2 ^ 8 := by
  cases x with
  | none => decide
  | some x => cases x <;> decide

theorem policyCode_lt (p : Policy) : policyCode p < 2 ^ 8 := by cases p <;> decide

/-- The words of PART_STATUS, each of whose fields that are codes fit their byte (R203). -/
theorem partReport_eq (s : State) : partReport s =
    { w0 := modeCode s.mode + 2 ^ 8 * causeCode s.cause + 2 ^ 16 * boolBit s.freeze +
        2 ^ 24 * policyCode s.policy + 2 ^ 32 * (boolBit s.faultLine + 2 * boolBit s.warnLine) +
        2 ^ 40 * boolBit s.hold.isSome + 2 ^ 48 * (s.poisonList.length % 2 ^ 8)
      w1 := s.progress % 2 ^ 32 + 2 ^ 32 * (s.tagBase.getD (2 ^ 32 - 1) % 2 ^ 32)
      w2 := s.firstCorrected.getD (2 ^ 32 - 1) % 2 ^ 32 + 2 ^ 32 * (s.corrected % 2 ^ 8) +
        2 ^ 40 * (s.correctedLimit % 2 ^ 8)
      w3 := s.hold.getD (2 ^ 32 - 1) % 2 ^ 32 + 2 ^ 32 * ((256 - s.inFlight.length) % 2 ^ 16) +
        2 ^ 48 * ((1024 - s.grants.length) % 2 ^ 16)
      w4 := granuleCount s / 4 } := by
  have hmode := modeCode_lt s.mode
  have hcause := causeCode_lt s.cause
  have hfreeze := boolBit_lt s.freeze
  have hpolicy := policyCode_lt s.policy
  have hfault := boolBit_lt s.faultLine
  have hwarn := boolBit_lt s.warnLine
  have hhold := boolBit_lt s.hold.isSome
  unfold partReport
  simp only [packFields, optField_half, Config.inFlightEntries, Config.grantEntries]
  congr 1 <;> omega

theorem partReport_dequeue : partReport (dequeue c s) = partReport s := by
  simp [partReport, tagLineCount]

theorem partStatus_responds :
    runCommand .partStatus c b (dequeue c s) = respond c b .done (partReport s) (dequeue c s) := by
  show respond c b .done (partReport (dequeue c s)) (dequeue c s) = _
  rw [partReport_dequeue]

/-! ### What each row leaves -/

/-- A control command that only responds ends its row so (R170). -/
theorem exists_onlyAnswered (h : TakesControl cmd c b s) {r : Result} {p : Report}
    (hrun : runCommand cmd c b (dequeue c s) = respond c b r p (dequeue c s)) :
    ∃ t, answerStep s (takeControl cmd c s) = .next t ∧ OnlyAnswered c b r p s t :=
  ⟨_, answerStep_takeControl h (by rw [hrun]; simp), by rw [hrun]; exact onlyAnswered_respond h.head⟩

theorem setCorrectedLimit_effect (h : TakesControl .setCorrectedLimit c b s) (hc : c < 4) :
    ∃ t, answerStep s (takeControl .setCorrectedLimit c s) = .next t ∧
      if wordA b < 1 ∨ 255 < wordA b then OnlyAnswered c b .parameter {} s t
      else
        Answered c b .done {} s t ∧ t.correctedLimit = wordA b ∧
          (wordA b ≤ s.corrected → (sourceOf t 3).pending = true) ∧
          (s.corrected < wordA b → NoticesKept c s t) ∧
          Untouched s { t with correctedLimit := s.correctedLimit } := by
  by_cases hb : wordA b < 1 ∨ 255 < wordA b
  · simp only [if_pos hb]
    exact exists_onlyAnswered h (setCorrectedLimit_refused hb)
  · have hrun := setCorrectedLimit_responds (c := c) (s := s) hb
    refine ⟨_, answerStep_takeControl h ?_, ?_⟩
    · rw [hrun]
      split <;> simp
    · rw [if_neg hb, hrun]
      refine ⟨answered_of_respond h.head fun x => ?_, ?_, fun hle => ?_, fun hlt => ?_, ?_⟩
      · split <;> simp [chan]
      · split <;> simp
      · have hn : (3 : Nat) ≠ 7 + c := by omega
        rw [sourceOf_finish_pending, sourceOf_respond_ne _ _ _ _ _ hn, if_pos hle, sourceOf_raise]
        split
        · rfl
        next hraised => simpa [noticeNumber] using hraised
      · rw [if_neg (Nat.not_le.2 hlt)]
        exact noticesKept_respond fun n _ => sourceOf_dequeue s c n
      · unfold Untouched
        split <;> simp

theorem poisonRead_effect (h : TakesControl .poisonRead c b s) :
    ∃ t, answerStep s (takeControl .poisonRead c s) = .next t ∧
      if 15 < wordA b then OnlyAnswered c b .parameter {} s t
      else match s.poisonList[wordA b]? with
        | none => OnlyAnswered c b .noEntry { w3 := s.poisonList.length } s t
        | some e =>
          OnlyAnswered c b .done
            { w0 := e.granule, w1 := e.owner.getD (2 ^ 64 - 1), w2 := poisonCauseCode e.cause
              w3 := s.poisonList.length } s t := by
  split
  next hb => exact exists_onlyAnswered h (poisonRead_refused hb)
  next hb =>
    split
    next he => exact exists_onlyAnswered h (poisonRead_empty hb he)
    next he => exact exists_onlyAnswered h (poisonRead_entry hb he)

/-- Settles O13: each command responds on the state that its rule leaves. -/
theorem integrityCommandsAnswerAndPartStatusReads : Obligations.IntegrityCommandsAnswerAndPartStatusReads := by
  refine ⟨fun c b s h => ?_, fun c b s h => ?_, fun c b s h => setCorrectedLimit_effect h c.isLt,
    fun c b s h => poisonRead_effect h, fun c b s h => ?_⟩
  · refine ⟨_, answerStep_takeControl h (by simp [ackIntegrity_responds]), ?_⟩
    rw [ackIntegrity_responds]
    exact ⟨answered_of_respond h.head fun _ => rfl, noticesKept_respond fun n _ => sourceOf_dequeue s c n, by simp,
      by unfold Untouched; simp⟩
  · refine ⟨_, answerStep_takeControl h (by simp [clearIntegrityCount_responds]), ?_⟩
    rw [clearIntegrityCount_responds]
    exact ⟨answered_of_respond h.head fun _ => rfl, noticesKept_respond fun n _ => sourceOf_dequeue s c n, by simp,
      by simp, by unfold Untouched; simp⟩
  · rw [← partReport_eq]
    exact exists_onlyAnswered h partStatus_responds

end Sys2Proof.Machine
end

section
/-!
PROOFS. A released waiter's check and the held transaction's forwarding (R50, R64 to R77): O36.  What the check decides
of a request is stated once, of the state on which it is made.
-/

namespace Sys2Proof.Machine
variable {s t u v old : State} {r : Request} {g : Nat}

/-! ### What a row of the check ends with -/

/-- A row that produces nothing ends with what the ports offer next. -/
theorem rowEnd_eq (hp : v.produced = old.produced) : finish (issueProduced old v) = finish v := by
  rw [issueProduced_same _ hp]

/-- The end of a step forwards nothing. -/
theorem notForwarded_finish (h : NotForwarded u v) : NotForwarded u (finish v) := by
  simpa only [NotForwarded, finish_inFlight, finish_offers, finish_stage, finish_missQueue, finish_outstanding,
    finish_fills] using h

theorem decided_finish {x : Completion} (h : Decided x u v) : Decided x u (finish v) := (finish_completions v).trans h

theorem onlyAnswers_answer (status : Status) (hp : u.produced = old.produced) :
    OnlyAnswers r status u (finish (issueProduced old (answer r status u))) := by
  rw [rowEnd_eq (by exact hp)]
  exact ⟨decided_finish rfl, notForwarded_finish ⟨rfl, rfl, rfl, rfl, rfl, rfl⟩, finish_log _, dom_finish _,
    finish_ways _⟩

/-- A refusal is answered and recorded, also where its lookup has moved a way in its set's order (R41, R74, R75). -/
theorem refusesLogged_refuseLogged {reason : Reason} {seen : Option TagRecord} {status : Status}
    (l : Table (List Nat)) (hp : u.produced = old.produced) :
    RefusesLogged r reason seen status u
      (finish (issueProduced old (refuseLogged r reason seen status { u with lru := l }))) := by
  have hfields : ∀ x : State, refuseLogged r reason seen status { u with lru := l } = x →
      Decided (refusalOf r status) u x ∧ NotForwarded u x ∧ x.ways = u.ways ∧ x.produced = u.produced := by
    rintro x rfl
    refine ⟨congrArg (· ++ _) (violate_completions ..), ⟨?_, ?_, ?_, ?_, ?_, ?_⟩, ?_, ?_⟩
    · exact violate_inFlight ..
    · exact violate_offers ..
    · exact violate_stage ..
    · exact violate_missQueue ..
    · exact violate_outstanding ..
    · exact violate_fills ..
    · exact violate_ways ..
    · exact violate_produced ..
  obtain ⟨hdecided, hkept, hways, hproduced⟩ := hfields _ rfl
  rw [rowEnd_eq (hproduced.trans hp)]
  obtain ⟨hraised, hlog, hcounted⟩ := violate_recorded (s := { u with lru := l }) r reason seen
  refine ⟨decided_finish hdecided, notForwarded_finish hkept, ⟨fun n => ?_, ?_, ?_⟩, (finish_ways _).trans hways⟩
  · rw [sourceOf_finish_cls, sourceOf_finish_pending]
    exact hraised n
  · rw [finish_log]
    exact hlog
  · simp only [DomainNow, dom_finish]
    exact hcounted

theorem forward_produced (x : HeldTx) : (forward x u).produced = u.produced := by
  unfold forward
  split <;> rfl

theorem forward_missQueue (x : HeldTx) : (forward x u).missQueue = u.missQueue := by
  unfold forward
  split <;> rfl

theorem forward_tagsInUse (x : HeldTx) : (forward x u).tagsInUse = u.tagsInUse := by
  unfold forward
  split <;> rfl

theorem forward_ways (x : HeldTx) : (forward x u).ways = u.ways := by
  unfold forward
  split <;> rfl

/-- A transaction is forwarded, or holds the check stage, from a state in which its write may have been tracked. -/
theorem forwarded_forward {unformatted : Bool} (hp : v.produced = old.produced)
    (hv : (v.completions, v.log, v.inFlight, v.offers, v.stage) = (u.completions, u.log, u.inFlight, u.offers, none)) :
    Forwarded r g unformatted u
      (finish (issueProduced old (forward { request := r, granule := g, unformatted := unformatted } v))) := by
  simp only [Prod.mk.injEq] at hv
  obtain ⟨hcompletions, hlog, hinFlight, hoffers, hstage⟩ := hv
  unfold Forwarded forward freeInFlight
  rw [hinFlight, show Config.inFlightEntries = 256 from rfl]
  cases hfree : tblFree 256 u.inFlight with
  | none =>
    rw [rowEnd_eq (by exact hp)]
    simp [hcompletions, hlog, hoffers]
  | some i =>
    rw [rowEnd_eq (by exact hp)]
    refine ⟨by simpa [allocate] using hcompletions, by simpa [allocate] using hlog, ?_, fun x hx => ?_, ?_, ?_⟩
    · simp [allocate, entryFor]
    · simp [allocate, hinFlight, tblGet_tblPut_ne _ _ hx]
    · simp [allocate, hoffers, offerFor, lineOf, lineAddress]
    · simpa [allocate] using hstage

/-! ### The steps before the record (R65 to R70) -/

theorem check_aperture {off : Nat} (h : classify u r.address = .aperture off) : check r u = checkAperture r off u := by
  unfold check
  rw [h]

theorem check_governed (h : classify u r.address = .governed g) : check r u = checkGoverned r g u := by
  unfold check
  rw [h]

theorem apertureLine_request {off : Nat} (h : apertureLine off = .request) : off = 0x8000 := by
  unfold apertureLine at h
  split at h
  · cases h
  · split at h
    · cases h
    · split at h
      next heq => exact heq
      next =>
        split at h <;> cases h

/-- A governed request that the mode and the domain's state let pass comes to the tag region and the Region Table (R67,
R68). -/
theorem check_passes (hc : classify u r.address = .governed g)
    (hm : u.mode = .operational ∨ (u.mode = .contained ∧ r.domain = 0))
    (hd : r.domain = 0 ∨ (dom u r.domain.val).state = .running) : check r u = checkGranule r g u := by
  have hdomain : checkDomain r g u = checkGranule r g u := by
    unfold checkDomain
    rcases hd with hd | hd
    · rw [if_pos hd]
    · rw [hd, ite_self]
  rw [check_governed hc, checkGoverned]
  rcases hm with hm | ⟨hm, h0⟩
  · rw [hm]
    exact hdomain
  · rw [hm]
    dsimp only
    rw [if_pos h0, hdomain]

/-- The steps before the record answer the request, refuse it or forward it, as its class, the mode, the domain's
state, the tag region and the Region Table say (R65 to R70). -/
theorem check_decides (hstage : u.stage = none) (hp : u.produced = old.produced) :
    DecidedBeforeTheRecord r u (finish (issueProduced old (check r u))) := by
  have hanswers : ∀ {status}, check r u = answer r status u →
      OnlyAnswers r status u (finish (issueProduced old (check r u))) := fun h => h ▸ onlyAnswers_answer _ hp
  have hrefuses : ∀ {reason status}, check r u = refuseLogged r reason none status u →
      RefusesLogged r reason none status u (finish (issueProduced old (check r u))) := fun h =>
    h ▸ refusesLogged_refuseLogged u.lru hp
  have hforwards : ∀ {g un}, check r u = forward { request := r, granule := g, unformatted := un } u →
      Forwarded r g un u (finish (issueProduced old (check r u))) := fun h =>
    h ▸ forwarded_forward hp (by rw [hstage])
  refine ⟨fun off hc hm => ?_, fun off hc hm hd hoff => ?_, fun hc => ?_, fun g hc => ?_⟩
  · exact hanswers (by rw [check_aperture hc, checkAperture, if_pos hm])
  · exact hrefuses (by
      rw [check_aperture hc, checkAperture, if_neg hm, if_neg hd, if_neg (mt apertureLine_request hoff)])
  · refine hanswers ?_
    unfold check
    rw [hc]
    dsimp only
    split <;> rfl
  · have hgoverned := check_governed hc
    refine ⟨fun hm => ?_, fun hm hd => ?_, fun hm hd => ?_, fun hm hd ht => ?_, fun hm hd ht => ?_, fun hm hd => ?_,
      fun hm hd => ⟨fun hf => ?_, fun hf => ?_, fun hf => ?_⟩, fun hpass => ⟨fun ht => ?_, fun ht e he => ?_⟩⟩
    · exact hanswers (by simp [hgoverned, checkGoverned, hm])
    · exact hanswers (by rcases hm with hm | hm <;> simp [hgoverned, checkGoverned, hm, hd])
    · exact hforwards (by simp [hgoverned, checkGoverned, hm, hd])
    · exact hforwards (by simp [hgoverned, checkGoverned, hm, hd, ht])
    · exact hrefuses (by simp [hgoverned, checkGoverned, hm, hd, ht])
    · exact hanswers (by simp [hgoverned, checkGoverned, hm, hd])
    · exact hrefuses (by simp [hgoverned, checkGoverned, checkDomain, hm, hd, hf])
    · exact hanswers (by simp [hgoverned, checkGoverned, checkDomain, hm, hd, hf])
    · exact hanswers (by rcases hf with hf | hf | hf <;> simp [hgoverned, checkGoverned, checkDomain, hm, hd, hf])
    all_goals
      have hgranule : check r u = checkGranule r g u := by
        rcases hpass with ⟨hm, hd⟩ | ⟨hm, hd⟩
        · exact check_passes hc (.inl hm) hd
        · exact check_passes hc (.inr ⟨hm, hd⟩) (.inl hd)
    · exact hrefuses (by rw [hgranule, checkGranule, if_pos ht])
    · have hregion : check r u = if r.domain = 0 ∧ e.noAccess = false then
            forward { request := r, granule := g, unformatted := false } u
          else refuseLogged r .region none .blocked u := by
        simp only [hgranule, checkGranule, ht, he, Bool.false_eq_true, if_false, Bool.not_eq_true']
      split
      next hopen =>
        have hforward := hregion.trans (if_pos hopen)
        exact ⟨hforwards hforward, by
          rw [hforward, rowEnd_eq (by rw [forward_produced, hp]), finish_ways, forward_ways]⟩
      next hshut => exact hrefuses (hregion.trans (if_neg hshut))

/-! ### The record (R71 to R73) -/

theorem recordVerdict_of_permits {rec : TagRecord} (h : Permits r g rec u) : recordVerdict r g rec u = none := by
  unfold recordVerdict
  rcases h with ⟨hs, hd⟩ | ⟨hs, hd, ho⟩ | ⟨hs, hcount, i, e, hg, he, haccess⟩
  · simp [hs, hd]
  · simp [hs, ho, hd]
  · simp [hs, hcount, hg, he, haccess]

/-- Of a PRIVATE granule that is not the requester's own, the record's count and the Grant Table decide (R73). -/
theorem recordVerdict_private {rec : TagRecord} (hs : rec.state = .gPrivate)
    (hown : ¬(r.domain ≠ 0 ∧ rec.owner = some r.domain.val)) : recordVerdict r g rec u =
      if rec.count = 0 then some .notOwner
      else match grantFor u g r.domain.val with
        | none => some .notOwner
        | some (_, e) =>
          match e.state with
          | .active => if r.kind = .read ∨ e.readWrite then none else some .grantMode
          | .offered => some .grantInactive
          | .revoking => some .grantInactive := by
  have hother : ¬(r.domain.val ≠ 0 ∧ rec.owner = some r.domain.val) := by simpa using hown
  unfold recordVerdict
  rw [hs]
  exact if_neg hother

theorem recordVerdict_of_stepNine {rec : TagRecord} {reason : Reason} (h : StepNine r g rec u reason) :
    recordVerdict r g rec u = some reason := by
  cases h with
  | openToGuest hs hd => simp [recordVerdict, hs, hd]
  | clearingIn hs | clearingOut hs | poisoned hs | reserved hs => simp [recordVerdict, hs]
  | noGrant hs hown hcount => rw [recordVerdict_private hs hown, if_pos hcount]
  | noEntry hs hown hg => rw [recordVerdict_private hs hown, hg, ite_self]
  | inactive hs hown hcount hg =>
    obtain ⟨i, e, hg, he⟩ := hg
    have hother : e.state = .offered ∨ e.state = .revoking := by cases hst : e.state <;> simp_all
    rw [recordVerdict_private hs hown, if_neg hcount, hg]
    rcases hother with he | he <;> simp only [he]
  | readOnly hs hown hcount hg hk =>
    obtain ⟨i, e, hg, he, hro⟩ := hg
    rw [recordVerdict_private hs hown, if_neg hcount, hg]
    simp [he, hk, hro]

theorem slotTake_shape (k g : Nat) (s : State) : slotTake k g s =
    { s with slots := (slotTake k g s).slots, notices := (slotTake k g s).notices } := by
  unfold slotTake
  dsimp only
  split
  · rfl
  · split
    · split
      · split
        · rw [raise_shape]; rfl
        · rfl
      · rw [raise_shape]; rfl
    · rfl

/-- A permitted write changes its record, its slot and a notice at most (R78, R155, R156). -/
theorem markWrite_shape (g : Nat) (rec : TagRecord) (s : State) : markWrite g rec s =
    { s with
      ways := (markWrite g rec s).ways, outstanding := (markWrite g rec s).outstanding
      slots := (markWrite g rec s).slots, notices := (markWrite g rec s).notices } := by
  unfold markWrite
  split
  · split
    · rfl
    · rw [slotTake_shape, putRecord_shape]
  · rfl

/-- A request that step 9 permits is forwarded and stays out of the Miss Queue (R76). -/
theorem decideByRecord_permits {rec : TagRecord} {l : Table (List Nat)} (hv : v = { u with lru := l })
    (hpermits : Permits r g rec u) (hstage : u.stage = none) (hp : u.produced = old.produced) :
    Forwarded r g false u (finish (issueProduced old (decideByRecord r g rec v))) ∧
      (finish (issueProduced old (decideByRecord r g rec v))).missQueue = u.missQueue := by
  subst hv
  have hverdict : recordVerdict r g rec { u with lru := l } = none := recordVerdict_of_permits hpermits
  unfold decideByRecord
  rw [hverdict]
  dsimp only
  split
  · exact ⟨forwarded_forward hp (by rw [hstage]), by rw [finish_missQueue, issueProduced_missQueue, forward_missQueue]⟩
  · rw [markWrite_shape]
    exact ⟨forwarded_forward hp (by rw [hstage]), by rw [finish_missQueue, issueProduced_missQueue, forward_missQueue]⟩

theorem decideByRecord_refuses {rec : TagRecord} {l : Table (List Nat)} {reason : Reason} (hv : v = { u with lru := l })
    (hrefuses : recordVerdict r g rec u = some reason) (hp : u.produced = old.produced) :
    RefusesLogged r reason (some rec) (if reason = .poisoned then .poisoned else .blocked) u
      (finish (issueProduced old (decideByRecord r g rec v))) := by
  subst hv
  have hverdict : recordVerdict r g rec { u with lru := l } = some reason := hrefuses
  unfold decideByRecord
  rw [hverdict]
  exact refusesLogged_refuseLogged l hp

/-- A cached record decides at once (R71). -/
theorem checkRecordStep_hit {rec : TagRecord} (h : recordAt u g = some rec) :
    ∃ l, checkRecordStep r g u = decideByRecord r g rec { u with lru := l } := by
  obtain ⟨k, hk⟩ := lookup_hit h
  refine ⟨(touch k u).lru, ?_⟩
  unfold checkRecordStep
  rw [hk]
  rfl

theorem checkRecordStep_waits (h : recordAt u g = none) :
    WaitsForItsLine r g u (finish (issueProduced old (checkRecordStep r g u))) := by
  unfold checkRecordStep
  rw [lookup_miss h]
  dsimp only
  refine ⟨by simp [tagLineOf], ?_, by simp, by simp, fun d => ?_, by simp, by simp⟩
  · rcases joinFill_joined (tagLineOf g) { u with missQueue := u.missQueue ++
        [{ request := r, granule := g, line := tagLineOf g, released := false }] } with hfill | hwait
    · rw [finish_fills, finish_fillWaits]
      exact .inl (issueProduced_filled hfill)
    · rw [finish_fills, finish_fillWaits, issueProduced_fillWaits]
      exact .inr hwait
  · rw [dom_finish, dom_issueProduced, dom_joinFill]
    rfl

theorem check_reachesStepNine (h : ReachesStepNine r g u) : check r u = checkRecordStep r g u := by
  obtain ⟨hc, hm, hd, htag, hregion⟩ := h
  rw [check_passes hc hm hd, checkGranule, htag, hregion]
  rfl

/-! ### The check and the tags in use (R3, R50) -/

theorem refuseLogged_tagsInUse (reason : Reason) (seen : Option TagRecord) (status : Status) :
    (refuseLogged r reason seen status u).tagsInUse = u.tagsInUse := violate_tagsInUse ..

theorem decideByRecord_tagsInUse (rec : TagRecord) : (decideByRecord r g rec u).tagsInUse = u.tagsInUse := by
  unfold decideByRecord
  split
  · exact refuseLogged_tagsInUse ..
  · rw [forward_tagsInUse]
    split
    · rfl
    · rw [markWrite_shape]

theorem checkRecordStep_tagsInUse : (checkRecordStep r g u).tagsInUse = u.tagsInUse := by
  cases h : recordAt u g with
  | none =>
    unfold checkRecordStep
    rw [lookup_miss h]
    exact joinFill_tagsInUse ..
  | some rec =>
    obtain ⟨l, hl⟩ := checkRecordStep_hit (r := r) h
    rw [hl, decideByRecord_tagsInUse]

theorem checkGranule_tagsInUse : (checkGranule r g u).tagsInUse = u.tagsInUse := by
  unfold checkGranule
  split
  · exact refuseLogged_tagsInUse ..
  · split
    · exact checkRecordStep_tagsInUse
    · split
      · exact forward_tagsInUse _
      · exact refuseLogged_tagsInUse ..

theorem checkDomain_tagsInUse : (checkDomain r g u).tagsInUse = u.tagsInUse := by
  unfold checkDomain
  split
  · exact checkGranule_tagsInUse
  · split
    · exact checkGranule_tagsInUse
    · exact refuseLogged_tagsInUse ..
    · rfl
    · rfl
    · rfl
    · rfl
    · exact checkGranule_tagsInUse

theorem checkGoverned_tagsInUse : (checkGoverned r g u).tagsInUse = u.tagsInUse := by
  unfold checkGoverned
  split
  · rfl
  · split
    · exact forward_tagsInUse _
    · rfl
  · split
    · rfl
    · split
      · exact refuseLogged_tagsInUse ..
      · exact forward_tagsInUse _
  · split
    · exact checkDomain_tagsInUse
    · rfl
  · exact checkDomain_tagsInUse

/-- Outside the aperture the check brings no tag into use. -/
theorem check_tagsInUse (h : ∀ off, classify u r.address ≠ .aperture off) : (check r u).tagsInUse = u.tagsInUse := by
  unfold check
  split
  next off hoff => exact absurd hoff (h off)
  next => split <;> rfl
  next => exact checkGoverned_tagsInUse

/-! ### The two rows -/

/-- A released waiter leaves the Miss Queue and is checked from step 1 again (R50, R63). -/
theorem exec_presentReleasedWaiter {m : Miss} (hstage : s.stage = none)
    (hm : s.missQueue.find? (·.released) = some m) : exec .presentReleasedWaiter s =
      .next (finish (issueProduced s (check m.request { s with missQueue := s.missQueue.erase m }))) := by
  show answerStep s (presentReleased s) = _
  unfold presentReleased
  rw [hstage, hm]
  rfl

theorem releasedWaiter_checked {m : Miss} (hstage : s.stage = none)
    (hu : u = { s with missQueue := s.missQueue.erase m })
    (ht : t = finish (issueProduced s (check m.request u))) :
    ((∀ off, classify s m.request.address ≠ .aperture off) → t.tagsInUse = s.tagsInUse) ∧
      DecidedBeforeTheRecord m.request u t ∧
      ∀ g, ReachesStepNine m.request g s →
        (∀ rec, recordAt s g = some rec →
          (Permits m.request g rec s → Forwarded m.request g false u t ∧ t.missQueue = s.missQueue.erase m) ∧
          ∀ reason, StepNine m.request g rec s reason →
            RefusesLogged m.request reason (some rec) (if reason = .poisoned then .poisoned else .blocked) u t) ∧
        (recordAt s g = none → WaitsForItsLine m.request g u t) := by
  subst hu ht
  refine ⟨fun h => ?_, check_decides hstage rfl, ?_⟩
  · rw [finish_tagsInUse, issueProduced_tagsInUse]
    exact check_tagsInUse h
  · intro g hreaches
    have hreaches' : ReachesStepNine m.request g { s with missQueue := s.missQueue.erase m } := hreaches
    rw [check_reachesStepNine hreaches']
    refine ⟨fun rec hrec => ?_, fun hmiss => checkRecordStep_waits hmiss⟩
    obtain ⟨l, hl⟩ := checkRecordStep_hit (r := m.request) (u := { s with missQueue := s.missQueue.erase m }) hrec
    rw [hl]
    refine ⟨fun h => decideByRecord_permits rfl h hstage rfl, fun reason h => ?_⟩
    have hverdict : recordVerdict m.request g rec s = some reason := recordVerdict_of_stepNine h
    exact decideByRecord_refuses rfl hverdict rfl

/-- The held transaction takes the lowest free entry, and the drains that count it count that entry (R77, R86). -/
theorem exec_heldTransactionForward {x : HeldTx} {i : Nat} (hstage : s.stage = some x)
    (hi : tblFree 256 s.inFlight = some i) : exec .heldTransactionForward s =
      .next (finish (mapDrains (fun d => if d.held then { d with members := d.members ++ [i], held := false } else d)
        (allocate i x { s with stage := none }))) := by
  have hfree : freeInFlight s = some i := hi
  have hforward : heldForward s = some (mapDrains
      (fun d => if d.held then { d with members := d.members ++ [i], held := false } else d)
      (allocate i x { s with stage := none })) := by
    unfold heldForward forwardHeld
    rw [hstage, hfree]
    rfl
  show answerStep s (heldForward s) = _
  rw [hforward]
  exact congrArg _ (rowEnd_eq rfl)

/-- Settles O36: the check decides a released waiter as it stands then, and the held transaction is forwarded. -/
theorem releasedAndHeldTransactionsGoOn : Obligations.ReleasedAndHeldTransactionsGoOn := by
  refine ⟨?_, fun s x i hstage hi => ⟨_, exec_heldTransactionForward hstage hi, ?_⟩⟩
  · exact fun s u m hstage hm hu =>
      ⟨_, hu ▸ exec_presentReleasedWaiter hstage hm, releasedWaiter_checked hstage hu rfl⟩
  · refine ⟨by simp [mapDrains, allocate], by simp [mapDrains, allocate, entryFor], fun y hy => ?_, ?_, ?_,
      fun d hd hheld => ?_, fun d hd hheld hmembers => ?_, ?_, fun d => ?_, fun c => ?_⟩
    · simp [mapDrains, allocate, tblGet_tblPut_ne _ _ hy]
    · simp [mapDrains, allocate, offerFor, lineOf, lineAddress]
    · simp [mapDrains, allocate]
    · rw [finish_drains]
      refine List.mem_filter.2 ⟨List.mem_map.2 ⟨d, hd, by rw [if_pos hheld]⟩, by simp⟩
    · rw [finish_drains]
      refine List.mem_filter.2 ⟨List.mem_map.2 ⟨d, hd, by rw [if_neg (by simp [hheld])]⟩, by simp [hmembers]⟩
    · simp [mapDrains, allocate]
    · rw [dom_finish]
      rfl
    · rw [chan_finish]
      rfl

end Sys2Proof.Machine
end

section
/-!
PROOFS. Fills that claim ways and the wait list (R44, R45, R47, R174): O50.
-/

namespace Sys2Proof.Machine
variable {s t u old : State}

/-! ### The issue of a write-back (R10, R45) -/

/-- A write-back that a step produces waits behind those of its class, or takes the lowest free tag of the class. -/
theorem issueJob_writeBack (key line : Nat) (s : State) : issueJob (.writeBack key line) s =
    if s.tagWaits.any (fun j => jobClass j == .writeBack) then
      { s with tagWaits := s.tagWaits ++ [.writeBack key line] }
    else match freeTag .writeBack s with
      | some x => { s with
          outstanding := s.outstanding ++ [{ tag := x, job := .writeBack key line, changed := false, timer := 0 }]
          offers := s.offers ++ [packetOf x (.writeBack key line) s] }
      | none => { s with tagWaits := s.tagWaits ++ [.writeBack key line] } := rfl

/-- The packet of a write-back carries the records that its way holds (R45). -/
theorem packetOf_writeBack {key : Nat} {v : Way} (hv : tblGet s.ways key = some v) (x line : Nat) :
    packetOf x (.writeBack key line) s =
      { tag := x, kind := .write, domain := 0, mask := 0, data := .tagLine v.records
        address := s.base + 4096 * s.tagBase.getD 0 + 64 * line } := by
  simp [packetOf, tagLineAddress, hv, Config.granuleBytes, Nat.mul_comm]

theorem issueJob_writeBack_keeps (key line : Nat) (s : State) :
    (issueJob (.writeBack key line) s).fills = s.fills := by
  rw [issueJob_writeBack]
  split
  · rfl
  · split <;> rfl

/-- What the issue of a write-back leaves of the tags, the wait for them and the offers. -/
theorem issueJob_writeBack_outcome {key line : Nat} {v : Way} (hv : tblGet s.ways key = some v)
    (ht : t = issueJob (.writeBack key line) s) :
    if s.tagWaits.any (fun j => jobClass j == .writeBack) then
      t.tagWaits = s.tagWaits ++ [.writeBack key line] ∧ t.offers = s.offers
    else match freeTag .writeBack s with
      | none => t.tagWaits = s.tagWaits ++ [.writeBack key line] ∧ t.offers = s.offers
      | some x =>
        t.outstanding = s.outstanding ++ [{ tag := x, job := .writeBack key line, changed := false, timer := 0 }] ∧
        t.offers = s.offers ++
          [{ tag := x, kind := .write, domain := 0, mask := 0, data := .tagLine v.records
             address := s.base + 4096 * s.tagBase.getD 0 + 64 * line }] := by
  subst ht
  rw [issueJob_writeBack]
  split
  next => exact ⟨rfl, rfl⟩
  next =>
    cases hfree : freeTag .writeBack s with
    | none => exact ⟨rfl, rfl⟩
    | some x => exact ⟨rfl, congrArg (s.offers ++ [·]) (packetOf_writeBack hv x line)⟩

/-! ### A fill claims a way (R44) -/

/-- The fills once one of them has claimed a way. -/
def claimedFills (serial way : Nat) (l : List Fill) : List Fill :=
  l.map fun f => if f.serial = serial then { f with way := some way } else f

/-- A way without a dirty line has nothing to write back (R44). -/
theorem claimFor_clean {serial set way : Nat} (h : ∀ v, tblGet s.ways (8 * set + way) = some v → v.dirty = false) :
    claimFor serial set way s = { s with fills := claimedFills serial way s.fills } := by
  unfold claimFor
  dsimp only
  rw [show wayKey set way = 8 * set + way from rfl]
  cases hv : tblGet s.ways (8 * set + way) with
  | none => rfl
  | some v =>
    dsimp only
    rw [h v hv]
    rfl

/-- A dirty victim is written back, unless it is being written back already (R44, R45). -/
theorem claimFor_dirty {serial set way : Nat} {v : Way} (hv : tblGet s.ways (8 * set + way) = some v)
    (hd : v.dirty = true) (hidle : writeBackPending s (8 * set + way) = false) :
    claimFor serial set way s =
      produceJob (.writeBack (8 * set + way) v.line) { s with fills := claimedFills serial way s.fills } := by
  have hpending : writeBackPending { s with fills := claimedFills serial way s.fills } (8 * set + way) = false := hidle
  unfold claimFor
  dsimp only
  rw [show wayKey set way = 8 * set + way from rfl, hv]
  dsimp only
  rw [hd]
  exact if_pos (by rw [Bool.true_and]; exact congrArg not hpending)

theorem writeBackPending_of_idle {key : Nat} (h : wayInUse s key = false) : writeBackPending s key = false := by
  unfold wayInUse at h
  simp only [Bool.or_eq_false_iff] at h
  exact h.1.2

/-- A fill without its data does not land (R48). -/
theorem tryLand_waits {serial : Nat} (h : ∀ f ∈ s.fills, f.serial = serial → f.data = none) : tryLand serial s = s := by
  unfold tryLand
  split
  · rfl
  next f hf =>
    have hdata : f.data = none := h f (List.mem_of_find?_eq_some hf) (by simpa using List.find?_some hf)
    have hnot : landable s f = none := by
      unfold landable
      rw [hdata]
      split <;> simp_all
    rw [hnot]

theorem claimFor_fills (serial set way : Nat) (s : State) :
    (claimFor serial set way s).fills = claimedFills serial way s.fills := by
  unfold claimFor
  dsimp only
  split
  · split <;> rfl
  · rfl

theorem claimFor_sameRest (serial set way : Nat) (s : State) : SameRest s (claimFor serial set way s) := by
  rw [claimFor_shape]
  exact ⟨rfl, rfl, rfl, rfl, rfl⟩

theorem chan_claimFor (serial set way : Nat) (s : State) (c : Nat) : chan (claimFor serial set way s) c = chan s c := by
  rw [claimFor_shape]
  rfl

theorem exec_fillClaimsWay {set : Fin 256} {way : Fin 8} {f : Fill} (hf : s.fills.find? (waitsForWay set.val) = some f)
    (hdata : ∀ x ∈ s.fills, x.serial = f.serial → x.data = none)
    (hidle : wayInUse s (8 * set.val + way.val) = false) (hq : Quiet s) :
    exec (.fillClaimsWay set way) s = .next (finish (issueProduced s (claimFor f.serial set.val way.val s))) := by
  have hlands : tryLand f.serial (claimFor f.serial set.val way.val s) = claimFor f.serial set.val way.val s := by
    refine tryLand_waits fun x hx hserial => ?_
    rw [claimFor_fills] at hx
    obtain ⟨y, hy, rfl⟩ := List.mem_map.1 hx
    split at hserial <;> rename_i hys
    · simp only [if_pos hys]
      exact hdata y hy hys
    · exact absurd hserial hys
  have hquiet : Quiet (claimFor f.serial set.val way.val s) :=
    hq.congr (fun c _ => by rw [chan_claimFor]; exact .refl _) (claimFor_sameRest ..)
  show answerStep s (fillClaims set.val way.val s) = _
  unfold fillClaims
  rw [hf]
  dsimp only
  rw [show wayInUse s (wayKey set.val way.val) = false from hidle, hlands, settle_quiet hquiet]
  rfl

theorem fillClaimsWay_effect {set : Fin 256} {way : Fin 8} {f : Fill}
    (hf : s.fills.find? (waitsForWay set.val) = some f)
    (hdata : ∀ x ∈ s.fills, x.serial = f.serial → x.data = none)
    (hidle : wayInUse s (8 * set.val + way.val) = false) (hq : Quiet s) :
    ∃ t, exec (.fillClaimsWay set way) s = .next t ∧
      t.fills = claimedFills f.serial way.val s.fills ∧
      t.ways = s.ways ∧ (∀ c, chan t c = chan s c) ∧ t.missQueue = s.missQueue ∧
      match tblGet s.ways (8 * set.val + way.val) with
      | none => t.outstanding = s.outstanding ∧ t.offers = s.offers ∧ t.tagWaits = s.tagWaits
      | some v =>
        if v.dirty = false then t.outstanding = s.outstanding ∧ t.offers = s.offers ∧ t.tagWaits = s.tagWaits
        else if s.tagWaits.any (fun j => jobClass j == .writeBack) then
          t.tagWaits = s.tagWaits ++ [.writeBack (8 * set.val + way.val) v.line] ∧ t.offers = s.offers
        else match freeTag .writeBack s with
          | none => t.tagWaits = s.tagWaits ++ [.writeBack (8 * set.val + way.val) v.line] ∧ t.offers = s.offers
          | some x =>
            t.outstanding = s.outstanding ++
              [{ tag := x, job := .writeBack (8 * set.val + way.val) v.line, changed := false, timer := 0 }] ∧
            t.offers = s.offers ++
              [{ tag := x, kind := .write, domain := 0, mask := 0, data := .tagLine v.records
                 address := s.base + 4096 * s.tagBase.getD 0 + 64 * v.line }] := by
  refine ⟨_, exec_fillClaimsWay hf hdata hidle hq, ?_⟩
  have hclean (h : ∀ v, tblGet s.ways (8 * set.val + way.val) = some v → v.dirty = false) :
      finish (issueProduced s (claimFor f.serial set.val way.val s)) =
        finish { s with fills := claimedFills f.serial way.val s.fills } := by
    rw [claimFor_clean h]
    exact rowEnd_eq rfl
  cases hv : tblGet s.ways (8 * set.val + way.val) with
  | none =>
    rw [hclean (by simp [hv])]
    exact ⟨finish_fills _, finish_ways _, chan_finish _, finish_missQueue _, finish_outstanding _, finish_offers _,
      finish_tagWaits _⟩
  | some v =>
    dsimp only
    cases hd : v.dirty with
    | false =>
      rw [hclean (by simp [hv, hd]), if_pos rfl]
      exact ⟨finish_fills _, finish_ways _, chan_finish _, finish_missQueue _, finish_outstanding _, finish_offers _,
        finish_tagWaits _⟩
    | true =>
      have hissue : issueProduced s (claimFor f.serial set.val way.val s) =
          issueJob (.writeBack (8 * set.val + way.val) v.line)
            { s with fills := claimedFills f.serial way.val s.fills } := by
        rw [claimFor_dirty hv hd (writeBackPending_of_idle hidle)]
        exact issueProduced_one _ rfl
      rw [hissue, if_neg Bool.noConfusion, finish_fills, finish_ways, finish_missQueue, finish_outstanding,
        finish_offers, finish_tagWaits, issueJob_writeBack_keeps]
      refine ⟨rfl, issueJob_ways .., fun c => by rw [chan_finish]; exact chan_issueJob .., issueJob_missQueue .., ?_⟩
      exact issueJob_writeBack_outcome (s := { s with fills := claimedFills f.serial way.val s.fills }) hv rfl

/-! ### What the start of a fill leaves of the others (R47) -/

/-- What a fill is for and what it has come to, apart from the tag of its read and the way that it claims. -/
def Fill.content (f : Fill) : Nat × Option (RecordRead × RecordRead × RecordRead × RecordRead) := (f.line, f.data)

theorem noteIssue_contents (x : Nat) (j : OwnJob) (s : State) :
    (noteIssue x j s).fills.map Fill.content = s.fills.map Fill.content := by
  unfold noteIssue
  split
  · rw [List.map_map]
    refine List.map_congr_left fun f _ => ?_
    dsimp only [Function.comp]
    split <;> rfl
  · split <;> rfl
  · rfl

theorem issueJob_contents (j : OwnJob) (s : State) :
    (issueJob j s).fills.map Fill.content = s.fills.map Fill.content := by
  unfold issueJob
  split
  · rfl
  · split
    · exact noteIssue_contents ..
    · rfl

theorem issueProduced_contents (old s : State) :
    (issueProduced old s).fills.map Fill.content = s.fills.map Fill.content := by
  have hjobs : ∀ (l : List OwnJob) (u : State),
      (l.foldl (fun t j => issueJob j t) u).fills.map Fill.content = u.fills.map Fill.content := by
    intro l
    induction l with
    | nil => exact fun _ => rfl
    | cons j l ih => exact fun u => (ih _).trans (issueJob_contents j u)
  exact hjobs _ _

theorem claimedFills_contents (serial way : Nat) (l : List Fill) :
    (claimedFills serial way l).map Fill.content = l.map Fill.content := by
  unfold claimedFills
  rw [List.map_map]
  refine List.map_congr_left fun f _ => ?_
  dsimp only [Function.comp]
  split <;> rfl

theorem startFill_contents (line : Nat) (s : State) :
    (startFill line s).fills.map Fill.content = s.fills.map Fill.content ++ [(line, none)] := by
  unfold startFill
  dsimp only
  split
  · rw [claimFor_fills, claimedFills_contents]
    exact List.map_append
  · exact List.map_append

/-! ### The wait list (R47, R174) -/

theorem exec_fillWaitListStart {held rest : List Nat} {line : Nat} (hwaits : s.fillWaits = held ++ line :: rest)
    (hheld : ∀ l ∈ held, lineWithheld s l = true) (hline : lineWithheld s line = false)
    (hroom : s.fills.length < 8) : exec .fillWaitListStart s =
      .next (finish (issueProduced s (startFill line { s with fillWaits := held ++ rest }))) := by
  have hfind : s.fillWaits.find? (fun l => !lineWithheld s l) = some line := by
    rw [hwaits, List.find?_append, List.find?_eq_none.2 fun l hl => by simp [hheld l hl]]
    simp [hline]
  have herase : s.fillWaits.erase line = held ++ rest := by
    have hnot : line ∉ held := fun hm => by simp [hheld line hm] at hline
    rw [hwaits, List.erase_append_right _ hnot, List.erase_cons_head]
  show answerStep s (waitListStart s) = _
  unfold waitListStart
  rw [hfind]
  dsimp only
  rw [if_pos (show s.fills.length < Config.fillEntries from hroom), herase]
  rfl

/-- A line of the wait list that is not withheld leaves it, and its fill starts. -/
theorem fillWaitListStart_effect {held rest : List Nat} {line : Nat} (hwaits : s.fillWaits = held ++ line :: rest)
    (hheld : ∀ l ∈ held, lineWithheld s l = true) (hline : lineWithheld s line = false)
    (hroom : s.fills.length < 8) :
    ∃ t, exec .fillWaitListStart s = .next t ∧ t.fillWaits = held ++ rest ∧
      t.fills.length = s.fills.length + 1 ∧ (∃ f ∈ t.fills, f.line = line ∧ f.data = none) ∧
      t.ways = s.ways ∧ t.missQueue = s.missQueue ∧ t.completions = s.completions ∧
      (∀ d, dom t d = dom s d) ∧ ∀ c, chan t c = chan s c := by
  refine ⟨_, exec_fillWaitListStart hwaits hheld hline hroom, ?_⟩
  have hcontents : ∀ t, t = finish (issueProduced s (startFill line { s with fillWaits := held ++ rest })) →
      t.fills.map Fill.content = s.fills.map Fill.content ++ [(line, none)] := by
    rintro t rfl
    rw [finish_fills, issueProduced_contents, startFill_contents]
  have hfills := hcontents _ rfl
  have hlength := congrArg List.length hfills
  have hnew : (line, none) ∈ (s.fills.map Fill.content ++ [(line, none)]) := by simp
  rw [← hfills] at hnew
  obtain ⟨f, hf, hcontent⟩ := List.mem_map.1 hnew
  obtain ⟨hfline, hfdata⟩ := Prod.mk.inj hcontent
  refine ⟨by rw [startFill_shape]; simp, by simpa using hlength, ⟨f, hf, hfline, hfdata⟩, by rw [startFill_shape]; simp,
    by rw [startFill_shape]; simp, by rw [startFill_shape]; simp, fun d => ?_, fun c => ?_⟩
  · rw [dom_finish, dom_issueProduced, startFill_shape]
    rfl
  · rw [chan_finish, chan_issueProduced, startFill_shape]
    rfl

theorem missWaits_of_mem {line : Nat} {m : Miss} (hm : m ∈ s.missQueue) (hl : m.line = line)
    (hr : m.released = false) : missWaits s line = true := by
  refine List.any_eq_true.2 ⟨m, hm, ?_⟩
  simp [hl, hr]

theorem lineWithheld_of_not_onlyUndoWaits {line : Nat} (h : onlyUndoWaits s line = false) :
    lineWithheld s line = false := by
  unfold lineWithheld
  rw [h, Bool.and_false]

theorem fillWaitListStart_first {line : Nat} {rest : List Nat} (hwaits : s.fillWaits = line :: rest)
    (hroom : s.fills.length < 8)
    (hfree : s.warm = none ∨ (∃ w, s.warm = some w ∧ w.stage ≠ .settling) ∨
      (∃ m ∈ s.missQueue, m.line = line ∧ m.released = false) ∨ NoStepWaits line s) :
    ∃ t, exec .fillWaitListStart s = .next t ∧ t.fillWaits = rest ∧
      t.fills.length = s.fills.length + 1 ∧ (∃ f ∈ t.fills, f.line = line ∧ f.data = none) ∧
      t.ways = s.ways ∧ t.missQueue = s.missQueue ∧ t.completions = s.completions ∧
      (∀ d, dom t d = dom s d) ∧ ∀ c, chan t c = chan s c := by
  have hline : lineWithheld s line = false := by
    rcases hfree with hw | ⟨w, hw, hstage⟩ | ⟨m, hm, hl, hr⟩ | hno
    · exact lineWithheld_of_not_settling _ (by simp [hw])
    · refine lineWithheld_of_not_settling _ fun w' hw' => ?_
      rw [hw] at hw'
      exact Option.some.inj hw' ▸ hstage
    · exact lineWithheld_of_not_onlyUndoWaits (onlyUndoWaits_of_missWaits _ (missWaits_of_mem hm hl hr))
    · exact lineWithheld_of_not_onlyUndoWaits (onlyUndoWaits_of_noStepWaits _ hno)
  exact fillWaitListStart_effect (held := []) hwaits (fun _ h => absurd h List.not_mem_nil) hline hroom

/-- With the settling conditions met, a line that a poisoning waits for is withheld: nothing else can wait for it. -/
theorem lineWithheld_of_settled {w : WarmReset} (hw : s.warm = some w) (hstage : w.stage = .settling)
    (hchk : s.stage = none) (hmiss : s.missQueue = []) (hflight : ∀ p ∈ s.inFlight, p.2.orphaned = true)
    (hrun : s.running = none) (hunits : s.units = []) (hidle : ∀ x, x < 4 → (chan s x).active = none)
    {l : Nat} (hl : ∃ p ∈ s.poisonings, p.wait = .fill l) : lineWithheld s l = true := by
  have hchannels : ∀ c ∈ channelNumbers, (chan s c).active = none := fun c hc => hidle c (List.mem_range.1 hc)
  have hforwarded : anyForwarded s = false := by
    simpa [anyForwarded] using hflight
  have hstopped : channelNumbers.all (countsStopped s) = true :=
    List.all_eq_true.2 fun c hc => by rw [countsStopped, hchannels c hc]
  have hcore : settleCore s = true := by
    simp [settleCore, hchk, hforwarded, hmiss, hrun, hunits, hstopped]
  have hsteps : stepWaits s l = false := by
    have hnone : channelNumbers.any
        (fun c => (chan s c).active.any (fun a => a.phase != .undo && a.wait == .fill l)) = false :=
      List.any_eq_false.2 fun c hc => by simp [hchannels c hc]
    simp [stepWaits, hnone, hrun, hw, hstage]
  have hundo : undoWaits s l = true := by
    obtain ⟨p, hp, hwait⟩ := hl
    have hpoison : s.poisonings.any (fun p => p.wait == .fill l) = true := List.any_eq_true.2 ⟨p, hp, by simp [hwait]⟩
    simp [undoWaits, hpoison]
  simp [lineWithheld, onlyUndoWaits, missWaits, hw, hstage, hcore, hsteps, hundo, hmiss]

/-- A wait list all of whose lines are withheld starts no fill (R174). -/
theorem exec_fillWaitListStart_withheld (h : ∀ l ∈ s.fillWaits, lineWithheld s l = true) :
    exec .fillWaitListStart s = .next s := by
  have hnone : s.fillWaits.find? (fun l => !lineWithheld s l) = none :=
    List.find?_eq_none.2 fun l hl => by simp [h l hl]
  show answerStep s (waitListStart s) = _
  unfold waitListStart
  rw [hnone]
  rfl

/-- Settles O50: the claim of a way, the wait list's first line, and the lines withheld in the settling stage. -/
theorem fillsClaimWaysAndFollowTheWaitList : Obligations.FillsClaimWaysAndFollowTheWaitList := by
  refine ⟨fun set way f s => fillClaimsWay_effect, fun line rest s => fillWaitListStart_first, ?_⟩
  intro w s hw hstage hchk hmiss hflight hrun hunits hidle
  have hwithheld : ∀ l, (∃ p ∈ s.poisonings, p.wait = .fill l) → lineWithheld s l = true := fun l hl =>
    lineWithheld_of_settled hw hstage hchk hmiss hflight hrun hunits hidle hl
  refine ⟨fun hall => exec_fillWaitListStart_withheld fun l hl => hwithheld l (hall l hl), ?_⟩
  intro held rest line hwaits hroom hheld hno
  obtain ⟨t, ht, hrest, hlength, hfill, -⟩ := fillWaitListStart_effect hwaits (fun l hl => hwithheld l (hheld l hl))
    (lineWithheld_of_not_onlyUndoWaits (onlyUndoWaits_of_noStepWaits _ hno)) hroom
  exact ⟨t, ht, hrest, hlength, hfill⟩

end Sys2Proof.Machine
end

section
/-!
PROOFS. The check of a landing line (R52 to R57): what it counts, what it loses, and the grants that go with a lost
record.  The check goes record by record, so each effect is stated of one record and carried along the line.
-/

namespace Sys2Proof.Machine
variable {s t u : State}

/-! ### What the check leaves alone -/

/-- Nothing changes but what the Integrity Checker keeps, the mode, the notices, and the tables of grants and of
domains. -/
def IntegrityOnly (s t : State) : Prop :=
  { t with
    mode := s.mode, cause := s.cause, integrityMark := s.integrityMark, notices := s.notices, corrected := s.corrected
    firstCorrected := s.firstCorrected, hold := s.hold, poisonList := s.poisonList, domains := s.domains
    grants := s.grants } = s

theorem IntegrityOnly.refl (s : State) : IntegrityOnly s s := rfl

theorem IntegrityOnly.trans (h : IntegrityOnly s t) (k : IntegrityOnly t u) : IntegrityOnly s u := by
  unfold IntegrityOnly at h k ⊢
  rw [← k] at h
  exact h

theorem IntegrityOnly.foldl {α : Type} {f : State → α → State} (h : ∀ s x, IntegrityOnly s (f s x)) (l : List α)
    (s : State) : IntegrityOnly s (l.foldl f s) := by
  induction l generalizing s with
  | nil => exact .refl s
  | cons x l ih => exact (h s x).trans (ih _)

theorem integrityOnly_raise (n : NoticeName) (s : State) : IntegrityOnly s (raise n s) := by
  rw [raise_shape]
  exact rfl

theorem integrityOnly_enterCause (c : Cause) (s : State) : IntegrityOnly s (enterCause c s) := by
  rw [enterCause_shape]
  exact rfl

theorem integrityOnly_dropGrantsOf (g : Nat) (s : State) : IntegrityOnly s (dropGrantsOf g s) :=
  .foldl (fun s i => by rw [dropGrant_shape]; exact rfl) _ s

theorem integrityOnly_listPoison (g : Nat) (owner : Option Nat) (cause : PoisonCause) (s : State) :
    IntegrityOnly s (listPoison g owner cause s) := by
  unfold listPoison
  split
  · exact rfl
  · split
    · exact rfl
    · exact integrityOnly_enterCause ..

theorem integrityOnly_poisonTables (g : Nat) (owner : Option Nat) (cause : PoisonCause) (s : State) :
    IntegrityOnly s (poisonTables g owner cause s) :=
  (integrityOnly_dropGrantsOf g s).trans (integrityOnly_listPoison ..)

theorem integrityOnly_meetHold (g : Nat) (s : State) : IntegrityOnly s (meetHold g s) := by
  unfold meetHold
  split
  · exact rfl
  · exact integrityOnly_enterCause ..

theorem integrityOnly_countCorrected (g : Nat) (s : State) : IntegrityOnly s (countCorrected g s) := by
  unfold countCorrected
  dsimp only
  split
  · exact IntegrityOnly.trans (t := { s with
      firstCorrected := if s.corrected = 0 then some g else s.firstCorrected
      corrected := min (s.corrected + 1) Config.correctedMax }) rfl (integrityOnly_raise ..)
  · exact rfl

/-! ### The check of one record, in its two parts -/

/-- A record that has lost a part is poisoned, and the loss meets the integrity hold or enters a cause (R55, R56). -/
def loseRecord (p : Nat × RecordRead) (s : State) : State :=
  if landedStateLost p.2 then stateLost p.1 (landedRecord p.2).owner s else ownerLost p.1 s

/-- The state after the check of one record (R52): a corrected record is counted, and a lost one poisoned. -/
def checkOne (s : State) (p : Nat × RecordRead) : State :=
  let t := if landedCorrected p.2 then countCorrected p.1 s else s
  if landedLost p.2 then loseRecord p t else t

theorem checkRecord_eq (g : Nat) (rd : RecordRead) (s : State) :
    checkRecord g rd s = (landedRecord rd, landedChanged rd, checkOne s (g, rd)) := by
  obtain ⟨own, st⟩ := rd
  cases own with
  | lost => cases st <;> rfl
  | good o => cases st <;> rfl
  | corrected o => cases st <;> rfl

/-- The readings of a tag line with their granules, in slot order (R25). -/
def lineReadings (line : Nat) (r0 r1 r2 r3 : RecordRead) : List (Nat × RecordRead) :=
  [(4 * line, r0), (4 * line + 1, r1), (4 * line + 2, r2), (4 * line + 3, r3)]

theorem checkLine_eq (line : Nat) (r0 r1 r2 r3 : RecordRead) (s : State) :
    checkLine line (r0, r1, r2, r3) s =
      ({ r0 := landedRecord r0, r1 := landedRecord r1, r2 := landedRecord r2, r3 := landedRecord r3 },
        landedChanged r0 || landedChanged r1 || landedChanged r2 || landedChanged r3,
        (lineReadings line r0 r1 r2 r3).foldl checkOne s) := by
  unfold checkLine
  simp only [checkRecord_eq]
  rfl

theorem integrityOnly_loseRecord (p : Nat × RecordRead) (s : State) : IntegrityOnly s (loseRecord p s) := by
  unfold loseRecord
  split
  · exact ((integrityOnly_poisonTables ..).trans (integrityOnly_raise ..)).trans (integrityOnly_meetHold ..)
  · exact ((integrityOnly_poisonTables ..).trans (integrityOnly_raise ..)).trans (integrityOnly_enterCause ..)

theorem integrityOnly_checkOne (s : State) (p : Nat × RecordRead) : IntegrityOnly s (checkOne s p) := by
  have hcounted : IntegrityOnly s (if landedCorrected p.2 then countCorrected p.1 s else s) := by
    split
    · exact integrityOnly_countCorrected ..
    · exact .refl s
  unfold checkOne
  dsimp only
  split
  · exact hcounted.trans (integrityOnly_loseRecord ..)
  · exact hcounted

/-! ### Notices: pending marks only rise -/

/-- Every source that was pending still is (R189). -/
def Rises (s t : State) : Prop := ∀ n, (sourceOf s n).pending = true → (sourceOf t n).pending = true

theorem Rises.trans (h : Rises s t) (k : Rises t u) : Rises s u := fun n hn => k n (h n hn)

theorem rises_of_notices (h : t.notices = s.notices) : Rises s t := fun n hn => by
  rw [sourceOf, h]
  exact hn

theorem rises_raise (n : NoticeName) (h : t.notices = s.notices) : Rises s (raise n t) :=
  (rises_of_notices h).trans fun y hy => by
    rw [sourceOf_raise]
    split
    · rfl
    · exact hy

theorem sourceOf_raise_self (n : NoticeName) (s : State) : (sourceOf (raise n s) (noticeNumber n)).pending = true := by
  rw [sourceOf_raise]
  split
  · rfl
  next h => simpa using h

/-- Entering a cause raises CONTAINED or nothing (R198). -/
theorem sourceOf_enterCause (c : Cause) {n : Nat} (hn : n ≠ 6) : sourceOf (enterCause c s) n = sourceOf s n := by
  have hraise : ∀ u, sourceOf (raise .contained u) n = sourceOf u n := fun u => sourceOf_raise_ne u .contained hn
  unfold enterCause
  split
  · rfl
  · split
    · exact hraise _
    · exact hraise _
    · rfl

theorem rises_enterCause (c : Cause) (s : State) : Rises s (enterCause c s) := by
  unfold enterCause
  split
  · exact rises_of_notices rfl
  · split
    · exact rises_raise _ rfl
    · exact rises_raise _ rfl
    · exact rises_of_notices rfl

/-! ### The corrected records are counted (R53) -/

/-- What the counting of corrected records goes by and what it changes. -/
def SameCount (s t : State) : Prop :=
  t.corrected = s.corrected ∧ t.firstCorrected = s.firstCorrected ∧ t.correctedLimit = s.correctedLimit ∧
    sourceOf t 3 = sourceOf s 3

theorem SameCount.trans (h : SameCount s t) (k : SameCount t u) : SameCount s u := by
  obtain ⟨hn, hf, hl, hs⟩ := h
  obtain ⟨kn, kf, kl, ks⟩ := k
  exact ⟨kn.trans hn, kf.trans hf, kl.trans hl, ks.trans hs⟩

theorem sameCount_enterCause (c : Cause) (s : State) : SameCount s (enterCause c s) :=
  ⟨enterCause_corrected .., enterCause_firstCorrected .., enterCause_correctedLimit ..,
    sourceOf_enterCause c (by decide)⟩

theorem sameCount_raise {n : NoticeName} (hn : 3 ≠ noticeNumber n) (s : State) : SameCount s (raise n s) :=
  ⟨raise_corrected .., raise_firstCorrected .., raise_correctedLimit .., sourceOf_raise_ne _ n hn⟩

theorem sameCount_dropGrantsOf (g : Nat) (s : State) : SameCount s (dropGrantsOf g s) := by
  unfold dropGrantsOf
  induction (s.grants.filter (fun p => p.2.granule == g)).map (·.1) generalizing s with
  | nil => exact ⟨rfl, rfl, rfl, rfl⟩
  | cons i l ih =>
    refine SameCount.trans ?_ (ih (dropGrant i s))
    rw [dropGrant_shape]
    exact ⟨rfl, rfl, rfl, rfl⟩

theorem sameCount_poisonTables (g : Nat) (owner : Option Nat) (cause : PoisonCause) (s : State) :
    SameCount s (poisonTables g owner cause s) := by
  have hlisted : ∀ u, SameCount u (listPoison g owner cause u) := fun u => by
    unfold listPoison
    split
    · exact ⟨rfl, rfl, rfl, rfl⟩
    · split
      · exact ⟨rfl, rfl, rfl, rfl⟩
      · exact sameCount_enterCause ..
  exact (sameCount_dropGrantsOf g s).trans (hlisted _)

theorem sameCount_meetHold (g : Nat) (s : State) : SameCount s (meetHold g s) := by
  unfold meetHold
  split
  · exact ⟨rfl, rfl, rfl, rfl⟩
  · exact sameCount_enterCause ..

theorem sameCount_loseRecord (p : Nat × RecordRead) (s : State) : SameCount s (loseRecord p s) := by
  have hpoisoned : ∀ owner, SameCount s (raise .tagUncorrectable (poisonTables p.1 owner .record s)) := fun owner =>
    (sameCount_poisonTables ..).trans (sameCount_raise (by decide) _)
  unfold loseRecord
  split
  · exact (hpoisoned _).trans (sameCount_meetHold ..)
  · exact (hpoisoned _).trans (sameCount_enterCause ..)

/-- The count of corrected records has gone on by these granules (R53). -/
def CountedUp (fixed : List (Nat × RecordRead)) (s t : State) : Prop :=
  t.corrected = (if fixed = [] then s.corrected else min (s.corrected + fixed.length) 255) ∧
    t.firstCorrected = (if s.corrected = 0 ∧ fixed ≠ [] then fixed.head?.map (·.1) else s.firstCorrected) ∧
    t.correctedLimit = s.correctedLimit ∧
    ((sourceOf t 3).pending = true ↔ (sourceOf s 3).pending = true ∨
      (s.corrected < s.correctedLimit ∧ s.correctedLimit ≤ s.corrected + fixed.length ∧ s.correctedLimit ≤ 255))

theorem countedUp_nil (h : SameCount s t) : CountedUp [] s t := by
  obtain ⟨hn, hf, hl, hs⟩ := h
  refine ⟨hn, hf.trans (if_neg fun h => h.2 rfl).symm, hl, ?_⟩
  rw [hs, List.length_nil]
  exact (or_iff_left (by omega)).symm

theorem countedUp_countCorrected (p : Nat × RecordRead) (s : State) : CountedUp [p] s (countCorrected p.1 s) := by
  unfold countCorrected
  dsimp only
  split
  next hmeets =>
    refine ⟨by rw [raise_corrected]; rfl, by rw [raise_firstCorrected]; simp, by rw [raise_correctedLimit], ?_⟩
    refine iff_of_true (sourceOf_raise_self .tagCorrectedLimit _) (.inr ?_)
    rw [List.length_singleton]
    have hmax : Config.correctedMax = 255 := rfl
    omega
  next hmisses =>
    refine ⟨rfl, by simp, rfl, ?_⟩
    rw [List.length_singleton]
    have hmax : Config.correctedMax = 255 := rfl
    exact (or_iff_left (by omega)).symm

theorem CountedUp.trans {l m : List (Nat × RecordRead)} (h : CountedUp l s t) (k : CountedUp m t u) :
    CountedUp (l ++ m) s u := by
  obtain ⟨hn, hf, hl, hs⟩ := h
  obtain ⟨kn, kf, kl, ks⟩ := k
  have hpending : ∀ p a b c : Prop, (a ∨ b ↔ c) → ((p ∨ a) ∨ b ↔ p ∨ c) := fun p a b c h => by rw [or_assoc, h]
  cases l with
  | nil =>
    have hn' : t.corrected = s.corrected := hn
    have hf' : t.firstCorrected = s.firstCorrected := hf.trans (if_neg fun h => h.2 rfl)
    refine ⟨by rw [kn, hn']; rfl, by rw [kf, hn', hf']; rfl, kl.trans hl, ?_⟩
    rw [ks, hs, hn', hl, List.nil_append, List.length_nil]
    exact hpending _ _ _ _ (by omega)
  | cons p l =>
    have hn' : t.corrected = min (s.corrected + (l.length + 1)) 255 := hn
    have hsome : t.corrected ≠ 0 := by omega
    have hnot : ¬(t.corrected = 0 ∧ m ≠ []) := fun h => hsome h.1
    refine ⟨?_, ?_, kl.trans hl, ?_⟩
    · rw [kn, hn', List.cons_append, if_neg (List.cons_ne_nil p (l ++ m)), List.length_cons, List.length_append]
      split
      next hm => rw [hm, List.length_nil]
      next => omega
    · rw [kf, if_neg hnot, hf]
      simp
    · rw [ks, hs, hn', hl, List.cons_append, List.length_cons, List.length_cons, List.length_append]
      exact hpending _ _ _ _ (by omega)

/-- The check of a line counts its corrected records in slot order (R52, R53). -/
theorem countedUp_checkLine (l : List (Nat × RecordRead)) (s : State) :
    CountedUp (l.filter fun p => landedCorrected p.2) s (l.foldl checkOne s) := by
  induction l generalizing s with
  | nil => exact countedUp_nil ⟨rfl, rfl, rfl, rfl⟩
  | cons p l ih =>
    have hlost : ∀ t, CountedUp [] t (if landedLost p.2 then loseRecord p t else t) := fun t => by
      split
      · exact countedUp_nil (sameCount_loseRecord p t)
      · exact countedUp_nil ⟨rfl, rfl, rfl, rfl⟩
    have hone : CountedUp ([p].filter fun p => landedCorrected p.2) s (checkOne s p) := by
      rw [← List.append_nil (List.filter _ _)]
      refine CountedUp.trans ?_ (hlost _)
      cases hc : landedCorrected p.2 with
      | false => simpa [hc] using countedUp_nil ⟨rfl, rfl, rfl, rfl⟩
      | true => simpa [hc] using countedUp_countCorrected p s
    rw [← List.singleton_append, List.filter_append]
    exact hone.trans (ih _)

end Sys2Proof.Machine
end

section
/-!
PROOFS. What the records of a landing line that have lost a part do to the poison list, the hold, the mode and the
grants (R54 to R57, R198).
-/

namespace Sys2Proof.Machine
variable {s t u base : State}

/-! ### The causes that Mode Control takes (R198) -/

/-- What the causes taken since the base state say holds on as the mode, its cause and the mark stand. -/
theorem TakesCauses.keep {causes : List Cause} (h : TakesCauses causes base s)
    (hmode : (t.mode, t.cause, t.integrityMark) = (s.mode, s.cause, s.integrityMark)) (hrises : Rises s t) :
    TakesCauses causes base t := by
  simp only [Prod.mk.injEq] at hmode
  obtain ⟨hm, hc, hi⟩ := hmode
  unfold TakesCauses at h ⊢
  split at h
  next hcond =>
    obtain ⟨km, ki, kp, kc⟩ := h
    rw [if_pos hcond]
    exact ⟨hm.trans km, hi.trans ki, hrises 6 kp, hc.trans kc⟩
  next hcond =>
    obtain ⟨km, kc, ki⟩ := h
    rw [if_neg hcond]
    exact ⟨hm.trans km, hc.trans kc, hi.trans ki⟩

theorem takesCauses_nil (s : State) : TakesCauses [] s s := by
  unfold TakesCauses
  rw [if_neg fun h => h.1 rfl]
  exact ⟨rfl, rfl, rfl⟩

/-- Outside the modes in which a cause is taken, and from a power warning on, entering one changes nothing (R198). -/
theorem enterCause_untaken (c : Cause) (h : ¬(s.flush = .none ∧ (s.mode = .operational ∨ s.mode = .contained))) :
    enterCause c s = s := by
  unfold enterCause
  split
  · rfl
  next hwarned =>
    have hflush : s.flush = .none := by simpa [warned] using hwarned
    split
    next hm => exact absurd ⟨hflush, .inl hm⟩ h
    next hm => exact absurd ⟨hflush, .inr hm⟩ h
    next => rfl

theorem enterCause_operational (c : Cause) (hflush : s.flush = .none) (hm : s.mode = .operational) : enterCause c s =
    raise .contained { s with
      mode := .contained, cause := some c, integrityMark := s.integrityMark || isIntegrityCause c } := by
  unfold enterCause
  rw [if_neg (by simp [warned, hflush]), hm]

theorem enterCause_contained (c : Cause) (hflush : s.flush = .none) (hm : s.mode = .contained) : enterCause c s =
    raise .contained { s with integrityMark := s.integrityMark || isIntegrityCause c } := by
  unfold enterCause
  rw [if_neg (by simp [warned, hflush]), hm]

/-- One more integrity cause is taken after the others (R198, R59). -/
theorem TakesCauses.enter {causes : List Cause} {c : Cause} (h : TakesCauses causes base s)
    (hflush : s.flush = base.flush) (hc : isIntegrityCause c = true) :
    TakesCauses (causes ++ [c]) base (enterCause c s) := by
  have hne : causes ++ [c] ≠ [] := by simp
  by_cases htaken : base.flush = .none ∧ (base.mode = .operational ∨ base.mode = .contained)
  · have hs : s.flush = .none := hflush.trans htaken.1
    have hraised : ∀ u, (sourceOf (raise .contained u) 6).pending = true := sourceOf_raise_self .contained
    unfold TakesCauses at h ⊢
    rw [if_pos ⟨hne, htaken⟩]
    by_cases hnil : causes = []
    · subst hnil
      rw [if_neg fun h => h.1 rfl] at h
      obtain ⟨hm, hcause, -⟩ := h
      rcases htaken.2 with hop | hcon
      · rw [enterCause_operational c hs (hm.trans hop), if_pos hop]
        exact ⟨by rw [raise_mode], by rw [raise_integrityMark, hc, Bool.or_true], hraised _, by rw [raise_cause]; rfl⟩
      · rw [enterCause_contained c hs (hm.trans hcon), if_neg (by rw [hcon]; decide)]
        exact ⟨by rw [raise_mode]; exact hm.trans hcon, by rw [raise_integrityMark, hc, Bool.or_true], hraised _,
          by rw [raise_cause]; exact hcause⟩
    · rw [if_pos ⟨hnil, htaken⟩] at h
      obtain ⟨hm, -, -, hcause⟩ := h
      rw [enterCause_contained c hs hm]
      refine ⟨by rw [raise_mode]; exact hm, by rw [raise_integrityMark, hc, Bool.or_true], hraised _, ?_⟩
      rw [raise_cause, List.head?_append_of_ne_nil _ hnil]
      exact hcause
  · have hkept : base.mode = s.mode := by
      unfold TakesCauses at h
      rw [if_neg fun h => htaken h.2] at h
      exact h.1.symm
    rw [enterCause_untaken c (by rw [hflush, ← hkept]; exact htaken)]
    unfold TakesCauses at h ⊢
    rw [if_neg fun h => htaken h.2] at h ⊢
    exact h

/-! ### The records that lose a part (R54 to R57) -/

/-- The losses met since the base state. -/
structure Losing (base : State) (x : Losses) (s : State) : Prop where
  list   : s.poisonList = x.list
  hold   : s.hold = x.hold
  flush  : s.flush = base.flush
  causes : TakesCauses x.causes base s

theorem Losing.keep {x : Losses} (h : Losing base x s)
    (hkept : (t.poisonList, t.hold, t.flush) = (s.poisonList, s.hold, s.flush))
    (hmode : (t.mode, t.cause, t.integrityMark) = (s.mode, s.cause, s.integrityMark)) (hrises : Rises s t) :
    Losing base x t := by
  simp only [Prod.mk.injEq] at hkept
  obtain ⟨hl, hh, hf⟩ := hkept
  exact ⟨hl.trans h.list, hh.trans h.hold, hf.trans h.flush, h.causes.keep hmode hrises⟩

theorem Losing.enter {x : Losses} {c : Cause} (h : Losing base x s) (hc : isIntegrityCause c = true) :
    Losing base { x with causes := x.causes ++ [c] } (enterCause c s) :=
  ⟨(enterCause_poisonList ..).trans h.list, (enterCause_hold ..).trans h.hold, (enterCause_flush ..).trans h.flush,
    h.causes.enter h.flush hc⟩

theorem Losing.raise {x : Losses} (h : Losing base x s) (n : NoticeName) : Losing base x (raise n s) :=
  h.keep (by simp) (by simp) (rises_raise n rfl)

theorem Losing.countCorrected {x : Losses} (h : Losing base x s) (g : Nat) : Losing base x (countCorrected g s) := by
  unfold Machine.countCorrected
  dsimp only
  split
  · exact h.keep (by simp) (by simp) (rises_raise _ rfl)
  · exact h.keep rfl rfl (rises_of_notices rfl)

theorem Losing.dropGrantsOf {x : Losses} (h : Losing base x s) (g : Nat) : Losing base x (dropGrantsOf g s) := by
  unfold Machine.dropGrantsOf
  induction (s.grants.filter (fun p => p.2.granule == g)).map (·.1) generalizing s with
  | nil => exact h
  | cons i l ih =>
    refine ih (s := dropGrant i s) (h.keep ?_ ?_ (rises_of_notices ?_)) <;> rw [dropGrant_shape]

/-- Whether a granule finds no entry of its own and no room in the poison list (R57). -/
def listFull (x : Losses) (g : Nat) : Bool := !x.list.any (fun e => e.granule == g) && decide (16 ≤ x.list.length)

/-- The poison list once a granule has come to it: its entry takes the owner, or it joins the list if it has room. -/
def listed (x : Losses) (g : Nat) (owner : Option Nat) : List PoisonEntry :=
  if x.list.any (fun e => e.granule == g) then
    x.list.map fun e => if e.granule = g then { e with owner := owner } else e
  else if listFull x g then x.list
  else x.list ++ [{ granule := g, owner := owner, cause := .record }]

/-- The losses once a granule has come to the poison list, which enters POISON_FULL if it is full (R57). -/
def afterList (x : Losses) (g : Nat) (owner : Option Nat) : Losses :=
  { x with list := listed x g owner, causes := x.causes ++ if listFull x g then [.poisonFull] else [] }

theorem Losing.listPoison {x : Losses} (h : Losing base x s) (g : Nat) (owner : Option Nat) :
    Losing base (afterList x g owner) (listPoison g owner .record s) := by
  have hnone : listFull x g = false → afterList x g owner = { x with list := listed x g owner } := fun hf => by
    unfold afterList
    rw [hf, if_neg Bool.false_ne_true, List.append_nil]
  unfold Machine.listPoison
  rw [h.list]
  by_cases hin : x.list.any (fun e => e.granule == g) = true
  · rw [if_pos hin, hnone (by rw [listFull, hin]; rfl), listed, if_pos hin]
    exact ⟨rfl, h.hold, h.flush, h.causes.keep rfl (rises_of_notices rfl)⟩
  · have hfull : listFull x g = decide (Config.poisonEntries ≤ x.list.length) := by
      rw [listFull, Bool.eq_false_of_not_eq_true hin]
      rfl
    rw [if_neg hin]
    by_cases hlen : Config.poisonEntries ≤ x.list.length
    · have hsame : listed x g owner = x.list := by rw [listed, if_neg hin, hfull, if_pos (decide_eq_true hlen)]
      rw [if_neg (Nat.not_lt.2 hlen), afterList, hfull, if_pos (decide_eq_true hlen), hsame]
      exact h.enter rfl
    · rw [if_pos (Nat.not_le.1 hlen), hnone (by rw [hfull, decide_eq_false hlen]), listed, if_neg hin, hfull,
        if_neg (by rw [decide_eq_false hlen]; exact Bool.false_ne_true)]
      exact ⟨rfl, h.hold, h.flush, h.causes.keep rfl (rises_of_notices rfl)⟩

/-- A lost state part takes a hold that is clear, and otherwise enters CASCADE (R55). -/
theorem Losing.meetHold {x : Losses} (h : Losing base x s) (g : Nat) :
    Losing base { x with
      hold := x.hold.or (some g), causes := x.causes ++ if x.hold.isSome then [.cascade] else [] } (meetHold g s) := by
  unfold Machine.meetHold
  rw [h.hold]
  cases hx : x.hold with
  | none =>
    refine ⟨h.list, rfl, h.flush, ?_⟩
    rw [Option.isSome_none, if_neg Bool.false_ne_true, List.append_nil]
    exact h.causes.keep rfl (rises_of_notices rfl)
  | some y =>
    obtain ⟨hlist, hhold, hflush, hcauses⟩ := h.enter (c := .cascade) rfl
    exact ⟨hlist, hhold.trans hx, hflush, hcauses⟩

/-- A granule whose owner part is lost is poisoned with no owner (R56). -/
theorem landedRecord_owner_of_ownerLost {rd : RecordRead} (h : landedLost rd = true) (hs : landedStateLost rd = false) :
    (landedRecord rd).owner = none := by
  obtain ⟨own, st⟩ := rd
  cases own with
  | lost => rfl
  | good o => cases st <;> simp_all [landedLost, landedStateLost]
  | corrected o => cases st <;> simp_all [landedLost, landedStateLost]

/-- A lost record is one more loss (R54 to R57). -/
theorem Losing.loseRecord {x : Losses} (h : Losing base x s) (p : Nat × RecordRead) (hp : landedLost p.2 = true) :
    Losing base (oneMoreLoss x p) (loseRecord p s) := by
  have hlisted : ∀ owner, Losing base (afterList x p.1 owner)
      (Machine.raise .tagUncorrectable (poisonTables p.1 owner .record s)) := fun owner =>
    ((h.dropGrantsOf p.1).listPoison p.1 owner).raise .tagUncorrectable
  unfold Machine.loseRecord
  cases hs : landedStateLost p.2 with
  | false =>
    have hmore : oneMoreLoss x p = { afterList x p.1 none with
        causes := (afterList x p.1 none).causes ++ [.ownerLost] } := by
      rw [oneMoreLoss, hs, landedRecord_owner_of_ownerLost hp hs]
      rfl
    rw [if_neg Bool.false_ne_true, hmore]
    exact (hlisted none).enter rfl
  | true =>
    have hmore : oneMoreLoss x p =
        { afterList x p.1 (landedRecord p.2).owner with
          hold := x.hold.or (some p.1)
          causes :=
            (afterList x p.1 (landedRecord p.2).owner).causes ++ if x.hold.isSome then [.cascade] else [] } := by
      rw [oneMoreLoss, hs]
      rfl
    rw [if_pos rfl, hmore]
    exact (hlisted _).meetHold p.1

theorem Losing.checkOne {x : Losses} (h : Losing base x s) (p : Nat × RecordRead) :
    Losing base (if landedLost p.2 then oneMoreLoss x p else x) (checkOne s p) := by
  have hcounted : Losing base x (if landedCorrected p.2 then Machine.countCorrected p.1 s else s) := by
    split
    · exact h.countCorrected p.1
    · exact h
  unfold Machine.checkOne
  dsimp only
  split
  next hp => exact hcounted.loseRecord p hp
  next => exact hcounted

/-- The lost records of a line are met in slot order (R52). -/
theorem Losing.checkLine {x : Losses} (h : Losing base x s) (l : List (Nat × RecordRead)) :
    Losing base ((l.filter fun p => landedLost p.2).foldl oneMoreLoss x) (l.foldl Machine.checkOne s) := by
  induction l generalizing s x with
  | nil => exact h
  | cons p l ih =>
    have hone := ih (h.checkOne p)
    cases hp : landedLost p.2 with
    | false =>
      rw [hp, if_neg Bool.false_ne_true] at hone
      rw [List.filter_cons_of_neg (by rw [hp]; exact Bool.false_ne_true)]
      exact hone
    | true =>
      rw [hp, if_pos rfl] at hone
      rw [List.filter_cons_of_pos (p := fun p : Nat × RecordRead => landedLost p.2) hp]
      exact hone

/-! ### TAG_UNCORRECTABLE (R55, R56) -/

theorem rises_poisonTables (g : Nat) (owner : Option Nat) (cause : PoisonCause) (s : State) :
    Rises s (poisonTables g owner cause s) := by
  have hdropped : ∀ (l : List Nat) (u : State), Rises u (l.foldl (fun s i => dropGrant i s) u) := fun l => by
    induction l with
    | nil => exact fun u => rises_of_notices rfl
    | cons i l ih => exact fun u => (rises_of_notices (by rw [dropGrant_shape])).trans (ih (dropGrant i u))
  have hlisted : ∀ u, Rises u (listPoison g owner cause u) := fun u => by
    unfold listPoison
    split
    · exact rises_of_notices rfl
    · split
      · exact rises_of_notices rfl
      · exact rises_enterCause _ _
  exact (hdropped _ s).trans (hlisted _)

theorem rises_meetHold (g : Nat) (s : State) : Rises s (meetHold g s) := by
  unfold meetHold
  split
  · exact rises_of_notices rfl
  · exact rises_enterCause _ _

/-- A lost record raises TAG_UNCORRECTABLE, and takes no pending mark away. -/
theorem loseRecord_raises (p : Nat × RecordRead) (s : State) :
    Rises s (loseRecord p s) ∧ (sourceOf (loseRecord p s) 4).pending = true := by
  have hraised : ∀ owner, Rises s (raise .tagUncorrectable (poisonTables p.1 owner .record s)) := fun owner =>
    (rises_poisonTables _ _ _ _).trans (rises_raise _ rfl)
  have hpending : ∀ u, (sourceOf (raise .tagUncorrectable u) 4).pending = true := sourceOf_raise_self .tagUncorrectable
  unfold loseRecord
  split
  · exact ⟨(hraised _).trans (rises_meetHold _ _), rises_meetHold _ _ 4 (hpending _)⟩
  · exact ⟨(hraised _).trans (rises_enterCause _ _), rises_enterCause _ _ 4 (hpending _)⟩

theorem rises_checkOne (s : State) (p : Nat × RecordRead) : Rises s (checkOne s p) := by
  have hcounted : Rises s (if landedCorrected p.2 then countCorrected p.1 s else s) := by
    split
    · unfold countCorrected
      dsimp only
      split
      · exact rises_raise _ rfl
      · exact rises_of_notices rfl
    · exact rises_of_notices rfl
  unfold checkOne
  dsimp only
  split
  · exact hcounted.trans (loseRecord_raises p _).1
  · exact hcounted

theorem rises_checkLine (l : List (Nat × RecordRead)) (s : State) : Rises s (l.foldl checkOne s) := by
  induction l generalizing s with
  | nil => exact rises_of_notices rfl
  | cons p l ih => exact (rises_checkOne s p).trans (ih _)

theorem checkLine_raises (l : List (Nat × RecordRead)) (s : State) (h : (l.filter fun p => landedLost p.2) ≠ []) :
    (sourceOf (l.foldl checkOne s) 4).pending = true := by
  induction l generalizing s with
  | nil => exact absurd rfl h
  | cons p l ih =>
    cases hp : landedLost p.2 with
    | false =>
      rw [List.filter_cons_of_neg (by rw [hp]; exact Bool.false_ne_true)] at h
      exact ih _ h
    | true =>
      refine rises_checkLine l _ 4 ?_
      unfold checkOne
      dsimp only
      rw [if_pos hp]
      exact (loseRecord_raises p _).2

/-! ### The grants of a lost record (R54, R99) -/

/-- Every grant that a condition names has gone, with its owner's given and its grantee's held count (R99, R134). -/
def GrantsGone (p : Nat × Grant → Bool) (s t : State) : Prop :=
  t.grants = s.grants.filter (fun q => !p q) ∧
    ∀ d, dom t d = { dom s d with
      given := (dom s d).given - ((s.grants.filter p).filter (fun q => q.2.owner == d)).length
      held := (dom s d).held - ((s.grants.filter p).filter (fun q => q.2.grantee == d)).length }

theorem grantsGone_none (h : t.grants = s.grants) (hd : t.domains = s.domains) :
    GrantsGone (fun _ => false) s t := by
  refine ⟨?_, fun d => ?_⟩
  · rw [h]
    exact (List.filter_eq_self.2 fun _ _ => rfl).symm
  · rw [List.filter_eq_nil_iff.2 fun _ _ => Bool.false_ne_true]
    simp [dom, hd]

theorem GrantsGone.trans {p q : Nat × Grant → Bool} (h : GrantsGone p s t) (k : GrantsGone q t u) :
    GrantsGone (fun x => p x || q x) s u := by
  obtain ⟨hg, hd⟩ := h
  obtain ⟨kg, kd⟩ := k
  have hcount : ∀ f : Nat × Grant → Bool, ((s.grants.filter fun x => p x || q x).filter f).length =
      ((s.grants.filter p).filter f).length + ((t.grants.filter q).filter f).length := fun f => by
    rw [hg, List.length_eq_length_filter_add (l := (s.grants.filter fun x => p x || q x).filter f) p]
    simp only [List.filter_filter]
    congr 2 <;> refine List.filter_congr fun x _ => ?_
    · cases p x <;> simp
    · cases p x <;> simp [Bool.and_comm]
  refine ⟨?_, fun d => ?_⟩
  · rw [kg, hg, List.filter_filter]
    refine List.filter_congr fun x _ => ?_
    rw [Bool.not_or, Bool.and_comm]
  · rw [kd, hd, hcount, hcount]
    simp only [Nat.sub_sub]

theorem GrantsGone.congr {p q : Nat × Grant → Bool} (h : GrantsGone p s t) (hpq : ∀ x ∈ s.grants, p x = q x) :
    GrantsGone q s t := by
  have hsame : s.grants.filter p = s.grants.filter q := List.filter_congr hpq
  obtain ⟨hg, hd⟩ := h
  refine ⟨hg.trans (List.filter_congr fun x hx => by rw [hpq x hx]), fun d => ?_⟩
  rw [hd, hsame]

/-- In a table whose indices rise, an index stands once. -/
theorem filter_index_eq {α : Type} {t : Table α} (hwf : tblWf t = true) {i : Nat} {v : α} (h : (i, v) ∈ t) :
    t.filter (fun q => q.1 == i) = [(i, v)] := by
  rw [tblWf_iff] at hwf
  induction t with
  | nil => cases h
  | cons q t ih =>
    obtain ⟨hlt, hwf⟩ := List.pairwise_cons.1 hwf
    rcases List.mem_cons.1 h with rfl | hmem
    · rw [List.filter_cons_of_pos (by simp), List.filter_eq_nil_iff.2 fun q hq => by simp [(hlt q hq).ne']]
    · rw [List.filter_cons_of_neg (by simp [(hlt _ hmem).ne]), ih hwf hmem]

/-- The entry of one index goes (R99). -/
theorem grantsGone_dropGrant {i : Nat} {g : Grant} (hwf : tblWf s.grants = true) (hg : (i, g) ∈ s.grants) :
    GrantsGone (fun q => q.1 == i) s (dropGrant i s) := by
  have hat : grantAt s i = some g := tblGet_of_mem hwf hg
  unfold dropGrant
  rw [hat]
  refine ⟨rfl, fun d => ?_⟩
  rw [filter_index_eq hwf hg]
  have hdom : ∀ x, dom { s with grants := tblDel s.grants i } x = dom s x := fun _ => rfl
  simp only [dom_setDom, hdom]
  by_cases ho : d = g.owner
  · subst ho
    by_cases hh : g.owner = g.grantee
    · simp [hh]
    · simp [hh, Ne.symm hh]
  · by_cases hh : d = g.grantee
    · subst hh
      simp [ho, Ne.symm ho]
    · simp [ho, hh, Ne.symm ho, Ne.symm hh]

/-- The entries of these indices go, one after the other. -/
theorem grantsGone_foldl (l : Table Grant) (hl : tblWf l = true) (hwf : tblWf s.grants = true)
    (hsub : ∀ x ∈ l, x ∈ s.grants) :
    GrantsGone (fun q => l.any fun e => q.1 == e.1) s ((l.map (·.1)).foldl (fun s i => dropGrant i s) s) := by
  induction l generalizing s with
  | nil => exact grantsGone_none rfl rfl
  | cons e l ih =>
    have hpair := (tblWf_iff _).1 hl
    obtain ⟨hlt, hrest⟩ := List.pairwise_cons.1 hpair
    have hone := grantsGone_dropGrant hwf (hsub e List.mem_cons_self)
    refine hone.trans (ih ((tblWf_iff _).2 hrest) ?_ fun x hx => ?_)
    · rw [hone.1]
      exact tblWf_filter hwf _
    · rw [hone.1]
      exact List.mem_filter.2 ⟨hsub x (List.mem_cons_of_mem _ hx), by simp [(hlt x hx).ne']⟩

theorem grantsGone_dropGrantsOf (g : Nat) (hwf : tblWf s.grants = true) :
    GrantsGone (fun q => q.2.granule == g) s (dropGrantsOf g s) := by
  have hfold := grantsGone_foldl (s.grants.filter fun q => q.2.granule == g) (tblWf_filter hwf _) hwf
    fun x hx => List.mem_of_mem_filter hx
  refine hfold.congr fun q hq => ?_
  rw [Bool.eq_iff_iff, List.any_eq_true]
  constructor
  · rintro ⟨e, he, hidx⟩
    obtain ⟨hmem, hgranule⟩ := List.mem_filter.1 he
    have hq' := tblGet_of_mem hwf hq
    rw [beq_iff_eq.1 hidx, tblGet_of_mem hwf hmem] at hq'
    exact Option.some.inj hq' ▸ hgranule
  · exact fun hgranule => ⟨q, List.mem_filter.2 ⟨hq, hgranule⟩, beq_self_eq_true _⟩

/-- The tables of grants and domains stay. -/
def GrantsKept (s t : State) : Prop := t.grants = s.grants ∧ t.domains = s.domains

theorem GrantsGone.keep {p : Nat × Grant → Bool} (h : GrantsGone p s t) (k : GrantsKept t u) : GrantsGone p s u := by
  obtain ⟨hg, hd⟩ := h
  refine ⟨k.1.trans hg, fun d => ?_⟩
  rw [← hd, dom, dom, k.2]

theorem grantsKept_enterCause (c : Cause) (s : State) : GrantsKept s (enterCause c s) :=
  ⟨enterCause_grants .., enterCause_domains ..⟩

theorem grantsGone_loseRecord (p : Nat × RecordRead) (hwf : tblWf s.grants = true) :
    GrantsGone (fun q => q.2.granule == p.1) s (loseRecord p s) := by
  have hlisted : ∀ owner u, GrantsKept u (raise .tagUncorrectable (listPoison p.1 owner .record u)) := fun owner u => by
    have hkept : GrantsKept u (listPoison p.1 owner .record u) := by
      unfold listPoison
      split
      · exact ⟨rfl, rfl⟩
      · split
        · exact ⟨rfl, rfl⟩
        · exact grantsKept_enterCause ..
    exact ⟨(raise_grants ..).trans hkept.1, (raise_domains ..).trans hkept.2⟩
  have hheld : ∀ u, GrantsKept u (meetHold p.1 u) := fun u => by
    unfold meetHold
    split
    · exact ⟨rfl, rfl⟩
    · exact grantsKept_enterCause ..
  have hdropped := grantsGone_dropGrantsOf p.1 hwf
  unfold loseRecord
  split
  · exact (hdropped.keep (hlisted _ _)).keep (hheld _)
  · exact (hdropped.keep (hlisted _ _)).keep (grantsKept_enterCause ..)

theorem grantsKept_counted (p : Nat × RecordRead) (s : State) :
    GrantsKept s (if landedCorrected p.2 then countCorrected p.1 s else s) := by
  split
  · unfold countCorrected
    dsimp only
    split
    · exact ⟨raise_grants .., raise_domains ..⟩
    · exact ⟨rfl, rfl⟩
  · exact ⟨rfl, rfl⟩

/-- The grants of the lost records of a line go, and no other (R54). -/
theorem grantsGone_checkLine (l : List (Nat × RecordRead)) (s : State)
    (h : (l.filter fun p => landedLost p.2) = [] ∨ tblWf s.grants = true) :
    GrantsGone (fun q => ((l.filter fun p => landedLost p.2).map (·.1)).contains q.2.granule) s
      (l.foldl checkOne s) := by
  induction l generalizing s with
  | nil => exact grantsGone_none rfl rfl
  | cons p l ih =>
    have hcounted := grantsKept_counted p s
    cases hp : landedLost p.2 with
    | false =>
      have hone : checkOne s p = if landedCorrected p.2 then countCorrected p.1 s else s := by
        unfold checkOne
        dsimp only
        rw [hp, if_neg Bool.false_ne_true]
      rw [List.filter_cons_of_neg (by rw [hp]; exact Bool.false_ne_true)] at h ⊢
      rw [List.foldl_cons, hone]
      have hrest := ih _ (h.imp_right fun hwf => hcounted.1.symm ▸ hwf)
      have hnone : GrantsGone (fun _ => false) s (if landedCorrected p.2 then countCorrected p.1 s else s) :=
        grantsGone_none hcounted.1 hcounted.2
      exact (hnone.trans hrest).congr fun q _ => Bool.false_or _
    | true =>
      rw [List.filter_cons_of_pos (p := fun p : Nat × RecordRead => landedLost p.2) hp] at h ⊢
      have hwf : tblWf s.grants = true := h.resolve_left (List.cons_ne_nil _ _)
      have hone : GrantsGone (fun q => q.2.granule == p.1) s (checkOne s p) := by
        have hnone : GrantsGone (fun _ => false) s (if landedCorrected p.2 then countCorrected p.1 s else s) :=
          grantsGone_none hcounted.1 hcounted.2
        unfold checkOne
        dsimp only
        rw [if_pos hp]
        exact (hnone.trans (grantsGone_loseRecord p (hcounted.1.symm ▸ hwf))).congr fun q _ => Bool.false_or _
      have hrest := ih (checkOne s p) (.inr (hone.1.symm ▸ tblWf_filter hwf _))
      exact (hone.trans hrest).congr fun q _ => by rw [List.map_cons, List.contains_cons]

end Sys2Proof.Machine
end

section
/-!
PROOFS. The end of a fill read (R48 to R50, R52 to R57, R198): O49.  A landing and a failing fill reach only what waits
for the fill's line, so with no step waiting for it nothing else goes on.
-/

namespace Sys2Proof.Machine
variable {s t u : State}

/-! ### Steps that do not wait for a line -/

theorem wakeWait_of_ne {line : Nat} {x w : Wait} (h : w ≠ .fill line) : wakeWait line x w = w := if_neg h

theorem option_map_fixed {α : Type} {f : α → α} {o : Option α} (h : ∀ a, o = some a → f a = a) : o.map f = o := by
  cases o with
  | none => rfl
  | some a => exact congrArg some (h a rfl)

theorem list_map_fixed {α : Type} {f : α → α} {l : List α} (h : ∀ a ∈ l, f a = a) : l.map f = l := by
  rw [List.map_congr_left (g := id) h, List.map_id]

theorem NoStepWaits.congr {line : Nat} (h : NoStepWaits line s) (hc : ∀ c, chan t c = chan s c) (hr : SameRest s t) :
    NoStepWaits line t := by
  unfold NoStepWaits at h ⊢
  simp only [hc, hr.running, hr.poisonings, hr.warm]
  exact h

/-- The table of channels may be another one, with the same channels. -/
def SameChannels (s t : State) : Prop := (∃ l, t = { s with channels := l }) ∧ ∀ c, chan t c = chan s c

theorem SameChannels.foldl {f : State → Nat → State} {l : List Nat} {v : State} (h : SameChannels s v)
    (hf : ∀ t, SameChannels s t → ∀ c ∈ l, SameChannels s (f t c)) : SameChannels s (l.foldl f v) := by
  induction l generalizing v with
  | nil => exact h
  | cons c l ih =>
    exact ih (hf v h c List.mem_cons_self) fun t ht x hx => hf t ht x (List.mem_cons_of_mem _ hx)

theorem channelNumbers_lt {c : Nat} (h : c ∈ channelNumbers) : c < 4 := by
  simp only [channelNumbers, List.mem_cons, List.not_mem_nil, or_false] at h
  omega

/-- With no step waiting for a line, its landing resumes none. -/
theorem resumeLine_keeps {line : Nat} (h : NoStepWaits line s) : SameChannels s (resumeLine line s) := by
  obtain ⟨hchan, hrun, hpois, hwarm⟩ := h
  have hchannel : ∀ t, SameChannels s t → ∀ c ∈ channelNumbers, SameChannels s (resumeChannel line t c) := by
    rintro t ⟨⟨l, rfl⟩, hc⟩ c hmem
    obtain ⟨ha, hu⟩ := hchan c (channelNumbers_lt hmem)
    have hsame : resumeChannel line { s with channels := l } c =
        setChan c (chan s c) { s with channels := l } := by
      unfold resumeChannel
      dsimp only
      rw [hc, option_map_fixed fun a h => by rw [wakeWait_of_ne (ha a h)],
        option_map_fixed fun u h => by rw [wakeWait_of_ne (hu u h)]]
    rw [hsame]
    refine ⟨⟨_, rfl⟩, fun x => ?_⟩
    rw [chan_setChan, hc]
    split
    next hx => rw [hx]
    next => rfl
  obtain ⟨⟨l, hl⟩, hc⟩ := SameChannels.foldl (v := s) ⟨⟨_, rfl⟩, fun _ => rfl⟩ hchannel
  have hsame : resumeLine line s = { s with channels := l } := by
    unfold resumeLine
    rw [hl]
    dsimp only
    rw [option_map_fixed fun r h => by rw [wakeWait_of_ne (hrun r h)],
      list_map_fixed fun p h => by rw [wakeWait_of_ne (hpois p h)], option_map_fixed fun w h => ?_]
    obtain ⟨_, _, _, _, _, _, _, stage⟩ := w
    dsimp only
    split
    next todo d x => rw [wakeWait_of_ne (hwarm _ todo d x h rfl)]
    next => rfl
  exact ⟨⟨l, hsame⟩, fun c => by rw [hsame, ← hl]; exact hc c⟩

theorem foldl_fixed {f : State → Nat → State} {l : List Nat} (h : ∀ c ∈ l, f s c = s) : l.foldl f s = s := by
  induction l with
  | nil => rfl
  | cons c l ih => rw [List.foldl_cons, h c List.mem_cons_self, ih fun x hx => h x (List.mem_cons_of_mem _ hx)]

/-- With no step waiting for a line, its failure is told to none. -/
theorem stepsFailed_of_noStepWaits {line : Nat} (h : NoStepWaits line s) : stepsFailed line s = s := by
  obtain ⟨hchan, hrun, hpois, hwarm⟩ := h
  have hcommands : channelNumbers.foldl (commandFillFailed line) s = s := foldl_fixed fun c hc => by
    unfold commandFillFailed
    split
    next => rfl
    next a ha => exact if_pos ((hchan c (channelNumbers_lt hc)).1 a ha)
  have hundos : channelNumbers.foldl (undoFillFailed line) s = s := foldl_fixed fun c hc => by
    unfold undoFillFailed
    split
    next u hu => exact if_neg ((hchan c (channelNumbers_lt hc)).2 u hu)
    next => rfl
  have hrequest : s.running.any (fun r => r.wait == .fill line) = false := by
    cases hr : s.running with
    | none => rfl
    | some r => exact beq_eq_false_iff_ne.2 (hrun r hr)
  have hpoisonings : s.poisonings.map (fun p => { p with wait := wakeWait line .running p.wait }) = s.poisonings :=
    list_map_fixed fun p hp => by rw [wakeWait_of_ne (hpois p hp)]
  unfold stepsFailed
  dsimp only
  rw [hcommands, hundos, hrequest, if_neg Bool.false_ne_true, hpoisonings]
  split
  next hw => exact if_neg (hwarm _ _ _ _ hw rfl)
  next => rfl

/-! ### Steps after which the same can go on -/

/-- What can go on is the same, and no request is produced or becomes outstanding. -/
structure SameWork (s t : State) : Prop where
  rest        : SameRest s t
  channels    : ∀ c, chan t c = chan s c
  outstanding : t.outstanding = s.outstanding
  produced    : t.produced.length ≤ s.produced.length

theorem SameWork.trans (h : SameWork s t) (k : SameWork t u) : SameWork s u :=
  ⟨h.rest.trans k.rest, fun c => (k.channels c).trans (h.channels c), k.outstanding.trans h.outstanding,
    k.produced.trans h.produced⟩

theorem SameChannels.sameWork (h : SameChannels s t) : SameWork s t := by
  obtain ⟨⟨l, rfl⟩, hc⟩ := h
  exact ⟨⟨rfl, rfl, rfl, rfl, rfl⟩, hc, rfl, le_rfl⟩

theorem SameWork.settle (h : SameWork s t) (hq : Quiet s) : settle t = t :=
  settle_quiet (hq.congr (fun c _ => by rw [h.channels]; exact .refl _) h.rest)

/-- A step that produces nothing issues nothing (R10). -/
theorem issueProduced_none {old : State} (h : t.produced.length ≤ old.produced.length) :
    issueProduced old t = { t with produced := old.produced } := by
  unfold issueProduced producedJobs
  rw [List.drop_eq_nil_of_le h]
  rfl

/-- The row ends after such a step with what the ports offer. -/
theorem SameWork.answerStep {old : State} (h : SameWork s t) (hq : Quiet s) (hp : s.produced = old.produced) :
    answerStep old (some (Machine.settle t)) = .next (finish { t with produced := old.produced }) := by
  rw [h.settle hq, ← issueProduced_none (h.produced.trans_eq (congrArg List.length hp))]
  rfl

/-! ### A landing (R48, R50, R52) -/

theorem installLine_eq (f : Fill) (w : Nat) (r0 r1 r2 r3 : RecordRead) (s : State) :
    ∃ v, v = (lineReadings f.line r0 r1 r2 r3).foldl checkOne s ∧ ∃ l,
      installLine f w (r0, r1, r2, r3) s = { v with
        lru := l
        ways := tblPut v.ways (8 * (f.line % 256) + w)
          { line := f.line
            records := { r0 := landedRecord r0, r1 := landedRecord r1, r2 := landedRecord r2, r3 := landedRecord r3 }
            dirty := landedChanged r0 || landedChanged r1 || landedChanged r2 || landedChanged r3 }
        fills := v.fills.filter (fun x => x.serial != f.serial)
        missQueue := v.missQueue.map (fun m => if m.line = f.line then { m with released := true } else m) } := by
  unfold installLine
  rw [checkLine_eq]
  exact ⟨_, rfl, _, rfl⟩

/-- The line stands in its way once its fill has installed it (R48), and nothing that goes on has changed. -/
theorem installLine_lands (f : Fill) (w : Nat) (r0 r1 r2 r3 : RecordRead) (s : State) :
    Landed f w r0 r1 r2 r3 s (installLine f w (r0, r1, r2, r3) s) ∧
      SameWork s (installLine f w (r0, r1, r2, r3) s) := by
  obtain ⟨v, hv, l, hl⟩ := installLine_eq f w r0 r1 r2 r3 s
  rw [hl]
  have hkept : IntegrityOnly s v := hv ▸ .foldl integrityOnly_checkOne _ s
  have hways : v.ways = s.ways := (congrArg State.ways hkept :)
  have hcount : CountedUp ((lineReadings f.line r0 r1 r2 r3).filter fun p => landedCorrected p.2) s v :=
    hv ▸ countedUp_checkLine _ s
  have hlosses := Losing.checkLine (base := s) (s := s) (x := { list := s.poisonList, hold := s.hold, causes := [] })
    ⟨rfl, rfl, rfl, takesCauses_nil s⟩ (lineReadings f.line r0 r1 r2 r3)
  rw [← hv] at hlosses
  refine ⟨⟨?_, fun x hx => ?_, ?_, ?_, ?_, fun c => ?_, ?_, ?_⟩, ?_⟩
  · exact tblGet_tblPut_same ..
  · rw [← hways]
    exact tblGet_tblPut_ne _ _ hx
  · exact congrArg (List.filter _) (congrArg State.fills hkept :)
  · exact congrArg (List.map _) (congrArg State.missQueue hkept :)
  · exact (congrArg State.completions hkept :)
  · exact (congrArg (fun s => chan s c) hkept :)
  · rintro fixed rfl
    exact hcount
  · rintro lost x rfl rfl
    refine ⟨hlosses.list, hlosses.hold, hlosses.causes, fun hlost => ?_, fun hgrants gone hgone => ?_⟩
    · exact hv ▸ checkLine_raises (lineReadings f.line r0 r1 r2 r3) s hlost
    · subst hgone
      exact hv ▸ grantsGone_checkLine (lineReadings f.line r0 r1 r2 r3) s hgrants
  · exact ⟨⟨(congrArg State.running hkept :), (congrArg State.requests hkept :), (congrArg State.warm hkept :),
      (congrArg State.flush hkept :), (congrArg State.poisonings hkept :)⟩,
      fun c => (congrArg (fun s => chan s c) hkept :), (congrArg State.outstanding hkept :),
      (congrArg (fun s => s.produced.length) hkept :).le⟩

theorem Landed.sameChannels {f : Fill} {w : Nat} {r0 r1 r2 r3 : RecordRead} (h : Landed f w r0 r1 r2 r3 s t)
    (k : SameChannels t u) : Landed f w r0 r1 r2 r3 s u := by
  obtain ⟨⟨l, rfl⟩, hc⟩ := k
  obtain ⟨hway, hways, hfills, hmisses, hcompletions, hchan, hcount, hpoisons⟩ := h
  exact ⟨hway, hways, hfills, hmisses, hcompletions, fun c => (hc c).trans (hchan c), hcount, hpoisons⟩

/-- The end of the step keeps what has landed. -/
theorem Landed.finish {f : Fill} {w : Nat} {r0 r1 r2 r3 : RecordRead} (h : Landed f w r0 r1 r2 r3 s t)
    (l : List OwnJob) : Landed f w r0 r1 r2 r3 s (finish { t with produced := l }) := by
  have hdom : ∀ d, dom { t with produced := l } d = dom t d := fun _ => rfl
  have hchan : ∀ c, chan { t with produced := l } c = chan t c := fun _ => rfl
  have hsource : ∀ x, sourceOf { t with produced := l } x = sourceOf t x := fun _ => rfl
  unfold Landed LandingCounted LandingPoisons TakesCauses at h ⊢
  simpa only [finish_ways, finish_fills, finish_missQueue, finish_completions, chan_finish, finish_corrected,
    finish_firstCorrected, finish_correctedLimit, sourceOf_finish_pending, finish_poisonList, finish_hold, finish_mode,
    finish_integrityMark, finish_cause, finish_grants, dom_finish, hdom, hchan, hsource] using h

/-- A fill whose data is there and whose way is clean lands (R45, R48). -/
theorem tryLand_lands {f : Fill} {w : Nat} {r0 r1 r2 r3 : RecordRead}
    (hf : s.fills.find? (fun x => x.serial == f.serial) = some f) (hw : f.way = some w)
    (hd : f.data = some (r0, r1, r2, r3))
    (hclean : ∀ v, tblGet s.ways (8 * (f.line % 256) + w) = some v → v.dirty = false) (hno : NoStepWaits f.line s) :
    Landed f w r0 r1 r2 r3 s (tryLand f.serial s) ∧ SameWork s (tryLand f.serial s) := by
  have hland : landable s f = some (w, r0, r1, r2, r3) := by
    unfold landable
    rw [hw, hd]
    dsimp only
    split
    next => rfl
    next v hv => rw [hclean v hv, if_neg Bool.false_ne_true]
  have hresumed : tryLand f.serial s = resumeLine f.line (installLine f w (r0, r1, r2, r3) s) := by
    unfold tryLand
    rw [hf]
    dsimp only
    rw [hland]
  obtain ⟨hlanded, hwork⟩ := installLine_lands f w r0 r1 r2 r3 s
  have hkept := resumeLine_keeps (hno.congr hwork.channels hwork.rest)
  rw [hresumed]
  exact ⟨hlanded.sameChannels hkept, hwork.trans hkept.sameWork⟩

/-! ### A failing fill (R49) -/

theorem answers_eq (l : List Miss) (status : Status) (s : State) :
    l.foldl (fun s m => answer m.request status s) s =
      { s with completions := s.completions ++ l.map (fun m => refusalOf m.request status) } := by
  induction l generalizing s with
  | nil => simp
  | cons m l ih =>
    rw [List.foldl_cons, ih]
    simp only [answer, decideFor, refusalOf, List.append_assoc, List.map_cons, List.cons_append, List.nil_append]

/-- The state after a fill has failed on whose line no step waits. -/
theorem failFill_eq {f : Fill} (hf : s.fills.find? (fun x => x.serial == f.serial) = some f)
    (hno : NoStepWaits f.line s) : failFill f.serial s =
      raise .tagFetchFailed { s with
        fills := s.fills.filter (fun x => x.serial != f.serial)
        missQueue := s.missQueue.filter (fun m => !(m.line == f.line && !m.released))
        tagWaits := s.tagWaits.filter (fun j => j != .fill f.serial f.line)
        produced := s.produced.filter (fun j => j != .fill f.serial f.line)
        completions := s.completions ++ (s.missQueue.filter (fun m => m.line == f.line && !m.released)).map
          (fun m => refusalOf m.request .tagUnavailable) } := by
  unfold failFill
  rw [hf]
  dsimp only
  rw [answers_eq]
  refine stepsFailed_of_noStepWaits (hno.congr (fun c => ?_) ?_)
  · rw [chan_raise]
    rfl
  · rw [raise_shape]
    exact ⟨rfl, rfl, rfl, rfl, rfl⟩

theorem failFill_fails {f : Fill} (hf : s.fills.find? (fun x => x.serial == f.serial) = some f)
    (hno : NoStepWaits f.line s) : FillFailed f s (failFill f.serial s) ∧ SameWork s (failFill f.serial s) := by
  rw [failFill_eq hf hno]
  refine ⟨⟨?_, ?_, ?_, sourceOf_raise_self .tagFetchFailed _, ?_, fun d => ?_, fun c => ?_⟩, ?_⟩
  · exact raise_completions ..
  · exact raise_missQueue ..
  · exact raise_fills ..
  · exact raise_ways ..
  · exact dom_raise ..
  · exact chan_raise ..
  · rw [raise_shape]
    exact ⟨⟨rfl, rfl, rfl, rfl, rfl⟩, fun _ => rfl, rfl, List.length_filter_le ..⟩

theorem FillFailed.finish {f : Fill} (h : FillFailed f s t) (l : List OwnJob) :
    FillFailed f s (finish { t with produced := l }) := by
  have hdom : ∀ d, dom { t with produced := l } d = dom t d := fun _ => rfl
  have hchan : ∀ c, chan { t with produced := l } c = chan t c := fun _ => rfl
  have hsource : ∀ x, sourceOf { t with produced := l } x = sourceOf t x := fun _ => rfl
  unfold FillFailed at h ⊢
  simpa only [finish_ways, finish_fills, finish_missQueue, finish_completions, chan_finish, sourceOf_finish_pending,
    dom_finish, hdom, hchan, hsource] using h

/-! ### The completion of a fill read -/

theorem fillCompletion_records {tag : Nat} {o : Outstanding} {serial line : Nat} {r0 r1 r2 r3 : RecordRead}
    (ho : outstandingAt s tag = some o) (hj : o.job = .fill serial line) :
    fillCompletion tag (.records r0 r1 r2 r3) s =
      some (settle (fillData serial (r0, r1, r2, r3) (retireTag tag s))) := by
  obtain ⟨_, job, _, _⟩ := o
  cases hj
  simp only [fillCompletion, ho]

theorem fillCompletion_error {tag : Nat} {o : Outstanding} {serial line : Nat} (ho : outstandingAt s tag = some o)
    (hj : o.job = .fill serial line) :
    fillCompletion tag .error s = some (settle (failFill serial (retireTag tag s))) := by
  obtain ⟨_, job, _, _⟩ := o
  cases hj
  simp only [fillCompletion, ho]

/-- The fills once the read of one has completed. -/
def filledFills (serial : Nat) (d : RecordRead × RecordRead × RecordRead × RecordRead) (l : List Fill) : List Fill :=
  l.map fun f => if f.serial = serial then { f with data := some d } else f

theorem find_filledFills {f : Fill} {l : List Fill} (h : l.find? (fun x => x.serial == f.serial) = some f)
    (d : RecordRead × RecordRead × RecordRead × RecordRead) :
    (filledFills f.serial d l).find? (fun x => x.serial == f.serial) = some { f with data := some d } := by
  have hserial : (fun x : Fill => x.serial == f.serial) ∘
      (fun x : Fill => if x.serial = f.serial then { x with data := some d } else x) =
        (fun x => x.serial == f.serial) := by
    funext x
    simp only [Function.comp_apply]
    split <;> rfl
  rw [filledFills, List.find?_map, hserial, h, Option.map_some, if_pos rfl]

theorem filter_filledFills (serial : Nat) (d : RecordRead × RecordRead × RecordRead × RecordRead) (l : List Fill) :
    (filledFills serial d l).filter (fun x => x.serial != serial) = l.filter (fun x => x.serial != serial) := by
  induction l with
  | nil => rfl
  | cons x l ih =>
    rw [filledFills, List.map_cons]
    by_cases hx : x.serial = serial
    · rw [List.filter_cons_of_neg (by simp [hx]), List.filter_cons_of_neg (by simp [hx])]
      exact ih
    · rw [if_neg hx, List.filter_cons_of_pos (by simp [hx]), List.filter_cons_of_pos (by simp [hx])]
      exact congrArg _ ih

theorem fillRead_lands {tag : Fin 1024} {o : Outstanding} {f : Fill} {r0 r1 r2 r3 : RecordRead} {w : Nat}
    (ho : outstandingAt s tag.val = some o) (hj : o.job = .fill f.serial f.line)
    (hf : s.fills.find? (fun x => x.serial == f.serial) = some f) (hno : NoStepWaits f.line s) (hq : Quiet s)
    (hw : f.way = some w) (hclean : ∀ v, tblGet s.ways (8 * (f.line % 256) + w) = some v → v.dirty = false) :
    ∃ t, exec (.fillReadCompletion tag (.records r0 r1 r2 r3)) s = .next t ∧ Landed f w r0 r1 r2 r3 s t ∧
      t.outstanding = s.outstanding.filter (fun x => x.tag != tag.val) := by
  obtain ⟨hlanded, hwork⟩ := tryLand_lands
    (s := { retireTag tag.val s with fills := filledFills f.serial (r0, r1, r2, r3) s.fills })
    (f := { f with data := some (r0, r1, r2, r3) }) (find_filledFills hf _) hw rfl hclean hno
  have hexec : exec (.fillReadCompletion tag (.records r0 r1 r2 r3)) s =
      answerStep s (fillCompletion tag.val (.records r0 r1 r2 r3) s) := rfl
  rw [hexec, fillCompletion_records ho hj]
  refine ⟨_, hwork.answerStep (old := s) hq rfl, ?_, (finish_outstanding _).trans hwork.outstanding⟩
  obtain ⟨hway, hways, hfills, hrest⟩ := hlanded.finish s.produced
  exact ⟨hway, hways, hfills.trans (filter_filledFills ..), hrest⟩

theorem fillRead_fails {tag : Fin 1024} {o : Outstanding} {f : Fill} (ho : outstandingAt s tag.val = some o)
    (hj : o.job = .fill f.serial f.line) (hf : s.fills.find? (fun x => x.serial == f.serial) = some f)
    (hno : NoStepWaits f.line s) (hq : Quiet s) :
    ∃ t, exec (.fillReadCompletion tag .error) s = .next t ∧ FillFailed f s t ∧ t.mode = s.mode ∧
      t.outstanding = s.outstanding.filter (fun x => x.tag != tag.val) := by
  obtain ⟨hfailed, hwork⟩ := failFill_fails (s := retireTag tag.val s) hf hno
  have hmode : (failFill f.serial (retireTag tag.val s)).mode = s.mode := by
    rw [failFill_eq (s := retireTag tag.val s) hf hno, raise_mode]
    rfl
  have hexec : exec (.fillReadCompletion tag .error) s = answerStep s (fillCompletion tag.val .error s) := rfl
  rw [hexec, fillCompletion_error ho hj]
  exact ⟨_, hwork.answerStep (old := s) hq rfl, hfailed.finish s.produced, (finish_mode _).trans hmode,
    (finish_outstanding _).trans hwork.outstanding⟩

/-- Settles O49: the check of the landing line is followed record by record (`installLine_lands`), and with no step
waiting for the line nothing else goes on, whether the fill lands or fails. -/
theorem fillReadLandsItsLineOrFailsItsWaiters : Obligations.FillReadLandsItsLineOrFailsItsWaiters :=
  fun _ _ _ _ ho hj hf hno hq =>
    ⟨fun _ _ _ _ _ hw hclean => fillRead_lands ho hj hf hno hq hw hclean, fillRead_fails ho hj hf hno hq⟩

end Sys2Proof.Machine
end

section
/-!
PROOFS. The warm reset's Tag Cache stage (R62, R174) and the mode: the refutation of O51.  Its fourth part says that an
OK write-back leaves the mode as it was, and does not ask that no poisoning is held.  The last one ends the stage and,
with no REVOKING entry, the reset; the poisonings that it held go on in the same step (R174), and one of a line that is
still cached, because its own write-back has failed, finds the poison list full and contains the part (R57, R198).  The
state below is OPERATIONAL with a failed line in the stage, where R46 would have left CONTAINED; the statement does not
ask for that either.
-/

namespace Sys2Proof.Machine

/-- Line 0 stands dirty in way 0 of set 0. -/
def heldWay : Way :=
  { line := 0, dirty := true
    records :=
      { r0 := { owner := some 5, state := .gPrivate, pinned := false, dirty := false, count := 0 }
        r1 := openRecord, r2 := openRecord, r3 := openRecord } }

/-- The write-back of line 0 under tag 300, one of whose records has changed since its issue (R42). -/
def heldWrite : Outstanding := { tag := 300, job := .writeBack 0 0, changed := true, timer := 0 }

/-- A warm reset in its Tag Cache stage, in which a write-back of line 0 has failed. -/
def heldReset : WarmReset :=
  { channel := 0, block := 0, stage := .tagCache { failed := [0], earlier := [] }
    stopped := 0, discarded := 0, lost := 0, removed := 0, left := 0 }

/-- An OPERATIONAL part in that stage, which holds a poisoning of granule 0, with a full poison list. -/
def heldPart : State :=
  { coldState 1 2 false false with
    mode := .operational, tagBase := some 267386880, ways := [(0, heldWay)], outstanding := [heldWrite]
    warm := some heldReset
    poisonings := [{ granule := 0, cause := .orphanWrite, source := .orphan 3, wait := .suspended }]
    poisonList := (List.range 16).map fun g => { granule := 100 + g, owner := none, cause := .record } }

/-- The part once the write-back has ended OK and everything has gone on that then could. -/
def heldPartAfter : State :=
  finish (issueProduced heldPart (settle (writeBackDone 0 0 true true (retireTag 300 heldPart))))

theorem exec_heldPart : exec (.writeBackCompletion 300 .ok) heldPart = .next heldPartAfter := rfl

theorem heldPart_quiet : Quiet heldPart := by
  unfold Quiet
  decide

/-- The poisoning that the end of the reset lets go on contains the part. -/
theorem heldPartAfter_mode : heldPartAfter.mode = .contained := by
  rw [heldPartAfter, finish_mode, issueProduced_mode]
  decide

/-- Refutes O51: in `heldPart` the last OK write-back of the Tag Cache stage ends the warm reset, and a poisoning that
it held takes cause POISON_FULL, so the mode is not as it was. -/
theorem not_writeBacksCleanLinesAndFlushTagsIssuesThem : ¬ Obligations.WriteBacksCleanLinesAndFlushTagsIssuesThem := by
  rintro ⟨-, -, -, hstage, -⟩
  have hidle : ∀ c, (chan heldPart c).active = none := fun _ => rfl
  obtain ⟨t, hexec, hmode, -⟩ := hstage 300 .ok heldWrite 0 0 heldWay heldReset { failed := [0], earlier := [] } _
    heldPart _ rfl rfl rfl rfl rfl rfl rfl heldPart_quiet (fun c a f ha => by rw [hidle] at ha; cases ha) rfl rfl
  have hsame : heldPartAfter.mode = .operational := by
    rw [exec_heldPart] at hexec
    cases hexec
    exact hmode rfl
  rw [heldPartAfter_mode] at hsame
  cases hsame

end Sys2Proof.Machine
end

section
/-!
PROOFS. The check of an arrival (R3, R64 to R78): the steps before the record, the verdict of a cached record with the
mark of a permitted write, and the miss that starts a fill: O31 to O34.  The check itself is followed with O36.
-/

namespace Sys2Proof.Machine
variable {s t u v old : State} {r : Request} {g : Nat}

/-- The state on which an arrival is checked: its tag is in use (R3). -/
def arrived (r : Request) (s : State) : State := { s with tagsInUse := s.tagsInUse ++ [r.tag.val] }

/-- A request that the port takes under a tag that is not in use is checked from step 1, its tag now in use (R3). -/
theorem exec_requestTaken_arrives (h : Arrives r s) : exec (.requestTaken r) s =
    .next (finish (issueProduced s (check r (arrived r s)))) := by
  obtain ⟨htakes, hfree⟩ := h
  have hcontains : s.tagsInUse.contains r.tag.val = false := by simpa using hfree
  rw [exec_requestTaken, offerRequest, if_pos ((accepts_iff s).2 htakes), takeRequest, hcontains]
  rfl

theorem tagsInUse_rowEnd : (finish (issueProduced old v)).tagsInUse = v.tagsInUse := by
  rw [finish_tagsInUse, issueProduced_tagsInUse]

theorem Arrives.stage (h : Arrives r s) : s.stage = none := h.1.2.1

/-- Settles O31: an arrival's check decides by the steps before the record, on the state in which its tag is in use. -/
theorem stepsBeforeTheRecordDecide : Obligations.StepsBeforeTheRecordDecide := by
  intro r s h
  refine ⟨_, exec_requestTaken_arrives h, fun hclass => ?_, ?_⟩
  · rw [tagsInUse_rowEnd]
    exact check_tagsInUse hclass
  · exact check_decides (u := arrived r s) h.stage rfl

/-- An arrival that comes to step 9 is decided by its record alone (R71). -/
theorem arrival_reaches (h : ReachesStepNine r g s) :
    check r (arrived r s) = checkRecordStep r g (arrived r s) := check_reachesStepNine h

/-- An arrival that hits is decided by its record, the way having moved in its set's order (R41, R71). -/
theorem exec_requestTaken_hit {rec : TagRecord} (h : Arrives r s) (hreaches : ReachesStepNine r g s)
    (hrec : recordAt s g = some rec) : ∃ l, exec (.requestTaken r) s =
      .next (finish (issueProduced s (decideByRecord r g rec { arrived r s with lru := l }))) := by
  obtain ⟨l, hl⟩ := checkRecordStep_hit (r := r) (u := arrived r s) hrec
  exact ⟨l, by rw [exec_requestTaken_arrives h, arrival_reaches hreaches, hl]⟩

/-- Settles O33: the rows of the tables are the verdicts of step 9, and a verdict is no permission. -/
theorem stepNineRefusesByItsTables : Obligations.StepNineRefusesByItsTables := by
  intro r g rec reason s h hreaches hrec hrow
  have hverdict := recordVerdict_of_stepNine hrow
  obtain ⟨l, hexec⟩ := exec_requestTaken_hit h hreaches hrec
  refine ⟨_, hexec, ?_, decideByRecord_refuses (u := arrived r s) rfl hverdict rfl, fun hpermits => ?_⟩
  · rw [tagsInUse_rowEnd, decideByRecord_tagsInUse]
    rfl
  · rw [recordVerdict_of_permits hpermits] at hverdict
    cases hverdict

/-! ### The mark of a permitted write (R78, R155) -/

/-- The slot that a record's writes are marked in: its owner's, of a guest, ACTIVE or OVERFLOWED. -/
theorem trackingSlot_eq_some_iff {rec : TagRecord} {k : Nat} : trackingSlot s rec = some k ↔
    rec.state = .gPrivate ∧ ∃ d, rec.owner = some d ∧ d ≠ 0 ∧ (dom s d).slot = some k ∧
      ((slotOf s k).state = .active ∨ (slotOf s k).state = .overflowed) := by
  unfold trackingSlot
  split
  next d hstate howner =>
    rw [howner]
    cases hslot : (dom s d).slot with
    | none =>
      refine iff_of_false (fun h => by cases h) ?_
      rintro ⟨-, x, hx, -, hk, -⟩
      cases hx
      rw [hslot] at hk
      cases hk
    | some j =>
      dsimp only
      rw [Option.ite_none_right_eq_some]
      constructor
      · rintro ⟨hon, hj⟩
        cases hj
        exact ⟨hstate, d, rfl, hon.1, hslot, hon.2⟩
      · rintro ⟨-, x, hx, hne, hk, hon⟩
        cases hx
        rw [hslot] at hk
        cases hk
        exact ⟨⟨hne, hon⟩, rfl⟩
  next hother =>
    refine iff_of_false (fun h => by cases h) ?_
    rintro ⟨hstate, d, howner, -⟩
    exact hother d hstate howner

theorem isMarked_iff {rec : TagRecord} : IsMarked r rec s ↔
    r.kind ≠ .read ∧ rec.dirty = false ∧ ∃ k, trackingSlot s rec = some k := by
  simp only [trackingSlot_eq_some_iff]
  constructor
  · rintro ⟨hkind, hstate, hdirty, d, k, hslot⟩
    exact ⟨hkind, hdirty, k, hstate, d, hslot⟩
  · rintro ⟨hkind, hdirty, k, hstate, d, hslot⟩
    exact ⟨hkind, hstate, hdirty, d, k, hslot⟩

/-- The state from which a permitted request is forwarded: a write may have been marked (R78). -/
def tracked (r : Request) (g : Nat) (rec : TagRecord) (s : State) : State :=
  if r.kind = .read then s else markWrite g rec s

theorem tracked_shape (r : Request) (g : Nat) (rec : TagRecord) (s : State) : tracked r g rec s =
    { s with
      ways := (tracked r g rec s).ways, outstanding := (tracked r g rec s).outstanding
      slots := (tracked r g rec s).slots, notices := (tracked r g rec s).notices } := by
  unfold tracked
  split
  · rfl
  · exact markWrite_shape ..

theorem decideByRecord_of_permits {rec : TagRecord} (h : recordVerdict r g rec s = none) :
    decideByRecord r g rec s = forward { request := r, granule := g, unformatted := false } (tracked r g rec s) := by
  unfold decideByRecord
  rw [h]
  rfl

/-- A marked write sets DIRTY in its record, whatever its slot then takes. -/
theorem tracked_marks {rec : TagRecord} (h : IsMarked r rec s) (hrec : recordAt s g = some rec) :
    RecordNow g { rec with dirty := true } s (tracked r g rec s) := by
  obtain ⟨hkind, hdirty, k, hslot⟩ := isMarked_iff.1 h
  have hways : (tracked r g rec s).ways = (putRecord g { rec with dirty := true } s).ways := by
    unfold tracked markWrite
    rw [if_neg hkind, hslot]
    dsimp only
    rw [hdirty, if_neg Bool.false_ne_true, slotTake_shape]
  exact (recordNow_putRecord hrec).congr rfl hways

theorem tracked_unmarked {rec : TagRecord} (h : ¬IsMarked r rec s) : tracked r g rec s = s := by
  unfold tracked
  split
  · rfl
  next hkind =>
    unfold markWrite
    split
    next k hslot => exact if_pos (by simpa [isMarked_iff, hkind, hslot] using h)
    next => rfl

/-- Forwarding changes no domain, grant or slot. -/
theorem forward_tables (x : HeldTx) (s : State) :
    ((forward x s).domains, (forward x s).grants, (forward x s).slots) = (s.domains, s.grants, s.slots) := by
  unfold forward
  split <;> rfl

/-- What is forwarded leaves the domains and the grants, and has the ways and the slots of what was tracked. -/
theorem forwarded_tables {rec : TagRecord} {x : HeldTx} (ht : t = finish (forward x (tracked r g rec s))) :
    (∀ d, dom t d = dom s d) ∧ t.grants = s.grants ∧ t.ways = (tracked r g rec s).ways ∧
      t.slots = (tracked r g rec s).slots := by
  obtain ⟨hdomains, hgrants, hslots⟩ : (forward x (tracked r g rec s)).domains = s.domains ∧
      (forward x (tracked r g rec s)).grants = s.grants ∧
      (forward x (tracked r g rec s)).slots = (tracked r g rec s).slots := by
    have htables := forward_tables x (tracked r g rec s)
    simp only [Prod.mk.injEq] at htables
    rw [tracked_shape]
    rw [tracked_shape] at htables
    exact htables
  subst ht
  refine ⟨fun d => ?_, ?_, ?_, ?_⟩
  · rw [dom_finish, dom_congr hdomains]
  · rw [finish_grants, hgrants]
  · rw [finish_ways, forward_ways]
  · rw [finish_slots, hslots]

/-- Settles O32: the request goes on from the state in which its write may have been marked. -/
theorem stepNineForwardsWhatTheRecordPermits : Obligations.StepNineForwardsWhatTheRecordPermits := by
  intro r g rec s h hreaches hrec hpermits
  obtain ⟨l, hexec⟩ := exec_requestTaken_hit h hreaches hrec
  obtain ⟨y, hy⟩ : ∃ y, y = { arrived r s with lru := l } := ⟨_, rfl⟩
  rw [← hy] at hexec
  have hforwarded : Forwarded r g false (arrived r s) (finish (issueProduced s (decideByRecord r g rec y))) :=
    (decideByRecord_permits hy hpermits h.stage rfl).1
  have htags : (finish (issueProduced s (decideByRecord r g rec y))).tagsInUse = s.tagsInUse ++ [r.tag.val] := by
    rw [tagsInUse_rowEnd, decideByRecord_tagsInUse, hy]
    rfl
  have hdecided : decideByRecord r g rec y = forward { request := r, granule := g, unformatted := false }
      (tracked r g rec y) := decideByRecord_of_permits (by rw [hy]; exact recordVerdict_of_permits hpermits)
  have hrow : finish (issueProduced s (decideByRecord r g rec y)) =
      finish (forward { request := r, granule := g, unformatted := false } (tracked r g rec y)) := by
    rw [hdecided, rowEnd_eq (by rw [forward_produced, tracked_shape, hy]; rfl)]
  obtain ⟨hdoms, hgrants, hways, hslots⟩ := forwarded_tables hrow
  refine ⟨_, hexec, htags, hforwarded, fun d => ?_, ?_, fun hmarked => ?_, fun hnot => ?_⟩
  · rw [hdoms, hy]
    rfl
  · rw [hgrants, hy]
    rfl
  · have hnow : RecordNow g { rec with dirty := true } y (tracked r g rec y) :=
      tracked_marks (by rw [hy]; exact hmarked) (by rw [hy]; exact hrec)
    exact hnow.congr (by rw [hy]; rfl) hways
  · have hsame : tracked r g rec y = y := tracked_unmarked (by rw [hy]; exact hnot)
    rw [hways, hslots, hsame, hy]
    exact ⟨rfl, rfl⟩

/-! ### A miss and the read of its fill (R10, R25, R47) -/

/-- A fill produces the read of its line, and after it the write-back of a dirty victim at most (R44, R47). -/
theorem startFill_produced (line : Nat) (s : State) : ∃ l, (startFill line s).produced =
    s.produced ++ .fill s.fillSerial line :: l ∧ (l = [] ∨ ∃ key victim, l = [.writeBack key victim]) := by
  have hclaim : ∀ (serial set way : Nat) (u : State), ∃ l, (claimFor serial set way u).produced = u.produced ++ l ∧
      (l = [] ∨ ∃ key victim, l = [.writeBack key victim]) := fun serial set way u => by
    unfold claimFor
    dsimp only
    split
    · split
      · exact ⟨_, rfl, .inr ⟨_, _, rfl⟩⟩
      · exact ⟨[], (List.append_nil _).symm, .inl rfl⟩
    · exact ⟨[], (List.append_nil _).symm, .inl rfl⟩
  unfold startFill
  dsimp only
  split
  · obtain ⟨l, hl, hcases⟩ := hclaim _ _ _ _
    exact ⟨l, by rw [hl]; simp [produceJob], hcases⟩
  · exact ⟨[], rfl, .inl rfl⟩

/-- The read comes first in the order of R10. -/
theorem producedJobs_startFill {line : Nat} (h : ∃ l, v.produced = old.produced ++ .fill s.fillSerial line :: l ∧
    (l = [] ∨ ∃ key victim, l = [.writeBack key victim])) :
    ∃ l, producedJobs old v = .fill s.fillSerial line :: l := by
  obtain ⟨l, hl, hcases⟩ := h
  refine ⟨l, ?_⟩
  rw [producedJobs, hl, List.drop_left]
  rcases hcases with rfl | ⟨key, victim, rfl⟩ <;> rfl

theorem mem_offers_issueJobs {p : DownRequest} (l : List OwnJob) (h : p ∈ s.offers) :
    p ∈ (l.foldl (fun t j => issueJob j t) s).offers := by
  induction l generalizing s with
  | nil => exact h
  | cons j l ih =>
    refine ih ?_
    rcases issueJob_cases j s with ⟨-, -, ho⟩ | ⟨x, -, -, ho⟩
    · rwa [ho]
    · rw [ho]
      exact List.mem_append_left _ h

/-- A job that no other of its class waits before is offered under the lowest free tag of its class (R10). -/
theorem issueJob_offers {job : OwnJob} {x : Nat} (hwaits : ∀ j ∈ s.tagWaits, jobClass j ≠ jobClass job)
    (hx : freeTag (jobClass job) s = some x) : packetOf x job s ∈ (issueJob job s).offers := by
  have hnone : s.tagWaits.any (fun j => jobClass j == jobClass job) = false := by simpa using hwaits
  rw [issueJob, hnone, hx]
  dsimp only [sendJob]
  rw [noteIssue_shape]
  simp

/-- The state on which a request that has missed starts the fill of its line: it stands in the Miss Queue (R71). -/
def missed (r : Request) (g : Nat) (s : State) : State :=
  { arrived r s with
    missQueue := s.missQueue ++ [{ request := r, granule := g, line := g / 4, released := false }] }

theorem exec_requestTaken_miss (h : Arrives r s) (hreaches : ReachesStepNine r g s) (hmiss : recordAt s g = none)
    (hwaits : s.fillWaits = []) (hroom : s.fills.length < 8) (hline : ∀ f ∈ s.fills, f.line ≠ g / 4) :
    exec (.requestTaken r) s = .next (finish (issueProduced s (startFill (g / 4) (missed r g s)))) := by
  have hnone : (s.fills.any (fun f => f.line == g / 4) || s.fillWaits.contains (g / 4)) = false := by
    simpa [hwaits] using hline
  have hlookup : lookup g (arrived r s) = none := lookup_miss hmiss
  rw [exec_requestTaken_arrives h, arrival_reaches hreaches, checkRecordStep, hlookup]
  dsimp only
  rw [joinFill, if_neg (by rw [Bool.not_eq_true]; exact hnone), if_pos ⟨hroom, hwaits⟩]
  rfl

/-- The read of a started fill is issued before anything else that its step produces (R10, R25). -/
theorem startFill_offers {line x : Nat} (hp : u.produced = s.produced) (hwaits : ∀ j ∈ u.tagWaits, jobClass j ≠ .fill)
    (hx : freeTag .fill u = some x) :
    { tag := x, kind := .read, domain := 0, mask := 0, data := .none
      address := u.base + 4096 * u.tagBase.getD 0 + 64 * line } ∈
      (finish (issueProduced s (startFill line u))).offers := by
  obtain ⟨l, hl⟩ := producedJobs_startFill (hp ▸ startFill_produced line u)
  rw [finish_offers, issueProduced, hl, List.foldl_cons]
  refine mem_offers_issueJobs l ?_
  rw [startFill_shape]
  have hpacket := issueJob_offers (job := .fill u.fillSerial line) (x := x) (s := { u with
    fillSerial := (startFill line u).fillSerial, fills := (startFill line u).fills, produced := s.produced }) hwaits hx
  rw [packetOf, tagLineAddress_eq] at hpacket
  exact hpacket

/-- The fills are those that there were, and one for the line, without its data (R47). -/
theorem startFill_row_fills (line : Nat) (s u : State) :
    (finish (issueProduced s (startFill line u))).fills.map Fill.content =
      u.fills.map Fill.content ++ [(line, none)] := by
  rw [finish_fills, issueProduced_contents, startFill_contents]

/-- Settles O34: an arrival that misses joins the Miss Queue and starts its line's fill, whose read is issued first. -/
theorem missedRequestWaitsInTheMissQueue : Obligations.MissedRequestWaitsInTheMissQueue := by
  intro r g s h hreaches hmiss hwaits hroom hline
  refine ⟨_, exec_requestTaken_miss h hreaches hmiss hwaits hroom hline, ?_⟩
  have hfills := startFill_row_fills (g / 4) s (missed r g s)
  refine ⟨?_, ?_, ?_, fun d => ?_, ?_, ?_, ?_, ?_, fun f hf => ?_, fun x hx htag => ?_⟩
  · rw [finish_missQueue, issueProduced_missQueue, startFill_shape]
    rfl
  · rw [finish_completions, issueProduced_completions, startFill_shape]
    rfl
  · rw [finish_log, issueProduced_log, startFill_shape]
    rfl
  · rw [dom_finish, dom_issueProduced, startFill_shape]
    rfl
  · rw [finish_inFlight, issueProduced_inFlight, startFill_shape]
    rfl
  · rw [finish_ways, issueProduced_ways, startFill_shape]
    rfl
  · simpa [missed, arrived] using congrArg List.length hfills
  · have hnew : (g / 4, none) ∈ (missed r g s).fills.map Fill.content ++ [(g / 4, none)] := by simp
    rw [← hfills] at hnew
    obtain ⟨f, hf, hcontent⟩ := List.mem_map.1 hnew
    obtain ⟨hfline, hdata⟩ := Prod.mk.inj hcontent
    exact ⟨f, hf, hfline, hdata⟩
  · have hold : f.content ∈ (missed r g s).fills.map Fill.content ++ [(g / 4, none)] :=
      List.mem_append_left _ (List.mem_map_of_mem hf)
    rw [← hfills] at hold
    obtain ⟨f', hf', hcontent⟩ := List.mem_map.1 hold
    exact ⟨f', hf', (Prod.mk.inj hcontent).1⟩
  · exact startFill_offers (u := missed r g s) rfl htag hx

end Sys2Proof.Machine
end

section
/-!
PROOFS. Forwarded transactions (R80 to R86): the completion that frees an entry, the timeout that orphans it, and the
orphan limit that poisons the granule of a write: O26 and O27.
-/

namespace Sys2Proof.Machine
variable {s t u : State}

/-! ### An entry is freed and its requester answered (R81, R86) -/

/-- An entry that is freed leaves every counted set, and no drain whose set is empty stays (R86). -/
theorem mem_freeEntry_drains {i : Nat} {d : Drain} (h : d ∈ (freeEntry i s).drains) :
    i ∉ d.members ∧ (d.members ≠ [] ∨ d.held = true) := by
  obtain ⟨hmapped, hleft⟩ := List.mem_filter.1 h
  obtain ⟨x, -, rfl⟩ := List.mem_map.1 hmapped
  exact ⟨by simp, by simpa using hleft⟩

/-- The entry's index is free and the other entries stand (R81). -/
theorem tblGet_freeEntry (i x : Nat) (s : State) :
    tblGet (freeEntry i s).inFlight x = if x = i then none else tblGet s.inFlight x :=
  tblGet_tblDel s.inFlight i x

theorem completeEntry_shape (e : InFlight) (status : Status) (data : Line) (s : State) :
    completeEntry e status data s = { s with completions := (completeEntry e status data s).completions } := by
  unfold completeEntry
  split <;> rfl

/-- The requester is answered unless the entry carries the suppress-completion mark (R81, R82). -/
theorem completeEntry_decides (e : InFlight) (status : Status) (data : Line) (s : State) :
    if e.suppress then (completeEntry e status data s).completions = s.completions
    else Decided
      { tag := e.upstreamTag, status := status, data := if e.write then none else some data, duplicate := false } s
      (completeEntry e status data s) := by
  unfold completeEntry
  split <;> rfl

/-- What the requester of an entry is told by its completion, if the entry is not orphaned (R81, R83). -/
def answered (e : InFlight) (status : DownStatus) (data : Line) (s : State) : State :=
  if e.orphaned then s
  else match status with
    | .ok => completeEntry e .ok data s
    | .error => completeEntry e .downstreamError 0 s

theorem answered_shape (e : InFlight) (status : DownStatus) (data : Line) (s : State) :
    answered e status data s = { s with completions := (answered e status data s).completions } := by
  unfold answered
  split
  · rfl
  · cases status <;> exact completeEntry_shape ..

theorem answered_decides (e : InFlight) (status : DownStatus) (data : Line) (s : State) :
    if e.orphaned ∨ e.suppress then (answered e status data s).completions = s.completions
    else Decided
      { tag := e.upstreamTag
        status := match status with
          | .ok => .ok
          | .error => .downstreamError
        data := if e.write then none else match status with
          | .ok => some data
          | .error => some 0
        duplicate := false } s (answered e status data s) := by
  unfold answered
  cases horphaned : e.orphaned with
  | true => simp
  | false =>
    have hok := completeEntry_decides e .ok data s
    have herror := completeEntry_decides e .downstreamError 0 s
    simp only [Bool.false_eq_true, false_or, if_false]
    cases status with
    | ok => exact hok
    | error => exact herror

theorem exec_forwardedCompletion {i : Fin 256} {status : DownStatus} {data : Line} {e : InFlight}
    (he : tblGet s.inFlight i.val = some e) (hlimit : e.limitReached = false) :
    exec (.forwardedCompletion i status data) s = .next (finish (freeEntry i.val (answered e status data s))) := by
  have hcompletes : inFlightCompletion i.val status data s = freeEntry i.val (answered e status data s) := by
    unfold inFlightCompletion answered
    rw [he]
    dsimp only
    rw [hlimit, if_neg Bool.false_ne_true]
    split
    · rfl
    · cases status <;> rfl
  show answerStep s (some (inFlightCompletion i.val status data s)) = _
  rw [hcompletes]
  exact answerStep_some (by rw [answered_shape]; simp)

/-- Settles O26: the row frees the entry on the state in which its requester has been answered. -/
theorem forwardedCompletionFreesItsEntry : Obligations.ForwardedCompletionFreesItsEntry := by
  intro i status data s e he hlimit
  refine ⟨_, exec_forwardedCompletion he hlimit, ?_, fun x hx => ?_, ?_, fun d hd => ?_, ?_, ?_,
    fun d => ?_, fun c => ?_⟩
  · rw [finish_inFlight, tblGet_freeEntry, if_pos rfl]
  · rw [finish_inFlight, tblGet_freeEntry, if_neg hx, answered_shape]
  · have hdecides := answered_decides e status data s
    simp only [Decided, finish_completions, freeEntry_completions] at hdecides ⊢
    exact hdecides
  · rw [finish_drains] at hd
    exact mem_freeEntry_drains hd
  · rw [finish_ways, freeEntry_ways, answered_shape]
  · rw [finish_log, freeEntry_log, answered_shape]
  · rw [dom_finish, answered_shape]
    rfl
  · rw [chan_finish, answered_shape]
    rfl

/-! ### The timeout of a forwarded request (R82) -/

/-- A forwarded request that times out: its entry is ORPHANED, its requester answered, its offer withdrawn
(R11, R82). -/
def timedOut (i : Nat) (e : InFlight) (s : State) : State :=
  let t := withdrawOffer i (completeEntry e .timeout 0 (elapse (Config.writeTimeout - e.timer) s))
  { t with inFlight := tblPut t.inFlight i { e with orphaned := true, timer := 0 } }

theorem timedOut_shape (i : Nat) (e : InFlight) (s : State) : timedOut i e s =
    { s with
      inFlight := (timedOut i e s).inFlight, outstanding := (timedOut i e s).outstanding
      heldTags := (timedOut i e s).heldTags, completions := (timedOut i e s).completions
      offers := (timedOut i e s).offers, downOffered := (timedOut i e s).downOffered } := by
  unfold timedOut
  rw [completeEntry_shape]
  rfl

theorem exec_forwardedTimeout {i : Fin 256} {e : InFlight} (he : tblGet s.inFlight i.val = some e)
    (hforwarded : e.orphaned = false) :
    exec (.forwardedTimeout i) s = .next (finish (raise .downstreamTimeout (timedOut i.val e s))) := by
  have htimeout : inFlightTimeout i.val s = raise .downstreamTimeout (timedOut i.val e s) := by
    unfold inFlightTimeout
    rw [he]
    dsimp only
    rw [hforwarded, if_neg Bool.false_ne_true]
    rfl
  show answerStep s (some (inFlightTimeout i.val s)) = _
  rw [htimeout]
  exact answerStep_some (by rw [raise_produced, timedOut_shape])

theorem forwardedTimeout_orphans (i : Fin 256) (s : State) (e : InFlight) (he : tblGet s.inFlight i.val = some e)
    (hforwarded : e.orphaned = false) :
    ∃ t, exec (.forwardedTimeout i) s = .next t ∧
      tblGet t.inFlight i.val = some { e with orphaned := true, timer := 0 } ∧
      (if e.suppress then t.completions = s.completions
       else Decided
         { tag := e.upstreamTag, status := .timeout, data := if e.write then none else some 0, duplicate := false }
         s t) ∧
      (sourceOf t 12).pending = true ∧ (∀ r ∈ t.offers, r.tag ≠ i.val) ∧ t.drains = s.drains ∧
      t.ways = s.ways ∧ t.log = s.log ∧ (∀ d, dom t d = dom s d) ∧ ∀ c, chan t c = chan s c := by
  refine ⟨_, exec_forwardedTimeout he hforwarded, ?_, ?_, ?_, fun p hp => ?_, ?_, ?_, ?_, fun d => ?_, fun c => ?_⟩
  · rw [finish_inFlight, raise_inFlight]
    exact tblGet_tblPut_same ..
  · have hdecides := completeEntry_decides e .timeout 0 (elapse (Config.writeTimeout - e.timer) s)
    simp only [Decided, finish_completions, raise_completions] at hdecides ⊢
    exact hdecides
  · rw [sourceOf_finish_pending]
    exact sourceOf_raise_self .downstreamTimeout _
  · rw [finish_offers, raise_offers] at hp
    exact bne_iff_ne.1 (List.mem_filter.1 hp).2
  · rw [finish_drains, raise_drains, timedOut_shape]
  · rw [finish_ways, raise_ways, timedOut_shape]
  · rw [finish_log, raise_log, timedOut_shape]
  · rw [dom_finish, dom_raise, timedOut_shape]
    rfl
  · rw [chan_finish, chan_raise, timedOut_shape]
    rfl

/-! ### A poisoning at a cached line (R54, R57) -/

theorem tblGet_isSome_of_mem {α : Type} {l : Table α} {p : Nat × α} (h : p ∈ l) : (tblGet l p.1).isSome = true := by
  induction l with
  | nil => cases h
  | cons q l ih =>
    unfold tblGet
    split
    · rfl
    next hne => exact ih (List.mem_of_ne_of_mem (fun heq => hne (congrArg Prod.fst heq).symm) h)

/-- A removed grant's index holds no entry any more, and no entry is new (R99). -/
theorem mem_dropGrant_grants {i : Nat} {p : Nat × Grant} (h : p ∈ (dropGrant i s).grants) :
    p ∈ s.grants ∧ p.1 ≠ i := by
  unfold dropGrant at h
  split at h
  next hnone =>
    refine ⟨h, fun hi => ?_⟩
    have hsome := tblGet_isSome_of_mem h
    rw [hi, show tblGet s.grants i = none from hnone] at hsome
    cases hsome
  next => exact ⟨mem_tblDel h, bne_iff_ne.1 (List.mem_filter.1 h).2⟩

/-- No entry names a granule whose grants have been removed (R54, step 2). -/
theorem granule_ne_of_mem_dropGrantsOf {g : Nat} {p : Nat × Grant} (h : p ∈ (dropGrantsOf g s).grants) :
    p.2.granule ≠ g := by
  have hfold : ∀ (l : List Nat) (u : State), p ∈ (l.foldl (fun u i => dropGrant i u) u).grants →
      p ∈ u.grants ∧ p.1 ∉ l := by
    intro l
    induction l with
    | nil => exact fun u hu => ⟨hu, List.not_mem_nil⟩
    | cons i l ih =>
      intro u hu
      obtain ⟨hmem, hnot⟩ := ih _ hu
      obtain ⟨hold, hne⟩ := mem_dropGrant_grants hmem
      exact ⟨hold, List.not_mem_cons_of_ne_of_not_mem hne hnot⟩
  obtain ⟨hold, hnot⟩ := hfold _ _ h
  intro hgranule
  exact hnot (List.mem_map.2 ⟨p, List.mem_filter.2 ⟨hold, by simpa using hgranule⟩, rfl⟩)

theorem dropGrantsOf_poisonList (g : Nat) (s : State) : (dropGrantsOf g s).poisonList = s.poisonList := by
  unfold dropGrantsOf
  induction (s.grants.filter (fun p => p.2.granule == g)).map (·.1) generalizing s with
  | nil => rfl
  | cons i l ih => rw [List.foldl_cons, ih, dropGrant_shape]

/-- With room in the list, or an entry of its own, a poisoned granule is listed with its owner (R57). -/
theorem listPoison_lists (g : Nat) (owner : Option Nat) (cause : PoisonCause) (h : s.poisonList.length < 16) :
    ∃ x ∈ (listPoison g owner cause s).poisonList, x.granule = g ∧ x.owner = owner := by
  unfold listPoison
  split
  next hlisted =>
    obtain ⟨x, hx, hgranule⟩ := List.any_eq_true.1 hlisted
    have hg : x.granule = g := by simpa using hgranule
    exact ⟨{ x with owner := owner }, List.mem_map.2 ⟨x, hx, if_pos hg⟩, hg, rfl⟩
  next =>
    rw [if_pos (show s.poisonList.length < Config.poisonEntries from h)]
    exact ⟨{ granule := g, owner := owner, cause := cause }, List.mem_append_right _ List.mem_cons_self, rfl, rfl⟩

theorem listPoison_grants (g : Nat) (owner : Option Nat) (cause : PoisonCause) (s : State) :
    (listPoison g owner cause s).grants = s.grants := by
  unfold listPoison
  split
  · rfl
  · split
    · rfl
    · exact enterCause_grants ..

/-- Tables that have poisoned a granule: no grant of it is left, and its entry stands in the list while there is
room (R54, steps 2 to 4). -/
theorem poisonTables_poisons (g : Nat) (owner : Option Nat) (cause : PoisonCause) (s : State) :
    (∀ p ∈ (poisonTables g owner cause s).grants, p.2.granule ≠ g) ∧
      (s.poisonList.length < 16 →
        ∃ x ∈ (poisonTables g owner cause s).poisonList, x.granule = g ∧ x.owner = owner) := by
  refine ⟨fun p hp => ?_, fun hroom => listPoison_lists g owner cause (by rwa [dropGrantsOf_poisonList])⟩
  rw [poisonTables, listPoison_grants] at hp
  exact granule_ne_of_mem_dropGrantsOf hp

/-! ### The orphan limit (R84) -/

theorem exec_orphanLimit (i : Fin 256) (s : State) :
    exec (.orphanLimit i) s = answerStep s (orphanLimit i.val s) := rfl

/-- A read's entry, one of UNFORMATTED traffic and one after a power warning are freed without more (R84, R202). -/
theorem exec_orphanLimit_frees {i : Fin 256} {e : InFlight} (he : tblGet s.inFlight i.val = some e)
    (horphaned : e.orphaned = true) (hlimit : e.limitReached = false)
    (hplain : e.write = false ∨ e.unformatted = true ∨ s.flush ≠ .none) : exec (.orphanLimit i) s =
      .next (finish (freeEntry i.val (elapse (Config.holdLimit - e.timer) s))) := by
  have hplain' : (!e.write || e.unformatted || warned (elapse (Config.holdLimit - e.timer) s)) = true := by
    have hwarned : warned (elapse (Config.holdLimit - e.timer) s) = (s.flush != .none) := rfl
    rw [hwarned]
    simpa [or_assoc] using hplain
  have hrow : orphanLimit i.val s = some (freeEntry i.val (elapse (Config.holdLimit - e.timer) s)) := by
    unfold orphanLimit
    rw [he]
    dsimp only
    rw [horphaned, hlimit, if_neg (by decide), if_pos hplain']
  rw [exec_orphanLimit, hrow]
  exact answerStep_some rfl

/-- The state in which an orphaned write's granule is poisoned: its entry has reached its limit (R84). -/
def atLimit (i : Nat) (e : InFlight) (s : State) : State :=
  let t := elapse (Config.holdLimit - e.timer) s
  { t with inFlight := tblPut t.inFlight i { e with timer := Config.holdLimit, limitReached := true } }

/-- The record, the tables and the entry once the granule of an orphaned write is poisoned (R54, R84). -/
def limitPoisoned (i : Nat) (e : InFlight) (rec : TagRecord) (s : State) : State :=
  freeEntry i (poisonTables e.granule rec.owner .orphanWrite
    (putRecord e.granule (poisonedRecord rec.owner) (atLimit i e s)))

theorem limitPoisoned_integrityOnly (i : Nat) (e : InFlight) (rec : TagRecord) (s : State) :
    IntegrityOnly (freeEntry i (putRecord e.granule (poisonedRecord rec.owner) (atLimit i e s)))
      (limitPoisoned i e rec s) := by
  have htables := integrityOnly_poisonTables e.granule rec.owner .orphanWrite
    (putRecord e.granule (poisonedRecord rec.owner) (atLimit i e s))
  exact congrArg (freeEntry i) htables

/-- What goes on, the channels, the ways and the requests produced stay where only the Integrity Checker works. -/
theorem IntegrityOnly.kept (h : IntegrityOnly s t) :
    SameRest s t ∧ t.channels = s.channels ∧ t.ways = s.ways ∧ t.produced = s.produced :=
  ⟨⟨(congrArg State.running h :), (congrArg State.requests h :), (congrArg State.warm h :),
    (congrArg State.flush h :), (congrArg State.poisonings h :)⟩, (congrArg State.channels h :),
    (congrArg State.ways h :), (congrArg State.produced h :)⟩

theorem sameRest_freeEntry (i : Nat) (s : State) : SameRest s (freeEntry i s) := ⟨rfl, rfl, rfl, rfl, rfl⟩

theorem sameRest_putRecord (g : Nat) (r : TagRecord) (s : State) : SameRest s (putRecord g r s) :=
  ⟨putRecord_running .., putRecord_requests .., putRecord_warm .., putRecord_flush .., putRecord_poisonings ..⟩

theorem sameRest_atLimit (i : Nat) (e : InFlight) (s : State) : SameRest s (atLimit i e s) :=
  ⟨rfl, rfl, rfl, rfl, rfl⟩

/-- The poisoning lets nothing else go on, produces nothing and moves no channel; only its record changes. -/
theorem limitPoisoned_kept (i : Nat) (e : InFlight) (rec : TagRecord) (s : State) :
    SameRest s (limitPoisoned i e rec s) ∧ (∀ c, chan (limitPoisoned i e rec s) c = chan s c) ∧
      (limitPoisoned i e rec s).ways = (putRecord e.granule (poisonedRecord rec.owner) (atLimit i e s)).ways ∧
      (limitPoisoned i e rec s).produced = s.produced := by
  obtain ⟨hrest, hchannels, hways, hproduced⟩ := (limitPoisoned_integrityOnly i e rec s).kept
  refine ⟨?_, fun c => ?_, ?_, ?_⟩
  · exact (((sameRest_atLimit i e s).trans (sameRest_putRecord ..)).trans (sameRest_freeEntry ..)).trans hrest
  · rw [chan, hchannels, freeEntry_channels, putRecord_channels]
    rfl
  · rw [hways, freeEntry_ways]
  · rw [hproduced, freeEntry_produced, putRecord_produced]
    rfl

theorem exec_orphanLimit_poisons {i : Fin 256} {e : InFlight} {rec : TagRecord}
    (he : tblGet s.inFlight i.val = some e) (horphaned : e.orphaned = true) (hlimit : e.limitReached = false)
    (hwrite : e.write = true) (hformatted : e.unformatted = false) (hflush : s.flush = .none) (hq : Quiet s)
    (hrec : recordAt s e.granule = some rec) :
    exec (.orphanLimit i) s = .next (finish (limitPoisoned i.val e rec s)) := by
  obtain ⟨hrest, hchan, -, hproduced⟩ := limitPoisoned_kept i.val e rec s
  have hplain : (!e.write || e.unformatted || warned (elapse (Config.holdLimit - e.timer) s)) = false := by
    have hwarned : warned (elapse (Config.holdLimit - e.timer) s) = (s.flush != .none) := rfl
    rw [hwarned, hwrite, hformatted, hflush]
    rfl
  have hat : recordAt (atLimit i.val e s) e.granule = some rec := hrec
  have horder : orderPoison e.granule .orphanWrite (.orphan i.val) (atLimit i.val e s) =
      limitPoisoned i.val e rec s := by
    unfold orderPoison
    rw [hat]
    dsimp only
    rw [poisonNow, hat]
    rfl
  have hrow : orphanLimit i.val s = some (limitPoisoned i.val e rec s) := by
    have hsettled : settle (limitPoisoned i.val e rec s) = limitPoisoned i.val e rec s :=
      settle_quiet (hq.congr (fun c _ => by rw [hchan]; exact .refl _) hrest)
    have htest : (!e.orphaned || e.limitReached) = false := by
      rw [horphaned, hlimit]
      rfl
    unfold orphanLimit
    rw [he]
    dsimp only
    rw [htest, if_neg Bool.false_ne_true, hplain, if_neg Bool.false_ne_true]
    exact congrArg some ((congrArg settle horder).trans hsettled)
  rw [exec_orphanLimit, hrow]
  exact answerStep_some hproduced

/-- The entry is freed, the record is POISONED with its owner kept, its grants are gone and it is listed (R54, R84). -/
theorem limitPoisoned_poisons (i : Nat) {e : InFlight} {rec : TagRecord} (hrec : recordAt s e.granule = some rec) :
    tblGet (limitPoisoned i e rec s).inFlight i = none ∧
      recordAt (limitPoisoned i e rec s) e.granule = some (poisonedRecord rec.owner) ∧
      (∀ p ∈ (limitPoisoned i e rec s).grants, p.2.granule ≠ e.granule) ∧
      (s.poisonList.length < 16 →
        ∃ x ∈ (limitPoisoned i e rec s).poisonList, x.granule = e.granule ∧ x.owner = rec.owner) := by
  have hat : recordAt (atLimit i e s) e.granule = some rec := hrec
  have hput := recordNow_putRecord (r' := poisonedRecord rec.owner) hat
  have htables := poisonTables_poisons e.granule rec.owner .orphanWrite
    (putRecord e.granule (poisonedRecord rec.owner) (atLimit i e s))
  obtain ⟨-, -, hways, -⟩ := limitPoisoned_kept i e rec s
  refine ⟨?_, ?_, ?_, fun hroom => ?_⟩
  · rw [limitPoisoned, tblGet_freeEntry, if_pos rfl]
  · rw [recordAt_congr hways]
    exact hput.1
  · rw [limitPoisoned, freeEntry_grants]
    exact htables.1
  · rw [limitPoisoned, freeEntry_poisonList]
    exact htables.2 (by rw [putRecord_poisonList]; exact hroom)

/-- Every row of the form has a next state. -/
theorem answerStep_next (s : State) (o : Option State) : ∃ t, answerStep s o = .next t := by
  cases o <;> exact ⟨_, rfl⟩

/-- Settles O27: the timeout's row, and the orphan limit's with and without a poisoning. -/
theorem forwardedTimeoutOrphansAndItsLimitPoisons : Obligations.ForwardedTimeoutOrphansAndItsLimitPoisons := by
  refine ⟨forwardedTimeout_orphans, fun i s e he horphaned hlimit => ?_⟩
  obtain ⟨t, ht⟩ := answerStep_next s (orphanLimit i.val s)
  refine ⟨t, ht, fun hplain => ?_, fun hwrite hformatted hflush hq rec hrec => ?_⟩
  · have hfreed := (exec_orphanLimit_frees he horphaned hlimit hplain).symm.trans ht
    cases hfreed
    refine ⟨?_, ?_, ?_, fun c => ?_⟩
    · rw [finish_inFlight, tblGet_freeEntry, if_pos rfl]
    · rw [finish_ways]
      rfl
    · rw [finish_poisonList]
      rfl
    · rw [chan_finish]
      rfl
  · have hmade := (exec_orphanLimit_poisons he horphaned hlimit hwrite hformatted hflush hq hrec).symm.trans ht
    cases hmade
    obtain ⟨hfreed, hrecord, hgrants, hlisted⟩ := limitPoisoned_poisons i.val hrec
    rw [finish_inFlight, recordAt_congr (finish_ways _), finish_grants, finish_poisonList]
    exact ⟨hfreed, hrecord, hgrants, hlisted⟩

end Sys2Proof.Machine
end

section
/-!
PROOFS. What no engine of the part changes: the transaction that holds the check stage, and the In-Flight Table but for
the entry that a made poisoning frees (R77, R80, R84).  One lemma per operation that goes on inside a step, in the order
of the model's files; those of the shared operations stand in Laws/State, Laws/Steps and Laws/Frames.
-/

namespace Sys2Proof.Machine
variable {s t : State}

/-- An operation forwards nothing and frees no entry: the check stage and the In-Flight Table stand. -/
abbrev KeepsFlight (f : State → State) : Prop := ∀ s, (f s).stage = s.stage ∧ (f s).inFlight = s.inFlight

theorem flight_foldl {α : Type} {f : State → α → State}
    (h : ∀ x s, (f s x).stage = s.stage ∧ (f s x).inFlight = s.inFlight) (l : List α) (s : State) :
    (l.foldl f s).stage = s.stage ∧ (l.foldl f s).inFlight = s.inFlight := by
  induction l generalizing s with
  | nil => exact ⟨rfl, rfl⟩
  | cons x l ih => exact ⟨(ih (f s x)).1.trans (h x s).1, (ih (f s x)).2.trans (h x s).2⟩

/-! ### Notices, violations and responses (Flags) -/

@[simp] theorem fenceTest_flight (d : Nat) : KeepsFlight (fenceTest d) := by
  intro s
  unfold fenceTest
  dsimp only
  split <;> simp

/-! ### The downstream port -/

@[simp] theorem keepJobs_flight (keep : OwnJob → Bool) : KeepsFlight (keepJobs keep) := by
  intro s
  simp [keepJobs]

/-! ### The Tag Cache and the Fill Table -/

@[simp] theorem dropGrantsOf_flight (g : Nat) : KeepsFlight (dropGrantsOf g) := by
  intro s
  simp [dropGrantsOf, flight_foldl]

@[simp] theorem listPoison_flight (g : Nat) (owner : Option Nat) (cause : PoisonCause) :
    KeepsFlight (listPoison g owner cause) := by
  intro s
  unfold listPoison
  (repeat' split) <;> simp

@[simp] theorem poisonTables_flight (g : Nat) (owner : Option Nat) (cause : PoisonCause) :
    KeepsFlight (poisonTables g owner cause) := by
  intro s
  simp [poisonTables]

@[simp] theorem poisonNow_flight (g : Nat) (cause : PoisonCause) : KeepsFlight (poisonNow g cause) := by
  intro s
  unfold poisonNow
  split <;> simp

@[simp] theorem unlistPoison_flight (g : Nat) : KeepsFlight (unlistPoison g) := by
  intro s
  simp [unlistPoison]

/-! ### Commands -/

@[simp] theorem idleSlot_flight (k : Nat) : KeepsFlight (idleSlot k) := by
  intro s
  unfold idleSlot
  dsimp only
  split <;> simp

theorem lookup_flight {g : Nat} {r : TagRecord} {t : State} (h : lookup g s = some (r, t)) :
    t.stage = s.stage ∧ t.inFlight = s.inFlight := by
  unfold lookup at h
  split at h <;> simp at h
  rw [← h.2]
  simp

@[simp] theorem withRecord_flight (c g : Nat) (k : TagRecord → State → State)
    (h : ∀ r s, (k r s).stage = s.stage ∧ (k r s).inFlight = s.inFlight) : KeepsFlight (withRecord c g k) := by
  intro s
  unfold withRecord
  split
  next hl => exact ⟨(h ..).1.trans (lookup_flight hl).1, (h ..).2.trans (lookup_flight hl).2⟩
  next => simp

/-! ### Scrub Units and poisonings -/

@[simp] theorem tryEndScrub_flight (c : Nat) : KeepsFlight (tryEndScrub c) := by
  intro s
  unfold tryEndScrub
  (repeat' split) <;> simp

@[simp] theorem setPoisonWait_flight (p : PendingPoison) (w : Wait) : KeepsFlight (setPoisonWait p w) := by
  intro s
  simp [setPoisonWait]

@[simp] theorem haltUnit_flight (u : Nat) : KeepsFlight (haltUnit u) := by
  intro s
  unfold haltUnit
  split <;> simp

@[simp] theorem settleUnit_flight (u : Nat) : KeepsFlight (settleUnit u) := by
  intro s
  unfold settleUnit
  dsimp only
  (repeat' split) <;> simp

@[simp] theorem haltUnitsOf_flight (c : Nat) : KeepsFlight (haltUnitsOf c) := by
  intro s
  simp [haltUnitsOf, flight_foldl]

/-! ### Granule operations -/

@[simp] theorem doAssign_flight (c : Nat) (b : Line) : KeepsFlight (doAssign c b) := by
  intro s
  unfold doAssign
  dsimp only
  (repeat' split) <;> simp

@[simp] theorem doRelease_flight (c : Nat) (b : Line) : KeepsFlight (doRelease c b) := by
  intro s
  unfold doRelease
  dsimp only
  (repeat' split) <;> simp

@[simp] theorem doRestore_flight (c : Nat) (b : Line) : KeepsFlight (doRestore c b) := by
  intro s
  unfold doRestore
  split <;> simp

@[simp] theorem doQueryGranules_flight (c : Nat) (b : Line) : KeepsFlight (doQueryGranules c b) := by
  intro s
  unfold doQueryGranules
  split <;> simp

@[simp] theorem revokeAllOf_flight (d : Nat) : KeepsFlight (revokeAllOf d) := by
  intro s
  simp [revokeAllOf]

@[simp] theorem beginClearance_flight (c d : Nat) : KeepsFlight (beginClearance c d) := by
  intro s
  simp [beginClearance, flight_foldl]

@[simp] theorem doRetire_flight (c : Nat) (b : Line) : KeepsFlight (doRetire c b) := by
  intro s
  unfold doRetire
  dsimp only
  (repeat' split) <;> simp

@[simp] theorem startGranuleDrain_flight (c g : Nat) : KeepsFlight (startGranuleDrain c g) := by
  intro s
  unfold startGranuleDrain
  dsimp only
  split <;> simp

@[simp] theorem nextGranule_flight (c : Nat) (w : Work) : KeepsFlight (nextGranule c w) := by
  intro s
  simp [nextGranule]

@[simp] theorem assignVisit_flight (c d g : Nat) (keep : Bool) (r : TagRecord) :
    KeepsFlight (assignVisit c d g keep r) := by
  intro s
  unfold assignVisit
  split <;> simp

@[simp] theorem releaseVisit_flight (c d g : Nat) (r : TagRecord) : KeepsFlight (releaseVisit c d g r) := by
  intro s
  unfold releaseVisit
  split <;> simp

@[simp] theorem restoreVisit_flight (c g : Nat) (r : TagRecord) : KeepsFlight (restoreVisit c g r) := by
  intro s
  unfold restoreVisit
  split <;> simp

@[simp] theorem dropRequestOf_flight (d : Nat) : KeepsFlight (dropRequestOf d) := by
  intro s
  unfold dropRequestOf
  dsimp only
  (repeat' split) <;> simp

@[simp] theorem retireComplete_flight (c : Nat) (r : RetireWork) (left : Nat) :
    KeepsFlight (retireComplete c r left) := by
  intro s
  simp [retireComplete]

@[simp] theorem retireWalk_flight (c : Nat) (r : RetireWork) : KeepsFlight (retireWalk c r) := by
  intro s
  simp [retireWalk]

@[simp] theorem retireOwned_flight (c : Nat) (r : RetireWork) (rec : TagRecord) :
    KeepsFlight (retireOwned c r rec) := by
  intro s
  unfold retireOwned
  dsimp only
  (repeat' split) <;> simp

@[simp] theorem retireVisit_flight (c : Nat) (r : RetireWork) (rec : TagRecord) :
    KeepsFlight (retireVisit c r rec) := by
  intro s
  unfold retireVisit
  split <;> simp

@[simp] theorem retireStep_flight (c : Nat) (r : RetireWork) : KeepsFlight (retireStep c r) := by
  intro s
  unfold retireStep
  (repeat' split) <;> simp

@[simp] theorem visitStep_flight (c : Nat) (a : Active) : KeepsFlight (visitStep c a) := by
  intro s
  unfold visitStep
  (repeat' split) <;> simp

@[simp] theorem notePoisoned_flight (c : Nat) (w : Work) (r : TagRecord) : KeepsFlight (notePoisoned c w r) := by
  intro s
  unfold notePoisoned
  (repeat' split) <;> simp

@[simp] theorem ownedDown_flight (d : Nat) : KeepsFlight (ownedDown d) := by
  intro s
  simp [ownedDown]

@[simp] theorem finishGranule_flight (c g : Nat) (w : Work) (r : TagRecord) :
    KeepsFlight (finishGranule c g w r) := by
  intro s
  unfold finishGranule
  (repeat' split) <;> simp

@[simp] theorem afterDrain_flight (c : Nat) (a : Active) (r : TagRecord) : KeepsFlight (afterDrain c a r) := by
  intro s
  unfold afterDrain
  dsimp only
  (repeat' split) <;> simp

@[simp] theorem afterZero_flight (c : Nat) (a : Active) (r : TagRecord) : KeepsFlight (afterZero c a r) := by
  intro s
  unfold afterZero
  dsimp only
  split <;> simp

@[simp] theorem undoRecord_flight (c g : Nat) (w : Work) (r : TagRecord) : KeepsFlight (undoRecord c g w r) := by
  intro s
  unfold undoRecord
  (repeat' split) <;> simp

@[simp] theorem undoStep_flight (c : Nat) (a : Active) : KeepsFlight (undoStep c a) := by
  intro s
  simp [undoStep]

@[simp] theorem pendingUndoStep_flight (c : Nat) (u : PendingUndo) : KeepsFlight (pendingUndoStep c u) := by
  intro s
  unfold pendingUndoStep
  split
  · simp [lookup_flight ‹lookup _ _ = _›]
  · split <;> simp

/-! ### Tracking -/

@[simp] theorem doTrackStart_flight (c : Nat) (b : Line) : KeepsFlight (doTrackStart c b) := by
  intro s
  unfold doTrackStart
  dsimp only
  (repeat' split) <;> simp

@[simp] theorem trackStartDone_flight (c k f n cleared : Nat) : KeepsFlight (trackStartDone c k f n cleared) := by
  intro s
  simp [trackStartDone]

@[simp] theorem trackStartRecord_flight (c k d f n done cleared : Nat) (r : TagRecord) :
    KeepsFlight (trackStartRecord c k d f n done cleared r) := by
  intro s
  unfold trackStartRecord
  dsimp only
  (repeat' split) <;> simp

@[simp] theorem trackStartStep_flight (c : Nat) (k d f n done cleared : Nat) :
    KeepsFlight (trackStartStep c k d f n done cleared) := by
  intro s
  unfold trackStartStep
  (repeat' split) <;> simp

@[simp] theorem doTrackCollect_flight (c : Nat) (b : Line) : KeepsFlight (doTrackCollect c b) := by
  intro s
  unfold doTrackCollect
  dsimp only
  (repeat' split) <;> simp

@[simp] theorem collectDone_flight (c : Nat) (k : CollectWork) : KeepsFlight (collectDone c k) := by
  intro s
  simp [collectDone]

@[simp] theorem startGroup_flight (c : Nat) (k : CollectWork) : KeepsFlight (startGroup c k) := by
  intro s
  simp [startGroup]

@[simp] theorem collectBuffer_flight (c : Nat) (k : CollectWork) (r : TagRecord) :
    KeepsFlight (collectBuffer c k r) := by
  intro s
  unfold collectBuffer
  dsimp only
  (repeat' split) <;> simp

@[simp] theorem collectRecord_flight (c : Nat) (k : CollectWork) (g : Nat) (r : TagRecord) :
    KeepsFlight (collectRecord c k g r) := by
  intro s
  unfold collectRecord
  dsimp only
  split <;> simp

@[simp] theorem harvestIssue_flight (c : Nat) : KeepsFlight (harvestIssue c) := by
  intro s
  simp [harvestIssue]

@[simp] theorem collectStep_flight (c : Nat) (k : CollectWork) : KeepsFlight (collectStep c k) := by
  intro s
  unfold collectStep
  (repeat' split) <;> simp

@[simp] theorem stopCollect_flight (c : Nat) (r : Result) : KeepsFlight (stopCollect c r) := by
  intro s
  unfold stopCollect
  dsimp only
  split <;> simp

@[simp] theorem releaseSlot_flight (k : Nat) : KeepsFlight (releaseSlot k) := by
  intro s
  unfold releaseSlot
  dsimp only
  split <;> simp

/-! ### Grants and guest requests -/

@[simp] theorem moveGrant_flight (i : Nat) (g : Grant) : KeepsFlight (moveGrant i g) := by
  intro s
  simp [moveGrant]

@[simp] theorem doRevokeGrant_flight (c : Nat) (b : Line) : KeepsFlight (doRevokeGrant c b) := by
  intro s
  unfold doRevokeGrant
  dsimp only
  (repeat' split) <;> simp

@[simp] theorem revokeDone_flight (c : Nat) (r : RevokeWork) (mine : Bool) : KeepsFlight (revokeDone c r mine) := by
  intro s
  simp [revokeDone]

@[simp] theorem revokeStep_flight (c : Nat) (r : RevokeWork) : KeepsFlight (revokeStep c r) := by
  intro s
  unfold revokeStep
  split <;> simp

@[simp] theorem retireRemoval_flight (c : Nat) (r : RetireWork) : KeepsFlight (retireRemoval c r) := by
  intro s
  unfold retireRemoval
  (repeat' split) <;> simp

@[simp] theorem setRevocation_flight (todo : List (Nat × Nat)) (drained : Bool) (w : Wait) :
    KeepsFlight (setRevocation todo drained w) := by
  intro s
  simp [setRevocation]

@[simp] theorem resumption_flight (w : WarmReset) : KeepsFlight (resumption w) := by
  intro s
  unfold resumption
  dsimp only
  rw [respond_stage, respond_inFlight]
  refine flight_foldl (fun c u => ?_) channelNumbers _
  (repeat' split) <;> simp

@[simp] theorem revocationStep_flight (w : WarmReset) (todo : List (Nat × Nat)) (done : Bool) :
    KeepsFlight (revocationStep w todo done) := by
  intro s
  unfold revocationStep
  dsimp only
  cases todo with
  | nil => simp
  | cons x rest =>
    dsimp only
    split
    · simp
    · split
      · split
        · simp [lookup_flight ‹lookup _ _ = _›]
        · simp
      · split <;> simp

@[simp] theorem withRequestRecord_flight (g : Nat) (k : TagRecord → State → State)
    (h : ∀ r s, (k r s).stage = s.stage ∧ (k r s).inFlight = s.inFlight) : KeepsFlight (withRequestRecord g k) := by
  intro s
  unfold withRequestRecord
  split
  next hl => exact ⟨(h ..).1.trans (lookup_flight hl).1, (h ..).2.trans (lookup_flight hl).2⟩
  next => simp

@[simp] theorem offerGrant_flight (i : Nat) (x : GuestRequest) (r : TagRecord) : KeepsFlight (offerGrant i x r) := by
  intro s
  simp [offerGrant]

@[simp] theorem offerStep_flight (x : GuestRequest) (r : TagRecord) : KeepsFlight (offerStep x r) := by
  intro s
  unfold offerStep
  (repeat' split) <;> simp

@[simp] theorem pinStep_flight (x : GuestRequest) (pinned : Bool) (r : TagRecord) :
    KeepsFlight (pinStep x pinned r) := by
  intro s
  unfold pinStep
  (repeat' split) <;> simp

@[simp] theorem queryStep_flight (x : GuestRequest) (r : TagRecord) : KeepsFlight (queryStep x r) := by
  intro s
  unfold queryStep
  (repeat' split) <;> simp

@[simp] theorem withdrawStart_flight (x : GuestRequest) : KeepsFlight (withdrawStart x) := by
  intro s
  unfold withdrawStart
  (repeat' split) <;> simp

@[simp] theorem withdrawRemoval_flight (i serial : Nat) : KeepsFlight (withdrawRemoval i serial) := by
  intro s
  unfold withdrawRemoval
  split <;> simp

@[simp] theorem requestStep_flight : KeepsFlight requestStep := by
  intro s
  unfold requestStep
  (repeat' split) <;> simp

@[simp] theorem startRequest_flight (x : GuestRequest) : KeepsFlight (startRequest x) := by
  intro s
  unfold startRequest
  split <;> simp

/-! ### FORMAT and FLUSH_TAGS -/

@[simp] theorem doFormat_flight (c : Nat) (b : Line) : KeepsFlight (doFormat c b) := by
  intro s
  unfold doFormat
  dsimp only
  (repeat' split) <;> simp

@[simp] theorem formatComplete_flight (c : Nat) : KeepsFlight (formatComplete c) := by
  intro s
  simp [formatComplete]

@[simp] theorem formatStep_flight (c : Nat) (a : Active) (base next : Nat) (lowest : Option Nat) :
    KeepsFlight (formatStep c a base next lowest) := by
  intro s
  unfold formatStep
  dsimp only
  (repeat' split) <;> simp [flight_foldl]

@[simp] theorem formatStop_flight (c : Nat) (r : Result) : KeepsFlight (formatStop c r) := by
  intro s
  unfold formatStop
  split <;> simp

@[simp] theorem doFlushTags_flight (c : Nat) (b : Line) : KeepsFlight (doFlushTags c b) := by
  intro s
  simp [doFlushTags]

@[simp] theorem flushStep_flight (c : Nat) (a : Active) (x : FlushWork) : KeepsFlight (flushStep c a x) := by
  intro s
  unfold flushStep
  dsimp only
  (repeat' split) <;> simp

@[simp] theorem inheritWrites_flight (lines : List Nat) (c : Nat) (s : State) :
    (inheritWrites lines s c).stage = s.stage ∧ (inheritWrites lines s c).inFlight = s.inFlight := by
  unfold inheritWrites
  split <;> simp

@[simp] theorem flushStop_flight (c : Nat) (r : Result) (x : FlushWork) : KeepsFlight (flushStop c r x) := by
  intro s
  simp [flushStop, flight_foldl]

/-! ### Control commands -/

@[simp] theorem doCreate_flight (c : Nat) (b : Line) : KeepsFlight (doCreate c b) := by
  intro s
  unfold doCreate
  dsimp only
  (repeat' split) <;> simp

@[simp] theorem moveDomain_flight (c : Nat) (b : Line) (old new : DState) (clear : Bool) :
    KeepsFlight (moveDomain c b old new clear) := by
  intro s
  unfold moveDomain
  dsimp only
  (repeat' split) <;> simp

@[simp] theorem doStart_flight (c : Nat) (b : Line) : KeepsFlight (doStart c b) := by
  intro s
  simp [doStart]

@[simp] theorem doPause_flight (c : Nat) (b : Line) : KeepsFlight (doPause c b) := by
  intro s
  simp [doPause]

@[simp] theorem doResume_flight (c : Nat) (b : Line) : KeepsFlight (doResume c b) := by
  intro s
  simp [doResume]

@[simp] theorem doUnfence_flight (c : Nat) (b : Line) : KeepsFlight (doUnfence c b) := by
  intro s
  simp [doUnfence]

@[simp] theorem doSetQuota_flight (c : Nat) (b : Line) : KeepsFlight (doSetQuota c b) := by
  intro s
  unfold doSetQuota
  dsimp only
  (repeat' split) <;> simp

@[simp] theorem doSetFence_flight (c : Nat) (b : Line) : KeepsFlight (doSetFence c b) := by
  intro s
  unfold doSetFence
  dsimp only
  (repeat' split) <;> simp

@[simp] theorem doClearDomainCounters_flight (c : Nat) (b : Line) : KeepsFlight (doClearDomainCounters c b) := by
  intro s
  unfold doClearDomainCounters
  dsimp only
  split <;> simp

@[simp] theorem doDomainStatus_flight (c : Nat) (b : Line) : KeepsFlight (doDomainStatus c b) := by
  intro s
  unfold doDomainStatus
  split <;> simp

@[simp] theorem doActivateGrant_flight (c : Nat) (b : Line) : KeepsFlight (doActivateGrant c b) := by
  intro s
  unfold doActivateGrant
  dsimp only
  (repeat' split) <;> simp

@[simp] theorem doGrantRead_flight (c : Nat) (b : Line) : KeepsFlight (doGrantRead c b) := by
  intro s
  unfold doGrantRead
  dsimp only
  (repeat' split) <;> simp

@[simp] theorem doTrackStop_flight (c : Nat) (b : Line) : KeepsFlight (doTrackStop c b) := by
  intro s
  unfold doTrackStop
  dsimp only
  (repeat' split) <;> simp

@[simp] theorem doTrackStatus_flight (c : Nat) (b : Line) : KeepsFlight (doTrackStatus c b) := by
  intro s
  unfold doTrackStatus
  split <;> simp

@[simp] theorem doViolationPop_flight (c : Nat) (b : Line) : KeepsFlight (doViolationPop c b) := by
  intro s
  unfold doViolationPop
  split <;> simp

@[simp] theorem doNoticeConfig_flight (c : Nat) (b : Line) : KeepsFlight (doNoticeConfig c b) := by
  intro s
  unfold doNoticeConfig
  dsimp only
  split <;> simp

@[simp] theorem doNoticeClear_flight (c : Nat) (b : Line) : KeepsFlight (doNoticeClear c b) := by
  intro s
  unfold doNoticeClear
  dsimp only
  (repeat' split) <;> simp [flight_foldl]

@[simp] theorem doNoticeStatus_flight (c : Nat) (b : Line) : KeepsFlight (doNoticeStatus c b) := by
  intro s
  simp [doNoticeStatus]

@[simp] theorem moveRegion_flight (c : Nat) (b : Line) (new : RegionState) : KeepsFlight (moveRegion c b new) := by
  intro s
  unfold moveRegion
  dsimp only
  (repeat' split) <;> simp

@[simp] theorem doRegionClear_flight (c : Nat) (b : Line) : KeepsFlight (doRegionClear c b) := by
  intro s
  simp [doRegionClear]

@[simp] theorem doRegionLockdown_flight (c : Nat) (b : Line) : KeepsFlight (doRegionLockdown c b) := by
  intro s
  simp [doRegionLockdown]

@[simp] theorem doFreeze_flight (c : Nat) (b : Line) : KeepsFlight (doFreeze c b) := by
  intro s
  simp [doFreeze]

@[simp] theorem doSetFaultPolicy_flight (c : Nat) (b : Line) : KeepsFlight (doSetFaultPolicy c b) := by
  intro s
  unfold doSetFaultPolicy
  dsimp only
  (repeat' split) <;> simp

@[simp] theorem doContain_flight (c : Nat) (b : Line) : KeepsFlight (doContain c b) := by
  intro s
  unfold doContain
  split <;> simp

@[simp] theorem doResumePart_flight (c : Nat) (b : Line) : KeepsFlight (doResumePart c b) := by
  intro s
  unfold doResumePart
  (repeat' split) <;> simp

@[simp] theorem doPartStatus_flight (c : Nat) (b : Line) : KeepsFlight (doPartStatus c b) := by
  intro s
  simp [doPartStatus]

@[simp] theorem doAckIntegrity_flight (c : Nat) (b : Line) : KeepsFlight (doAckIntegrity c b) := by
  intro s
  simp [doAckIntegrity]

@[simp] theorem doClearIntegrityCount_flight (c : Nat) (b : Line) : KeepsFlight (doClearIntegrityCount c b) := by
  intro s
  simp [doClearIntegrityCount]

@[simp] theorem doSetCorrectedLimit_flight (c : Nat) (b : Line) : KeepsFlight (doSetCorrectedLimit c b) := by
  intro s
  unfold doSetCorrectedLimit
  dsimp only
  (repeat' split) <;> simp

@[simp] theorem doPoisonRead_flight (c : Nat) (b : Line) : KeepsFlight (doPoisonRead c b) := by
  intro s
  unfold doPoisonRead
  dsimp only
  (repeat' split) <;> simp

@[simp] theorem stopCommand_flight (c : Nat) : KeepsFlight (stopCommand c) := by
  intro s
  unfold stopCommand
  (repeat' split) <;> simp

@[simp] theorem requestStop_flight (c : Nat) : KeepsFlight (requestStop c) := by
  intro s
  unfold requestStop
  dsimp only
  split <;> simp

@[simp] theorem doAbort_flight (c : Nat) (b : Line) : KeepsFlight (doAbort c b) := by
  intro s
  unfold doAbort
  dsimp only
  (repeat' split) <;> simp

@[simp] theorem doResetEngines_flight (c : Nat) (b : Line) : KeepsFlight (doResetEngines c b) := by
  intro s
  simp [doResetEngines, flight_foldl]

/-! ### The engine -/

@[simp] theorem doRegionSet_flight (c : Nat) (b : Line) : KeepsFlight (doRegionSet c b) := by
  intro s
  unfold doRegionSet
  dsimp only
  split <;> simp

@[simp] theorem regionVisit_flight (c i f n : Nat) (noAccess : Bool) (done : Nat) (r : TagRecord) :
    KeepsFlight (regionVisit c i f n noAccess done r) := by
  intro s
  unfold regionVisit
  (repeat' split) <;> simp

@[simp] theorem chanStep_flight (c : Nat) (a : Active) : KeepsFlight (chanStep c a) := by
  intro s
  unfold chanStep
  (repeat' split) <;> simp

@[simp] theorem runCommand_flight (cmd : Cmd) (c : Nat) (b : Line) : KeepsFlight (runCommand cmd c b) := by
  intro s
  unfold runCommand
  split <;> simp

@[simp] theorem takeCommand_flight (cmd : Cmd) (c : Nat) (b : Line) : KeepsFlight (takeCommand cmd c b) := by
  intro s
  unfold takeCommand
  dsimp only
  (repeat' split) <;> simp

@[simp] theorem retakeStep_flight (c : Nat) : KeepsFlight (retakeStep c) := by
  intro s
  unfold retakeStep
  (repeat' split) <;> simp

@[simp] theorem stepBegins_flight (c : Nat) (a : Active) : KeepsFlight (stepBegins c a) := by
  intro s
  unfold stepBegins
  split <;> simp

/-! ### The poisonings and the loop -/

/-- Nothing new is forwarded: the check stage stands, and every In-Flight entry was there before. -/
structure NothingForwarded (s t : State) : Prop where
  stage : t.stage = s.stage
  flight : ∀ x e, tblGet t.inFlight x = some e → tblGet s.inFlight x = some e

theorem NothingForwarded.of_kept (h : t.stage = s.stage ∧ t.inFlight = s.inFlight) : NothingForwarded s t :=
  ⟨h.1, fun x e he => by rwa [h.2] at he⟩

theorem NothingForwarded.trans {u : State} (h : NothingForwarded s t) (k : NothingForwarded t u) :
    NothingForwarded s u :=
  ⟨k.stage.trans h.stage, fun x e he => h.flight x e (k.flight x e he)⟩

theorem nothingForwarded_freeEntry (i : Nat) (s : State) : NothingForwarded s (freeEntry i s) := by
  refine ⟨freeEntry_stage .., fun x e he => ?_⟩
  have hdel : tblGet (tblDel s.inFlight i) x = some e := he
  rw [tblGet_tblDel] at hdel
  split at hdel
  · cases hdel
  · exact hdel

/-- A poisoning that has been made frees the entry of an orphan limit at most (R84, R127). -/
theorem nothingForwarded_poisonMade (src : PoisonSource) (s : State) : NothingForwarded s (poisonMade src s) := by
  cases src with
  | orphan i => exact nothingForwarded_freeEntry i s
  | scrub c =>
    refine .of_kept ?_
    unfold poisonMade
    dsimp only
    (repeat' split) <;> simp

theorem nothingForwarded_poisonStep (p : PendingPoison) (s : State) : NothingForwarded s (poisonStep p s) := by
  unfold poisonStep
  split
  next u hl =>
    obtain ⟨hstage, hflight⟩ := lookup_flight hl
    exact .trans (.of_kept (by simp [hstage, hflight])) (nothingForwarded_poisonMade ..)
  next =>
    refine .of_kept ?_
    split <;> simp

theorem nothingForwarded_runJob (j : Job) (s : State) : NothingForwarded s (runJob j s) := by
  cases j with
  | poison p => exact nothingForwarded_poisonStep p s
  | _ =>
    refine .of_kept ?_
    unfold runJob
    dsimp only
    (repeat' split) <;> simp

/-- Whatever goes on within a step forwards nothing: only the check and the held transaction's row do (R76, R77). -/
theorem nothingForwarded_settle (s : State) : NothingForwarded s (settle s) :=
  runLoop_keeps (fun u j hu _ => hu.trans (nothingForwarded_runJob j u)) _ (.of_kept ⟨rfl, rfl⟩)

end Sys2Proof.Machine
end

section
/-!
PROOFS. What guest traffic needs (R66 to R73, R76): a guest's check forwards by a permission of its cached record, in
an OPERATIONAL part, or forwards nothing; and the held transaction's row forwards what the stage held (R77): O35.
-/

namespace Sys2Proof.Machine
variable {s t u v old : State} {r : Request} {g : Nat}

/-! ### The check of a guest's request, from its last step to its first -/

theorem nothingForwarded_decideFor (r : Request) (status : Status) (data : Line) (s : State) :
    NothingForwarded s (decideFor r status data s) := .of_kept ⟨rfl, rfl⟩

theorem nothingForwarded_answer (r : Request) (status : Status) (s : State) :
    NothingForwarded s (answer r status s) := nothingForwarded_decideFor ..

/-- A violation is recorded before its answer (R74). -/
theorem nothingForwarded_answer_violate (r : Request) (status : Status) (d : Nat) (write : Bool) (address : Nat)
    (reason : Reason) (seen : Option TagRecord) (s : State) :
    NothingForwarded s (answer r status (violate d write address reason seen s)) :=
  .trans (.of_kept (by simp)) (nothingForwarded_answer ..)

theorem nothingForwarded_refuseLogged (r : Request) (reason : Reason) (seen : Option TagRecord) (status : Status)
    (s : State) : NothingForwarded s (refuseLogged r reason seen status s) := nothingForwarded_answer_violate ..

theorem nothingForwarded_refuseDuplicate (r : Request) (s : State) : NothingForwarded s (refuseDuplicate r s) :=
  .of_kept ⟨rfl, rfl⟩

/-- The end of a row issues what it produced and places what waits, and forwards nothing. -/
theorem nothingForwarded_rowEnd (old s : State) : NothingForwarded s (finish (issueProduced old s)) :=
  .of_kept (by simp)

/-- A guest request that is taken lets the part's engines run, which forward nothing (R138). -/
theorem nothingForwarded_takeGuestRequest (x : GuestRequest) (s : State) :
    NothingForwarded s (takeGuestRequest x s) := by
  refine .trans (.of_kept ?_) (nothingForwarded_settle _)
  simp

theorem nothingForwarded_guestWrite (r : Request) (s : State) : NothingForwarded s (guestWrite r s) := by
  unfold guestWrite
  dsimp only
  split
  · exact nothingForwarded_answer ..
  · exact (nothingForwarded_takeGuestRequest _ s).trans (nothingForwarded_decideFor ..)

theorem nothingForwarded_guestLine (r : Request) (s : State) : NothingForwarded s (guestLine r s) := by
  unfold guestLine
  split
  case h_5 =>
    split
    case h_1 => exact nothingForwarded_answer_violate ..
    case h_7 =>
      split
      · exact nothingForwarded_decideFor ..
      · exact nothingForwarded_guestWrite ..
    all_goals exact nothingForwarded_answer ..
  all_goals exact nothingForwarded_answer ..

/-- A verdict without a reason is a permission (R72, R73). -/
theorem permits_of_recordVerdict {rec : TagRecord} (h : recordVerdict r g rec u = none) : Permits r g rec u := by
  cases hs : rec.state with
  | gOpen => exact .inl ⟨hs, by simpa [recordVerdict, hs] using h⟩
  | gPrivate =>
    by_cases hown : r.domain ≠ 0 ∧ rec.owner = some r.domain.val
    · exact .inr (.inl ⟨hs, hown⟩)
    rw [recordVerdict_private hs hown, ite_eq_iff] at h
    obtain ⟨-, h⟩ | ⟨hcount, h⟩ := h
    · cases h
    split at h
    · cases h
    next k e hgrant =>
      cases he : e.state with
      | active => exact .inr (.inr ⟨hs, hcount, k, e, hgrant, he, by simpa [he, or_iff_not_imp_left] using h⟩)
      | _ => simp [he] at h
  | _ => simp [recordVerdict, hs] at h

/-- Step 9 forwards by a permission of the cached record alone: a refusal is answered, a miss waits (R71). -/
theorem checkRecordStep_forwards (r : Request) (g : Nat) (u : State) : NothingForwarded u (checkRecordStep r g u) ∨
    ∃ rec, recordAt u g = some rec ∧ Permits r g rec u := by
  cases hrec : recordAt u g with
  | none =>
    refine .inl (.of_kept ?_)
    rw [checkRecordStep, lookup_miss hrec]
    simp
  | some rec =>
    obtain ⟨l, hl⟩ := checkRecordStep_hit (r := r) hrec
    cases hverdict : recordVerdict r g rec u with
    | none => exact .inr ⟨rec, rfl, permits_of_recordVerdict hverdict⟩
    | some reason =>
      have hsame : recordVerdict r g rec { u with lru := l } = some reason := hverdict
      have hrefused := nothingForwarded_refuseLogged r reason (some rec)
        (if reason = .poisoned then .poisoned else .blocked) { u with lru := l }
      refine .inl ?_
      rw [hl, decideByRecord, hsame]
      exact ⟨hrefused.stage, hrefused.flight⟩

/-- The steps of the granule let no guest pass in the tag region or in a region (R69, R70). -/
theorem checkGranule_forwards (hguest : r.domain ≠ 0) (u : State) : NothingForwarded u (checkGranule r g u) ∨
    inTagRegion u g = false ∧ coveringRegion u g = none ∧ ∃ rec, recordAt u g = some rec ∧ Permits r g rec u := by
  unfold checkGranule
  split
  · exact .inl (nothingForwarded_refuseLogged ..)
  next htag =>
    split
    next hregion => exact (checkRecordStep_forwards r g u).imp_right (⟨by simpa using htag, hregion, ·⟩)
    next =>
      rw [if_neg (fun h => hguest h.1)]
      exact .inl (nothingForwarded_refuseLogged ..)

/-- The domain's step lets a guest pass that is RUNNING (R68). -/
theorem checkDomain_forwards (hguest : r.domain ≠ 0) (hroot : (dom u r.domain.val).state ≠ .root) :
    NothingForwarded u (checkDomain r g u) ∨
      (dom u r.domain.val).state = .running ∧ inTagRegion u g = false ∧ coveringRegion u g = none ∧
        ∃ rec, recordAt u g = some rec ∧ Permits r g rec u := by
  unfold checkDomain
  rw [if_neg hguest]
  split
  case h_1 hrunning => exact (checkGranule_forwards hguest u).imp_right (⟨hrunning, ·⟩)
  case h_2 => exact .inl (nothingForwarded_refuseLogged ..)
  case h_7 h => exact absurd h hroot
  all_goals exact .inl (nothingForwarded_answer ..)

/-- The steps of the mode let a guest pass in an OPERATIONAL part alone (R66, R67). -/
theorem checkGoverned_forwards (hguest : r.domain ≠ 0) (hroot : (dom u r.domain.val).state ≠ .root) :
    NothingForwarded u (checkGoverned r g u) ∨
      u.mode = .operational ∧ (dom u r.domain.val).state = .running ∧ inTagRegion u g = false ∧
        coveringRegion u g = none ∧ ∃ rec, recordAt u g = some rec ∧ Permits r g rec u := by
  unfold checkGoverned
  split
  case h_1 => exact .inl (nothingForwarded_answer ..)
  case h_2 | h_4 =>
    rw [if_neg hguest]
    exact .inl (nothingForwarded_answer ..)
  case h_3 =>
    rw [if_pos hguest]
    exact .inl (nothingForwarded_answer ..)
  case h_5 hmode => exact (checkDomain_forwards hguest hroot).imp_right (⟨hmode, ·⟩)

/-- A guest's check forwards by a permission at step 9 of an OPERATIONAL part, or it forwards nothing (R64). -/
theorem check_forwards (hguest : r.domain ≠ 0) (hroot : (dom u r.domain.val).state ≠ .root) :
    NothingForwarded u (check r u) ∨ ∃ g rec, u.mode = .operational ∧ ReachesStepNine r g u ∧
      recordAt u g = some rec ∧ Permits r g rec u := by
  cases hclass : classify u r.address with
  | aperture offset =>
    refine .inl ?_
    rw [check_aperture hclass, checkAperture, if_neg hguest]
    (repeat' split)
    · exact nothingForwarded_answer ..
    · exact nothingForwarded_guestLine ..
    · exact nothingForwarded_refuseLogged ..
  | outside =>
    refine .inl ?_
    rw [check, hclass]
    dsimp only
    split <;> exact nothingForwarded_answer ..
  | governed g =>
    rw [check_governed hclass]
    refine (checkGoverned_forwards (g := g) hguest hroot).imp_right ?_
    rintro ⟨hmode, hrunning, htag, hregion, rec, hrec, hpermits⟩
    exact ⟨g, rec, hmode, ⟨hclass, .inl hmode, .inr hrunning, htag, hregion⟩, hrec, hpermits⟩

/-! ### What the words of the statement say of a permission and of what was forwarded -/

/-- A record permits a guest as its owner's, or by an ACTIVE grant that covers the access (R72, R73). -/
theorem Permits.guest {rec : TagRecord} (h : Permits r g rec u) (hguest : r.domain ≠ 0) : rec.state = .gPrivate ∧
    (rec.owner = some r.domain.val ∨ ∃ k e, grantFor u g r.domain.val = some (k, e) ∧ e.state = .active ∧
      (r.kind = .read ∨ e.readWrite = true)) := by
  obtain ⟨-, hroot⟩ | ⟨hstate, -, howner⟩ | ⟨hstate, -, hgrant⟩ := h
  · exact absurd hroot hguest
  · exact ⟨hstate, .inl howner⟩
  · exact ⟨hstate, .inr hgrant⟩

/-- Where no region covers the granule, it lies in none that is SET or LOCKED_DOWN (R70). -/
theorem not_covered_of_coveringRegion (h : coveringRegion s g = none) {k : Nat} (hk : k < 8)
    (hset : (regionOf s k).state = .set ∨ (regionOf s k).state = .lockedDown) :
    ¬((regionOf s k).first ≤ g ∧ g < (regionOf s k).first + (regionOf s k).count) := by
  have hmem : regionOf s k ∈ (List.range Config.regionEntries).map (regionOf s) :=
    List.mem_map_of_mem (List.mem_range.2 hk)
  have hnot := List.find?_eq_none.1 h _ hmem
  rcases hset with hset | hset <;> simpa [hset] using hnot

/-- What is new in the table after a forwarding is the request's entry (R80). -/
theorem Forwarded.new_entry {b : Bool} {x : Nat} {e : InFlight} (h : Forwarded r g b u t)
    (he : tblGet t.inFlight x = some e) (hnew : tblGet u.inFlight x ≠ some e) : e = entryFor r g b := by
  obtain ⟨-, -, h⟩ := h
  split at h
  next i hi =>
    obtain ⟨hentry, hother, -, -⟩ := h
    by_cases hx : x = i
    · subst hx
      exact Option.some.inj (he.symm.trans hentry)
    · exact absurd (hother x hx ▸ he) hnew
  next => exact absurd (h.1 ▸ he) hnew

/-- What a forwarding puts into the free check stage is the request (R77). -/
theorem Forwarded.new_stage {b : Bool} (h : Forwarded r g b u t) (hnone : u.stage = none) (hnew : t.stage ≠ u.stage) :
    t.stage = some { request := r, granule := g, unformatted := b } := by
  obtain ⟨-, -, h⟩ := h
  split at h
  next => exact absurd (h.2.2.2.trans hnone.symm) hnew
  next => exact h.2.2

theorem NothingForwarded.not_new (h : NothingForwarded s t) :
    ¬((∃ x e, tblGet t.inFlight x = some e ∧ tblGet s.inFlight x ≠ some e) ∨ t.stage ≠ s.stage) := by
  rintro (⟨x, e, he, hnew⟩ | hnew)
  · exact hnew (h.flight x e he)
  · exact hnew h.stage

/-- A row that checks a guest's request and puts something new in the table or the stage has forwarded it (R76). -/
theorem checked_forwards (hguest : r.domain ≠ 0) (hroot : (dom u r.domain.val).state ≠ .root) (hstage : u.stage = none)
    (hp : u.produced = old.produced) (ht : t = finish (issueProduced old (check r u)))
    (hnew : (∃ x e, tblGet t.inFlight x = some e ∧ tblGet u.inFlight x ≠ some e) ∨ t.stage ≠ u.stage) :
    ∃ g rec, u.mode = .operational ∧ ReachesStepNine r g u ∧ recordAt u g = some rec ∧ Permits r g rec u ∧
      Forwarded r g false u t := by
  obtain hnothing | ⟨g, rec, hmode, hreaches, hrec, hpermits⟩ := check_forwards hguest hroot
  · refine absurd hnew (NothingForwarded.not_new ?_)
    rw [ht]
    exact hnothing.trans (nothingForwarded_rowEnd ..)
  · obtain ⟨l, hl⟩ := checkRecordStep_hit (r := r) hrec
    refine ⟨g, rec, hmode, hreaches, hrec, hpermits, ?_⟩
    rw [ht, check_reachesStepNine hreaches, hl]
    exact (decideByRecord_permits rfl hpermits hstage hp).1

/-! ### The rows -/

/-- No waiter is presented while a transaction holds the stage (R50, R77). -/
theorem exec_presentReleasedWaiter_waits (h : s.stage ≠ none) : exec .presentReleasedWaiter s = .next s := by
  have hwaits : presentReleased s = none := by
    unfold presentReleased
    split
    next hnone _ => exact absurd hnone h
    next => rfl
  show answerStep s (presentReleased s) = _
  rw [hwaits]
  rfl

theorem exec_heldTransactionForward_waits (h : s.stage = none ∨ freeInFlight s = none) :
    exec .heldTransactionForward s = .next s := by
  have hwaits : heldForward s = none := by
    rcases h with h | h <;> simp [heldForward, h]
  show answerStep s (heldForward s) = _
  rw [hwaits]
  rfl

/-- The two rows that check: nothing is forwarded, or the request is checked on what then stands (R3, R50). -/
theorem exec_checks {i : Instr} (hrow : i = .requestTaken r ∨
      (i = .presentReleasedWaiter ∧ ∃ m, s.missQueue.find? (·.released) = some m ∧ m.request = r))
    (hexec : exec i s = .next t) : NothingForwarded s t ∨
      s.stage = none ∧ ∃ tags queue, t = finish (issueProduced s
        (check r { s with tagsInUse := tags, missQueue := queue })) := by
  obtain rfl | ⟨rfl, m, hm, rfl⟩ := hrow
  · by_cases htakes : PortTakes s
    · by_cases hdup : r.tag.val ∈ s.tagsInUse
      · have hrefused : offerRequest r s = some (refuseDuplicate r s) := by
          simp [offerRequest, (accepts_iff s).2 htakes, takeRequest, hdup]
        rw [exec_requestTaken, hrefused] at hexec
        cases hexec
        exact .inl ((nothingForwarded_refuseDuplicate r s).trans (nothingForwarded_rowEnd ..))
      · rw [exec_requestTaken_arrives ⟨htakes, hdup⟩] at hexec
        cases hexec
        exact .inr ⟨htakes.2.1, s.tagsInUse ++ [r.tag.val], s.missQueue, rfl⟩
    · have hwaits : offerRequest r s = none := by simp [offerRequest, (accepts_iff s).not.2 htakes]
      rw [exec_requestTaken, hwaits] at hexec
      cases hexec
      exact .inl (.of_kept ⟨rfl, rfl⟩)
  · by_cases hstage : s.stage = none
    · rw [exec_presentReleasedWaiter hstage hm] at hexec
      cases hexec
      exact .inr ⟨hstage, s.tagsInUse, s.missQueue.erase m, rfl⟩
    · rw [exec_presentReleasedWaiter_waits hstage] at hexec
      cases hexec
      exact .inl (.of_kept ⟨rfl, rfl⟩)

/-- The held transaction's row forwards what the stage held, under the lowest free index, or does nothing (R77). -/
theorem exec_heldTransactionForward_cases (hexec : exec .heldTransactionForward s = .next t) : t = s ∨
    ∃ x i, s.stage = some x ∧ tblGet s.inFlight i = none ∧ t.stage = none ∧
      t.inFlight = tblPut s.inFlight i (entryFor x.request x.granule x.unformatted) ∧
      t.offers = s.offers ++ [offerFor x.request i] := by
  cases hstage : s.stage with
  | none =>
    rw [exec_heldTransactionForward_waits (.inl hstage)] at hexec
    cases hexec
    exact .inl rfl
  | some x =>
    cases hfree : tblFree 256 s.inFlight with
    | none =>
      rw [exec_heldTransactionForward_waits (.inr hfree)] at hexec
      cases hexec
      exact .inl rfl
    | some i =>
      rw [exec_heldTransactionForward hstage hfree] at hexec
      cases hexec
      refine .inr ⟨x, i, rfl, tblFree_isNone hfree, ?_, ?_, ?_⟩
      · simp [mapDrains, allocate]
      · simp [mapDrains, allocate, entryFor]
      · simp [mapDrains, allocate, offerFor, lineOf, lineAddress]

/-- Settles O35: the two rows that check a guest's request, and the row of the held transaction. -/
theorem guestTrafficNeedsOwnershipOrAnActiveGrant : Obligations.GuestTrafficNeedsOwnershipOrAnActiveGrant := by
  refine ⟨fun i r s t hroot hguest hrow hexec hnew => ?_, fun s t hexec => ?_⟩
  · obtain hnothing | ⟨hstage, tags, queue, ht⟩ := exec_checks hrow hexec
    · exact absurd hnew hnothing.not_new
    have hrunner : (dom s r.domain.val).state ≠ .root := hroot _ (fun h => hguest (Fin.ext h))
    obtain ⟨g, rec, hmode, ⟨hclass, -, hrunning, htag, hregion⟩, hrec, hpermits, hforwarded⟩ :=
      checked_forwards (u := { s with tagsInUse := tags, missQueue := queue }) hguest hrunner hstage rfl ht hnew
    obtain ⟨hstate, hright⟩ := hpermits.guest hguest
    exact ⟨g, rec, hclass, hmode, hrunning.resolve_left hguest, htag,
      fun k hk hset => not_covered_of_coveringRegion hregion hk hset, hrec, hstate, hright,
      fun x e he hx => hforwarded.new_entry he hx, fun hne => hforwarded.new_stage hstage hne⟩
  · obtain rfl | ⟨x, i, hstage, hfree, hnone, hentries, hoffers⟩ := exec_heldTransactionForward_cases hexec
    · exact ⟨.inl rfl, fun x e he hne => absurd he hne, fun p hp => .inl hp⟩
    refine ⟨.inr hnone, fun k e he hne => ⟨hnone, x, hstage, ?_⟩, fun p hp => ?_⟩
    · rw [hentries, tblGet_tblPut] at he
      split at he
      · exact (Option.some.inj he).symm
      · exact absurd he hne
    · rw [hoffers, List.mem_append, List.mem_singleton] at hp
      exact hp.imp_right (fun h => ⟨x, i, hstage, hfree, h⟩)

end Sys2Proof.Machine
end

section
/-!
PROOFS. The domain commands (R91 to R96): what each writes in the Domain Table and what it answers: O1 to O4.
-/

namespace Sys2Proof.Machine
variable {s : State} {cmd : Cmd} {c : Nat} {b : Line}

/-! ### Control commands that write one Domain Table entry -/

/-- A control command has been answered, and of the rest of the part the entry of one domain alone has changed. -/
def AnsweredWithEntry (c : Nat) (b : Line) (r : Result) (p : Report) (d : Nat) (e : Domain) (s t : State) : Prop :=
  Answered c b r p s t ∧ NoticesKept c s t ∧ DomainNow d e s t ∧ Untouched s { t with domains := s.domains }

/-- What a state owes to its Domain Table once it has responded and its step has ended. -/
theorem domainNow_of_domains {d : Nat} {e : Domain} {t : State} (h : t.domains = (setDom d e s).domains) :
    DomainNow d e s t := by
  have hdom : ∀ x, dom t x = dom (setDom d e s) x := dom_congr h
  exact ⟨by rw [hdom, dom_setDom_same], fun x hx => by rw [hdom, dom_setDom, if_neg hx]⟩

/-- A control command that writes one domain's entry and responds ends its row so (R170). -/
theorem exists_answeredWithEntry {d : Nat} {e : Domain} {r : Result} {p : Report} (h : TakesControl cmd c b s)
    (hrun : runCommand cmd c b (dequeue c s) = respond c b r p (setDom d e (dequeue c s))) :
    ∃ t, answerStep s (takeControl cmd c s) = .next t ∧ AnsweredWithEntry c b r p d e s t := by
  refine ⟨_, answerStep_takeControl h (by rw [hrun]; simp), ?_⟩
  rw [hrun]
  refine ⟨answered_of_respond h.head fun _ => rfl, noticesKept_respond fun n _ => sourceOf_dequeue s c n,
    domainNow_of_domains ?_, ?_⟩
  · rw [finish_domains, respond_domains, setDom, dequeue_domains]
    rfl
  · unfold Untouched
    simp

/-! ### CREATE (R91) -/

theorem create_refused (hb : wordA b = 0 ∨ 511 < wordA b ∨ granuleCount s < wordB b ∨ 15 < wordC b) :
    runCommand .create c b (dequeue c s) = respond c b .parameter {} (dequeue c s) := by
  simp only [runCommand, doCreate, granuleCount_dequeue, if_pos hb]

theorem create_inUse (hb : ¬(wordA b = 0 ∨ 511 < wordA b ∨ granuleCount s < wordB b ∨ 15 < wordC b))
    (hfree : (dom s (wordA b)).state ≠ .free) :
    runCommand .create c b (dequeue c s) = respond c b .domainInUse {} (dequeue c s) := by
  simp only [runCommand, doCreate, granuleCount_dequeue, dom_dequeue, if_neg hb, if_pos hfree]

theorem create_prepares (hb : ¬(wordA b = 0 ∨ 511 < wordA b ∨ granuleCount s < wordB b ∨ 15 < wordC b))
    (hfree : ¬(dom s (wordA b)).state ≠ .free) :
    runCommand .create c b (dequeue c s) =
      respond c b .done { w0 := 1 }
        (setDom (wordA b)
          { dom s (wordA b) with
            state := .preparing, quota := wordB b, threshold := wordC b, violations := 0, firstAddress := none }
          (dequeue c s)) := by
  simp only [runCommand, doCreate, granuleCount_dequeue, dom_dequeue, if_neg hb, if_neg hfree, dstateCode]

/-- Settles O1: the two refusals in their order, and the entry that is prepared. -/
theorem createBringsAFreeDomainIntoUse : Obligations.CreateBringsAFreeDomainIntoUse := by
  intro c b s h
  split
  next hb => exact exists_onlyAnswered h (create_refused hb)
  next hb =>
    split
    next hfree => exact exists_onlyAnswered h (create_inUse hb hfree)
    next hfree => exact exists_answeredWithEntry h (create_prepares hb hfree)

/-! ### START, PAUSE, RESUME and UNFENCE (R92) -/

/-- The four commands that move a domain from one state to the next, each with the two states and whether it clears
the counter. -/
def domainMoves : List (Cmd × DState × DState × Bool) :=
  [(.start, .preparing, .running, false), (.pause, .running, .paused, false), (.resume, .paused, .running, false),
    (.unfence, .fenced, .paused, true)]

/-- Each of the four is a control row and one move. -/
theorem domainMoves_row {old new : DState} {clears : Bool} (hm : (cmd, old, new, clears) ∈ domainMoves) (c : Fin 4)
    (b : Line) (s : State) :
    exec (rowOf cmd c) s = answerStep s (takeControl cmd c.val s) ∧
      ∀ u, runCommand cmd c.val b u = moveDomain c.val b old new clears u := by
  simp only [domainMoves, List.mem_cons, Prod.mk.injEq, List.not_mem_nil, or_false] at hm
  obtain ⟨rfl, rfl, rfl, rfl⟩ | ⟨rfl, rfl, rfl, rfl⟩ | ⟨rfl, rfl, rfl, rfl⟩ | ⟨rfl, rfl, rfl, rfl⟩ := hm <;>
    exact ⟨rfl, fun _ => rfl⟩

/-- The entry of a domain that has moved to another state. -/
def movedEntry (e : Domain) (new : DState) (clears : Bool) : Domain :=
  { e with
    state := new
    violations := if clears then 0 else e.violations
    firstAddress := if clears then none else e.firstAddress }

theorem moveDomain_moves {old new : DState} {clears : Bool} (hb : ¬511 < wordA b)
    (hold : ¬(wordA b = 0 ∨ (dom s (wordA b)).state ≠ old)) :
    moveDomain c b old new clears (dequeue c s) =
      respond c b .done { w0 := dstateCode old, w1 := dstateCode new }
        (setDom (wordA b) (movedEntry (dom s (wordA b)) new clears) (dequeue c s)) := by
  simp only [moveDomain, dom_dequeue, if_neg hb, if_neg hold]
  cases clears <;> rfl

/-- Settles O2: each of the four commands is one move, which is refused or made. -/
theorem domainCommandsMoveOneState : Obligations.DomainCommandsMoveOneState := by
  intro c b s cmd old new clears hm h
  obtain ⟨hrow, hrun⟩ := domainMoves_row hm c b s
  rw [hrow]
  split
  next hb => exact exists_onlyAnswered h (by rw [hrun, moveDomain, if_pos hb])
  next hb =>
    split
    next hold =>
      exact exists_onlyAnswered h (by rw [hrun]; simp only [moveDomain, dom_dequeue, if_neg hb, if_pos hold])
    next hold => exact exists_answeredWithEntry h ((hrun _).trans (moveDomain_moves hb hold))

/-! ### SET_QUOTA and SET_FENCE (R93, R94, R101) -/

/-- The states in which the two commands are refused are the three of R93 and R94. -/
theorem not_releasable_iff (x : DState) : (!releasable x) = true ↔ x = .free ∨ x = .retiring ∨ x = .root := by
  cases x <;> decide

theorem setQuota_sets (hb : ¬(511 < wordA b ∨ granuleCount s < wordB b))
    (hst : ¬(!releasable (dom s (wordA b)).state) = true) :
    runCommand .setQuota c b (dequeue c s) =
      respond c b .done { w0 := (dom s (wordA b)).quota, w1 := (dom s (wordA b)).owned }
        (setDom (wordA b) { dom s (wordA b) with quota := wordB b } (dequeue c s)) := by
  simp only [runCommand, doSetQuota, granuleCount_dequeue, dom_dequeue, if_neg hb, if_neg hst]

theorem setQuota_effect (h : TakesControl .setQuota c b s) :
    ∃ t, answerStep s (takeControl .setQuota c s) = .next t ∧
      if 511 < wordA b ∨ granuleCount s < wordB b then OnlyAnswered c b .parameter {} s t
      else if (dom s (wordA b)).state = .free ∨ (dom s (wordA b)).state = .retiring ∨
          (dom s (wordA b)).state = .root then OnlyAnswered c b .domainState {} s t
      else AnsweredWithEntry c b .done { w0 := (dom s (wordA b)).quota, w1 := (dom s (wordA b)).owned } (wordA b)
        { dom s (wordA b) with quota := wordB b } s t := by
  split
  next hb =>
    exact exists_onlyAnswered h (by simp only [runCommand, doSetQuota, granuleCount_dequeue, if_pos hb])
  next hb =>
    split
    next hst =>
      rw [← not_releasable_iff] at hst
      exact exists_onlyAnswered h
        (by simp only [runCommand, doSetQuota, granuleCount_dequeue, dom_dequeue, if_neg hb, if_pos hst])
    next hst =>
      rw [← not_releasable_iff] at hst
      exact exists_answeredWithEntry h (setQuota_sets hb hst)

/-- SET_FENCE past its tests writes the threshold and makes the fencing test (R94). -/
theorem setFence_tests (hb : ¬(511 < wordA b ∨ 15 < wordB b))
    (hst : ¬(!releasable (dom s (wordA b)).state) = true) :
    runCommand .setFence c b (dequeue c s) =
      respond c b .done
        { w0 := (dom s (wordA b)).threshold, w1 := boolBit (fences { dom s (wordA b) with threshold := wordB b }) }
        (fenceTest (wordA b) (setDom (wordA b) { dom s (wordA b) with threshold := wordB b } (dequeue c s))) := by
  simp only [runCommand, doSetFence, dom_dequeue, if_neg hb, if_neg hst]

/-- Of the states that SET_FENCE accepts, all but FENCED are fenced by a threshold that the counter meets (R101). -/
theorem fences_iff {e : Domain} (hst : ¬(!releasable e.state) = true) (n : Nat) :
    fences { e with threshold := n } = true ↔ n ≠ 0 ∧ e.state ≠ .fenced ∧ n ≤ e.violations := by
  obtain ⟨state, quota, owned, violations, threshold, firstAddress, given, held, slot, retireActive⟩ := e
  cases state <;> simp [fences, releasable, assignable] at hst ⊢

theorem fenceTest_setDom_fences {d : Nat} {e : Domain} {u : State} (he : fences e = true) :
    fenceTest d (setDom d e u) = raise .domainFenced (setDom d { e with state := .fenced } (setDom d e u)) := by
  simp only [fenceTest, dom_setDom_same, if_pos he]

theorem fenceTest_setDom_passes {d : Nat} {e : Domain} {u : State} (he : ¬fences e = true) :
    fenceTest d (setDom d e u) = setDom d e u := by
  simp only [fenceTest, dom_setDom_same, if_neg he]

/-- The later of two writes of an entry stands. -/
theorem dom_setDom_setDom (d x : Nat) (e e' : Domain) (u : State) :
    dom (setDom d e' (setDom d e u)) x = dom (setDom d e' u) x := by
  rw [dom_setDom, dom_setDom, dom_setDom]
  split <;> rfl

/-- A command that writes an entry, fences its domain and responds: DOMAIN_FENCED is raised beside CHANNEL_DONE
(R101, R170). -/
theorem exists_answeredFenced {d : Nat} {e e' : Domain} {r : Result} {p : Report} (h : TakesControl cmd c b s)
    (hrun : runCommand cmd c b (dequeue c s) =
      respond c b r p (raise .domainFenced (setDom d e' (setDom d e (dequeue c s))))) :
    ∃ t, answerStep s (takeControl cmd c s) = .next t ∧ Answered c b r p s t ∧ DomainNow d e' s t ∧
      (sourceOf t 2).pending = true ∧
      (∀ n, n ≠ 2 → n ≠ 7 + c → (sourceOf t n).pending = (sourceOf s n).pending) ∧
      Untouched s { t with domains := s.domains } := by
  refine ⟨_, answerStep_takeControl h (by rw [hrun]; simp), ?_⟩
  rw [hrun]
  have hdom : ∀ x, dom (finish (respond c b r p (raise .domainFenced (setDom d e' (setDom d e (dequeue c s)))))) x =
      if x = d then e' else dom s x := fun x => by
    rw [dom_finish, dom_respond, dom_raise, dom_setDom_setDom, dom_setDom, dom_dequeue]
  refine ⟨answered_of_respond h.head fun x => by rw [chan_raise]; rfl,
    ⟨by rw [hdom, if_pos rfl], fun x hx => by rw [hdom, if_neg hx]⟩, ?_, fun n h2 h7 => ?_, ?_⟩
  · have hn : (2 : Nat) ≠ 7 + c := by omega
    rw [sourceOf_finish_pending, sourceOf_respond_ne _ _ _ _ _ hn]
    exact sourceOf_raise_same _ .domainFenced
  · rw [sourceOf_finish_pending, sourceOf_respond_ne _ _ _ _ _ h7, sourceOf_raise_ne _ .domainFenced h2]
    exact congrArg Source.pending (sourceOf_dequeue s c n)
  · unfold Untouched
    simp

theorem setFence_effect (h : TakesControl .setFence c b s) :
    ∃ t, answerStep s (takeControl .setFence c s) = .next t ∧
      if 511 < wordA b ∨ 15 < wordB b then OnlyAnswered c b .parameter {} s t
      else if (dom s (wordA b)).state = .free ∨ (dom s (wordA b)).state = .retiring ∨
          (dom s (wordA b)).state = .root then OnlyAnswered c b .domainState {} s t
      else if wordB b ≠ 0 ∧ (dom s (wordA b)).state ≠ .fenced ∧ wordB b ≤ (dom s (wordA b)).violations then
        Answered c b .done { w0 := (dom s (wordA b)).threshold, w1 := 1 } s t ∧
          DomainNow (wordA b) { dom s (wordA b) with threshold := wordB b, state := .fenced } s t ∧
          (sourceOf t 2).pending = true ∧
          (∀ n, n ≠ 2 → n ≠ 7 + c → (sourceOf t n).pending = (sourceOf s n).pending) ∧
          Untouched s { t with domains := s.domains }
      else AnsweredWithEntry c b .done { w0 := (dom s (wordA b)).threshold, w1 := 0 } (wordA b)
        { dom s (wordA b) with threshold := wordB b } s t := by
  split
  next hb => exact exists_onlyAnswered h (by simp only [runCommand, doSetFence, if_pos hb])
  next hb =>
    split
    next hst =>
      rw [← not_releasable_iff] at hst
      exact exists_onlyAnswered h (by simp only [runCommand, doSetFence, dom_dequeue, if_neg hb, if_pos hst])
    next hst =>
      rw [← not_releasable_iff] at hst
      have hrun := setFence_tests (c := c) hb hst
      split
      next hmeets =>
        rw [← fences_iff hst] at hmeets
        rw [fenceTest_setDom_fences hmeets, hmeets] at hrun
        exact exists_answeredFenced h hrun
      next hmeets =>
        rw [← fences_iff hst] at hmeets
        rw [fenceTest_setDom_passes hmeets, Bool.eq_false_of_not_eq_true hmeets] at hrun
        exact exists_answeredWithEntry h hrun

/-- Settles O3: the refusals of both commands, the quota, and the threshold with its fencing test. -/
theorem setQuotaAndSetFenceChangeOneField : Obligations.SetQuotaAndSetFenceChangeOneField :=
  ⟨fun _ _ _ h => setQuota_effect h, fun _ _ _ h => setFence_effect h⟩

/-! ### CLEAR_DOMAIN_COUNTERS and DOMAIN_STATUS (R95, R96) -/

theorem clearDomainCounters_clears (hb : ¬511 < wordA b) :
    runCommand .clearDomainCounters c b (dequeue c s) =
      respond c b .done
        { w0 := (dom s (wordA b)).violations, w1 := (dom s (wordA b)).firstAddress.getD (2 ^ 64 - 1) }
        (setDom (wordA b) { dom s (wordA b) with violations := 0, firstAddress := none } (dequeue c s)) := by
  simp only [runCommand, doClearDomainCounters, dom_dequeue, if_neg hb, optField_word]

theorem dstateCode_lt (x : DState) : dstateCode x < 2 ^ 8 := by cases x <;> decide

/-- An optional value in one byte of a value word (R181). -/
theorem optField_byte (x : Option Nat) : optField 1 x = x.getD 255 := rfl

/-- The words of DOMAIN_STATUS, whose fields that are codes fit their byte (R96, R181). -/
theorem domainReport_eq (e : Domain) : domainReport e =
    { w0 := dstateCode e.state + 2 ^ 8 * boolBit e.retireActive + 2 ^ 16 * (e.violations % 2 ^ 8) +
        2 ^ 24 * (e.threshold % 2 ^ 8)
      w1 := e.quota
      w2 := e.owned
      w3 := e.given % 2 ^ 16 + 2 ^ 16 * (e.held % 2 ^ 16) + 2 ^ 32 * (e.slot.getD 255 % 2 ^ 8)
      w4 := e.firstAddress.getD (2 ^ 64 - 1) } := by
  have hstate := dstateCode_lt e.state
  have hretire := boolBit_lt e.retireActive
  unfold domainReport
  simp only [packFields, optField_byte, optField_word]
  congr 1 <;> omega

/-- Settles O4: the one command clears what it answers, the other answers the entry as it stands. -/
theorem domainCountersAreClearedAndStatusReadsTheEntry :
    Obligations.DomainCountersAreClearedAndStatusReadsTheEntry := by
  refine ⟨fun c b s h => ?_, fun c b s h => ?_⟩
  · split
    next hb => exact exists_onlyAnswered h (by simp only [runCommand, doClearDomainCounters, if_pos hb])
    next hb => exact exists_answeredWithEntry h (clearDomainCounters_clears hb)
  · split
    next hb => exact exists_onlyAnswered h (by simp only [runCommand, doDomainStatus, if_pos hb])
    next hb =>
      rw [← domainReport_eq]
      exact exists_onlyAnswered h (by simp only [runCommand, doDomainStatus, dom_dequeue, if_neg hb])

end Sys2Proof.Machine
end

section
/-!
PROOFS. RETIRE (R103 to R109, R128): its start, the removal of its collected grants, its visit of a granule and its
end, in the steps in which nothing keeps it waiting: O57.
-/

namespace Sys2Proof.Machine
variable {s u v : State} {c : Nat} {b : Line} {a : Active} {r : RetireWork}

/-! ### The rows of RETIRE -/

theorem exec_retire (c : Fin 4) (s : State) : exec (.retire c) s = answerStep s (takeRun .retire c.val s) := rfl

theorem exec_retireClearanceDrainsDone (c : Fin 4) (s : State) :
    exec (.retireClearanceDrainsDone c) s = answerStep s (clearanceDrained c.val s) := rfl

theorem exec_retireClaimReleased (c : Fin 4) (s : State) :
    exec (.retireClaimReleased c) s = answerStep s (claimReleased c.val s) := rfl

/-- A row that comes to rest without having produced a request ends with what the ports offer next. -/
theorem rowEnd_of_comesTo {n : Nat} (h : ComesTo n u v) (hn : n ≤ 100) (hp : v.produced = s.produced) :
    finish (issueProduced s (settle u)) = finish v := by
  rw [settle_to h hn, issueProduced_same v hp]

/-! ### A command that stands at its channel -/

/-- In u channel c is as `ch` but for its active command, which is a; every other channel and what goes on outside the
channels is as in s. -/
structure Stands (c : Nat) (ch : Channel) (a : Active) (s u : State) : Prop where
  chan : ∀ x, chan u x = if x = c then { ch with active := some a } else chan s x
  rest : SameRest s u

/-- A channel at which no other command and no undo waits and that is not to take again. -/
def NothingWaits (ch : Channel) : Prop :=
  ch.control = [] ∧ ch.work = [] ∧ ch.undo = none ∧ ch.retake = false

section
variable {ch : Channel}

theorem Stands.self (h : Stands c ch a s u) : Machine.chan u c = { ch with active := some a } := by
  rw [h.chan, if_pos rfl]

theorem Stands.other (h : Stands c ch a s u) {x : Nat} (hx : x ≠ c) : Machine.chan u x = Machine.chan s x := by
  rw [h.chan, if_neg hx]

theorem Stands.at (h : Stands c ch a s u) (hch : NothingWaits ch) : At c a s u := by
  obtain ⟨hcontrol, hwork, hundo, hretake⟩ := hch
  exact ⟨by rw [h.self], by rw [h.self]; exact hcontrol, by rw [h.self]; exact hwork, by rw [h.self]; exact hundo,
    by rw [h.self]; exact hretake, fun x hx => h.other hx, h.rest⟩

/-- A change of other tables leaves the command as it stands. -/
theorem Stands.congr (h : Stands c ch a s u) (hch : v.channels = u.channels) (hr : SameRest u v) :
    Stands c ch a s v :=
  ⟨fun x => (show Machine.chan v x = Machine.chan u x by rw [Machine.chan, hch]; rfl).trans (h.chan x), h.rest.trans hr⟩

theorem Stands.mapActive (h : Stands c ch a s u) (f : Active → Active) :
    Stands c ch (f a) s (mapActive c f u) := by
  refine ⟨fun x => ?_, h.rest.trans ⟨rfl, rfl, rfl, rfl, rfl⟩⟩
  rw [chan_mapActive, h.self]
  split
  · rfl
  next hx => exact h.other hx

theorem Stands.goPhase (h : Stands c ch a s u) (p : Phase) (w : Wait) :
    Stands c ch { a with phase := p, wait := w } s (goPhase c p w u) :=
  h.mapActive fun a => { a with phase := p, wait := w }

theorem Stands.goWait (h : Stands c ch a s u) (w : Wait) : Stands c ch { a with wait := w } s (goWait c w u) :=
  h.mapActive fun a => { a with wait := w }

theorem Stands.goWork (h : Stands c ch a s u) (w : Work) : Stands c ch { a with work := w } s (goWork c w u) :=
  h.mapActive fun a => { a with work := w }

theorem Stands.setClaim (h : Stands c ch a s u) (g : Option Nat) :
    Stands c { ch with claim := g } a s (setClaim c g u) := by
  refine ⟨fun x => ?_, h.rest.trans ⟨rfl, rfl, rfl, rfl, rfl⟩⟩
  rw [chan_setClaim, h.self]
  split
  · rfl
  next hx => exact h.other hx

theorem Stands.touch (h : Stands c ch a s u) (k : Nat) : Stands c ch a s (touch k u) :=
  h.congr rfl ⟨rfl, rfl, rfl, rfl, rfl⟩

theorem Stands.putRecord (h : Stands c ch a s u) (g : Nat) (rec : TagRecord) :
    Stands c ch a s (putRecord g rec u) :=
  h.congr (by simp) ⟨by simp, by simp, by simp, by simp, by simp⟩

theorem Stands.removeGrant (h : Stands c ch a s u) (i : Nat) (g : Grant) (rec : TagRecord) :
    Stands c ch a s (removeGrant i g rec u) :=
  h.congr (by simp) ⟨by simp, by simp, by simp, by simp, by simp⟩

/-- The chain that begins with the command's next step. -/
theorem Stands.step {n : Nat} (h : Stands c ch a s u) (hq : Quiet s) (hc : c < 4) (hch : NothingWaits ch)
    (hwait : a.wait = .running) (hstep : ComesTo n (chanStep c a u) v) : ComesTo (n + 1) u v :=
  (h.at hch).step hq hc hwait hstep

/-- The command as it stands at the end of its step, outside its channel's claim as it was (R170). -/
theorem Stands.goesOn {claim : Option Nat} (h : Stands c { Machine.chan s c with claim := claim } a s u) :
    GoesOn c a claim s (finish u) :=
  ⟨by rw [chan_finish, h.self], fun x hx => by rw [chan_finish, h.other hx]⟩

end

theorem Runs.stands (h : Runs c a s) : Stands c (chan s c) a s s := by
  refine ⟨fun x => ?_, .refl s⟩
  split
  next hx => rw [hx, ← h.active]
  · rfl

theorem Runs.nothingWaits (h : Runs c a s) (hc : c < 4) : NothingWaits (chan s c) := by
  have hat := h.at hc
  exact ⟨hat.control, hat.work, hat.undo, hat.retake⟩

theorem Runs.warm (h : Runs c a s) : s.warm = none := by
  obtain ⟨-, -, -, -, -, hwarm, -⟩ := h
  exact hwarm

/-- The channel of a work command right after it has been taken (R168). -/
def takenChannel (ch : Channel) : Channel := { ch with work := [], stop := false, reserved := ch.reserved + 1 }

theorem StartsWork.nothingWaits {cmd : Cmd} (h : StartsWork cmd c b s) (hc : c < 4) :
    NothingWaits (takenChannel (chan s c)) :=
  ⟨h.control, rfl, h.undo, h.quiet.retake hc⟩

/-- A work command that is taken and activated stands at its channel, whatever else has changed with it. -/
theorem StartsWork.stands {cmd : Cmd} (h : StartsWork cmd c b s) (hch : u.channels = (dequeue c s).channels)
    (hr : SameRest s u) (w : Work) (p : Phase) (x : Wait) :
    Stands c (takenChannel (chan s c)) { block := b, work := w, phase := p, wait := x, ending := none } s
      (activate c b w p x u) := by
  refine ⟨chan_started_with h hch w p x, hr.trans ⟨?_, ?_, ?_, ?_, ?_⟩⟩ <;> simp

theorem Stands.starts {w : Work} {p : Phase} {x : Wait}
    (h : Stands c (takenChannel (Machine.chan s c)) { block := b, work := w, phase := p, wait := x, ending := none } s u) :
    Starts c b w p x (Machine.chan s c).claim s (finish u) :=
  ⟨by rw [chan_finish, h.self]; rfl, fun x hx => by rw [chan_finish, h.other hx]⟩

/-- The command with block b of channel c, which was otherwise as `ch`, has ended with its response (R170). -/
def Completed (c : Nat) (ch : Channel) (b : Line) (res : Result) (p : Report) (s t : State) : Prop :=
  chan t c = { ch with
    active := none, stop := false, claim := none, reserved := ch.reserved - 1
    ready := ch.ready ++ [mkResponse b c res p] } ∧
    OtherChannels c s t ∧ (sourceOf t (7 + c)).pending = true

theorem StartsWork.endsAtOnce_of_completed {cmd : Cmd} {res : Result} {p : Report} {t : State}
    (h : StartsWork cmd c b s) (ht : Completed c (takenChannel (chan s c)) b res p s t) :
    EndsAtOnce c b res p s t := by
  obtain ⟨hself, hrest⟩ := ht
  refine ⟨hself.trans ?_, hrest⟩
  simp [takenChannel, ← h.active]

/-- A command that stands at its channel has ended in one step more once it is completed (R168, R170). -/
theorem Stands.completes {ch : Channel} {res : Result} {p : Report} (h : Stands c ch a s u) (hq : Quiet s) (hc : c < 4)
    (hch : NothingWaits ch) (hwarm : s.warm = none) :
    ∃ ch', ComesTo 1 (completeWork c res p u) (setChan c ch' (completeWork c res p u)) ∧
      Completed c ch a.block res p s (finish (setChan c ch' (completeWork c res p u))) := by
  have hat := h.at hch
  have hwarm' : u.warm = none := h.rest.warm.trans hwarm
  obtain ⟨-, -, -, hretake⟩ := hch
  refine ⟨_, comesTo_completed hq hc hat.active hwarm' res p hat.control hat.work hat.undo
    (fun x hx => by rw [h.other hx]; exact .refl _) h.rest, ?_, fun x hx => ?_, ?_⟩
  · rw [chan_finish, chan_setChan_same, chan_completeWork hat.active hwarm', if_pos rfl, h.self]
    simp [← hretake]
  · rw [chan_finish, chan_setChan, if_neg hx, chan_completeWork hat.active hwarm', if_neg hx, h.other hx]
  · rw [sourceOf_finish_pending, sourceOf_setChan]
    exact (sourceOf_completeWork hat.active hwarm' res p).1

/-! ### The end of RETIRE (R109) -/

/-- The domain's entry is FREE and its last-result record is of kind NONE. -/
def retired (d : Nat) (s : State) : State := setResult d LastResult.reset (setDom d Domain.reset s)

theorem dropRequestOf_none {d : Nat} (h : ∀ q ∈ u.requests, q.requester ≠ d) :
    dropRequestOf d u = setResult d LastResult.reset u := by
  have hkeep : u.requests.filter (fun q => q.requester != d) = u.requests :=
    List.filter_eq_self.2 fun q hq => by simpa using h q hq
  unfold dropRequestOf
  dsimp only
  rw [hkeep, if_neg]
  cases hreq : u.requests with
  | nil => simp
  | cons q l => simp [h q (by simp [hreq])]

/-- The response of a RETIRE whose domain owns nothing more (R109). -/
def retireReport (r : RetireWork) : Report :=
  { finished := r.released, next := r.walk.after, w0 := r.removed, w1 := r.slotReleased.getD (2 ^ 64 - 1)
    w2 := r.ownedAtWalk }

/-- RETIRE between its visits completes where its domain owns no granule and has no request queued (R106, R109). -/
theorem chanStep_retire_completes (hwork : a.work = .retire r) (hphase : a.phase = .visit)
    (howned : (dom u r.domain).owned = 0) (hreq : ∀ q ∈ u.requests, q.requester ≠ r.domain) :
    chanStep c a u = completeWork c .done (retireReport r) (retired r.domain u) := by
  rw [chanStep, hphase]
  dsimp only
  rw [hwork]
  dsimp only
  rw [visitStep, hwork]
  dsimp only
  rw [retireStep, if_pos howned, retireComplete, dropRequestOf_none (u := setDom r.domain Domain.reset u) hreq]
  rfl

theorem Stands.retired {ch : Channel} (h : Stands c ch a s u) (d : Nat) : Stands c ch a s (retired d u) :=
  h.congr rfl ⟨rfl, rfl, rfl, rfl, rfl⟩

/-- From u to v the domain's entry has become FREE and its last-result record has been cleared; the other domains, the
grants, the records and the requests are as they were. -/
structure Freed (d : Nat) (u v : State) : Prop where
  entry    : dom v d = Domain.reset
  domains  : ∀ x, x ≠ d → dom v x = dom u x
  result   : resultOf v d = LastResult.reset
  results  : ∀ x, x ≠ d → resultOf v x = resultOf u x
  requests : v.requests = u.requests
  ways     : v.ways = u.ways
  grants   : v.grants = u.grants

theorem freed_completed (d : Nat) (ch : Channel) (res : Result) (p : Report) :
    Freed d u (finish (setChan c ch (completeWork c res p (retired d u)))) := by
  refine ⟨?_, fun x hx => ?_, ?_, fun x hx => ?_, ?_, ?_, ?_⟩
  · simp [retired]
  · simp [retired, dom_setDom, hx]
  · simp [retired]
  · simp [retired, resultOf_setResult, hx]
  all_goals simp [retired]

theorem Freed.domainNow {d : Nat} (h : Freed d u v) (hdom : ∀ x, x ≠ d → dom u x = dom s x) :
    DomainNow d Domain.reset s v :=
  ⟨h.entry, fun x hx => (h.domains x hx).trans (hdom x hx)⟩

/-- The start may be replaced by any other with the same tables. -/
theorem Freed.congr {w : State} {d : Nat} (h : Freed d u v) (hd : u.domains = w.domains) (hr : u.results = w.results)
    (hq : u.requests = w.requests) (hw : u.ways = w.ways) (hg : u.grants = w.grants) : Freed d w v :=
  ⟨h.entry, fun x hx => (h.domains x hx).trans (dom_congr hd x), h.result,
    fun x hx => (h.results x hx).trans (by rw [resultOf, resultOf, hr]), h.requests.trans hq, h.ways.trans hw,
    h.grants.trans hg⟩

/-- A RETIRE that stands between its visits with nothing left to its domain ends in its step. -/
theorem Stands.retire_ends {ch : Channel} (h : Stands c ch a s u) (hq : Quiet s) (hc : c < 4) (hch : NothingWaits ch)
    (hwarm : s.warm = none) (hwork : a.work = .retire r) (hphase : a.phase = .visit) (hwait : a.wait = .running)
    (howned : (dom u r.domain).owned = 0) (hreq : ∀ q ∈ s.requests, q.requester ≠ r.domain) :
    ∃ v, ComesTo 2 u v ∧ v.produced = u.produced ∧ Completed c ch a.block .done (retireReport r) s (finish v) ∧
      Freed r.domain u (finish v) := by
  obtain ⟨ch', hcome, hdone⟩ := (h.retired r.domain).completes (res := .done) (p := retireReport r) hq hc hch hwarm
  refine ⟨_, h.step hq hc hch hwait ?_, by simp [Machine.retired], hdone, freed_completed _ _ _ _⟩
  rw [chanStep_retire_completes hwork hphase howned (by rw [h.rest.requests]; exact hreq)]
  exact hcome

/-! ### RETIRE's removals (R105, R106) -/

theorem chanStep_removal (hwork : a.work = .retire r) (hphase : a.phase = .removal) :
    chanStep c a u = retireRemoval c r u := by
  rw [chanStep, hphase]
  dsimp only
  rw [hwork]

/-- With no collected entry left and no slot to release, RETIRE begins its walk (R106). -/
theorem retireRemoval_walks (hcol : r.collected = []) (hslot : (dom u r.domain).slot = none) :
    retireRemoval c r u = retireWalk c r u := by
  rw [retireRemoval, hcol]
  dsimp only
  rw [hslot]

theorem Stands.retireWalk {ch : Channel} (h : Stands c ch a s u) (r : RetireWork) :
    Stands c ch
      { a with
        work := .retire { r with collected := [], ownedAtWalk := (dom u r.domain).owned }
        phase := .visit, wait := .running } s (retireWalk c r u) :=
  (h.goWork (.retire { r with collected := [], ownedAtWalk := (dom u r.domain).owned })).goPhase .visit .running

/-- A RETIRE past its removals with nothing left to its domain ends in its step (R106, R109). -/
theorem Stands.retire_walks_and_ends {ch : Channel} (h : Stands c ch a s u) (hq : Quiet s) (hc : c < 4)
    (hch : NothingWaits ch) (hwarm : s.warm = none) (hwork : a.work = .retire r) (hphase : a.phase = .removal)
    (hwait : a.wait = .running) (hcol : r.collected = []) (hslot : (dom u r.domain).slot = none)
    (howned : (dom u r.domain).owned = 0) (hreq : ∀ q ∈ s.requests, q.requester ≠ r.domain) :
    ∃ v, ComesTo 3 u v ∧ v.produced = u.produced ∧
      Completed c ch a.block .done (retireReport { r with ownedAtWalk := 0 }) s (finish v) ∧
      Freed r.domain u (finish v) := by
  obtain ⟨v, hcome, hproduced, hdone, hfreed⟩ := (h.retireWalk r).retire_ends hq hc hch hwarm rfl rfl rfl howned hreq
  rw [howned] at hdone
  refine ⟨v, h.step hq hc hch hwait ?_, hproduced, hdone, hfreed.congr rfl rfl rfl rfl rfl⟩
  rw [chanStep_removal hwork hphase, retireRemoval_walks hcol hslot]
  exact hcome

/-- A collected entry that still stands is removed at its cached line (R105, R136). -/
theorem retireRemoval_removes {i : Nat} {g : Grant} {rec : TagRecord} (hcol : r.collected = [(i, g.serial)])
    (hg : grantAt u i = some g) (hrec : recordAt u g.granule = some rec) :
    ∃ k, retireRemoval c r u =
      goPhase c .removal .running
        (goWork c (.retire { r with collected := [], removed := r.removed + 1 }) (removeGrant i g rec (touch k u))) := by
  have hentry : entryIs u i g.serial = some g := by simp [entryIs, hg]
  rw [retireRemoval, hcol]
  dsimp only
  rw [hentry]
  exact withRecord_hit hrec

/-! ### RETIRE's start (R103 to R105) -/

/-- A collected grant entry becomes REVOKING (R104). -/
def revokedGrant (d : Nat) (g : Grant) : Grant :=
  if g.owner = d ∨ g.grantee = d then { g with state := .revoking } else g

theorem revokeAllOf_eq (d : Nat) (u : State) :
    revokeAllOf d u = { u with grants := u.grants.map (fun p => (p.1, revokedGrant d p.2)) } := by
  have hentry : ∀ p : Nat × Grant, (if (p.2.owner == d || p.2.grantee == d) = true
      then (p.1, { p.2 with state := GrantState.revoking }) else p) = (p.1, revokedGrant d p.2) := fun p => by
    rw [revokedGrant]
    by_cases hp : p.2.owner = d ∨ p.2.grantee = d <;> simp [hp]
  simp only [revokeAllOf, hentry]

@[simp] theorem revokedGrant_granule (d : Nat) (g : Grant) : (revokedGrant d g).granule = g.granule := by
  unfold revokedGrant; split <;> rfl

@[simp] theorem revokedGrant_owner (d : Nat) (g : Grant) : (revokedGrant d g).owner = g.owner := by
  unfold revokedGrant; split <;> rfl

@[simp] theorem revokedGrant_grantee (d : Nat) (g : Grant) : (revokedGrant d g).grantee = g.grantee := by
  unfold revokedGrant; split <;> rfl

/-- Drains that begin one after the other for one user count what each would count alone. -/
theorem foldl_beginDrain {α : Type} (x : DrainUser) (key : α → DrainKey) (l : List α) (u : State) :
    l.foldl (fun s p => beginDrain x (key p) s) u =
      { u with drains := u.drains ++
          (l.map (fun p => counting x (keyMatches (key p)) u)).filter (fun d => !d.members.isEmpty || d.held) } := by
  induction l generalizing u with
  | nil => simp
  | cons p l ih =>
    rw [List.foldl_cons, ih, beginDrain_shape, beginDrain_drains, List.map_cons,
      ← List.singleton_append (l := l.map _), List.filter_append, List.append_assoc]
    rfl

/-- RETIRE's clearance begins the drains that have something to wait for (R85, R105). -/
theorem beginClearance_eq (c d : Nat) (u : State) :
    beginClearance c d u = { u with drains := u.drains ++ clearanceDrains c d u } := by
  rw [beginClearance, foldl_beginDrain, beginDrain_shape, beginDrain_drains, clearanceDrains,
    ← List.singleton_append (l := List.map _ _), List.filter_append, List.append_assoc]
  rfl

/-- What the drains count does not depend on the state of a grant. -/
theorem clearanceDrains_congr {d : Nat} (hf : u.inFlight = s.inFlight) (hs : u.stage = s.stage)
    (hg : u.grants = s.grants.map (fun p => (p.1, revokedGrant d p.2))) :
    clearanceDrains c d u = clearanceDrains c d s := by
  have hcount : ∀ x picks, counting x picks u = counting x picks s := fun x picks => by
    rw [counting, hf, hs]
    rfl
  simp only [clearanceDrains, hcount, hg, List.filter_map, List.map_map, Function.comp_def, revokedGrant_owner,
    revokedGrant_granule, revokedGrant_grantee]

theorem user_of_mem_clearanceDrains {d : Nat} {x : Drain} (h : x ∈ clearanceDrains c d s) : x.user = .clearance c := by
  obtain ⟨hx, -⟩ := List.mem_filter.1 h
  rw [List.mem_cons, List.mem_map] at hx
  obtain rfl | ⟨p, -, rfl⟩ := hx <;> rfl

/-- The progress of a RETIRE at its start (R103, R104). -/
def retireBegun (b : Line) (s : State) : RetireWork :=
  { domain := wordA b, hintFirst := wordB b, hintCount := wordC b, collected := grantsOf s (wordA b), removed := 0
    slotReleased := none, ownedAtWalk := 0, released := 0
    walk := { position := wordB b, inHint := true, found := false, after := wordB b }, poisonedAtVisit := false }

/-- The part once a RETIRE has begun: its domain RETIRING, the domain's grants REVOKING and its drains begun (R103 to
R105). -/
def clearanceBegun (c : Nat) (b : Line) (s : State) : State :=
  { setDom (wordA b) { dom s (wordA b) with state := .retiring, retireActive := true } (dequeue c s) with
    grants := s.grants.map (fun p => (p.1, revokedGrant (wordA b) p.2))
    drains := s.drains ++ clearanceDrains c (wordA b) s }

theorem beginClearance_dequeue (c : Nat) (b : Line) (s : State) :
    beginClearance c (wordA b) (revokeAllOf (wordA b)
      (setDom (wordA b) { dom s (wordA b) with state := .retiring, retireActive := true } (dequeue c s))) =
      clearanceBegun c b s := by
  rw [beginClearance_eq, revokeAllOf_eq, clearanceDrains_congr (s := s) (by simp) (by simp) (by simp)]
  simp only [setDom_grants, setDom_drains, dequeue_grants, dequeue_drains, clearanceBegun]

theorem sameRest_clearanceBegun (c : Nat) (b : Line) (s : State) : SameRest s (clearanceBegun c b s) := by
  constructor <;> simp [clearanceBegun]

theorem dom_clearanceBegun (c : Nat) (b : Line) (s : State) (x : Nat) :
    dom (clearanceBegun c b s) x =
      if x = wordA b then { dom s (wordA b) with state := .retiring, retireActive := true } else dom s x := by
  show dom (setDom _ _ (dequeue c s)) x = _
  rw [dom_setDom, dom_dequeue]

/-- RETIRE is refused at its start (R103). -/
theorem refusal_retire_dequeue (c : Nat) (b : Line) (s : State) : refusal .retire b (dequeue c s) =
    { remaining := if wordA b = 0 ∨ 511 < wordA b then 0 else (dom s (wordA b)).owned, next := wordB b } := by
  simp only [refusal, dom_dequeue]

/-- The domain that a block of RETIRE names can be retired (R103). -/
def Retirable (b : Line) (s : State) : Prop :=
  ¬(511 < wordA b ∨ RangeRefused s (wordB b) (wordC b)) ∧ ¬(wordA b = 0 ∨ (dom s (wordA b)).state = .free) ∧
    ¬((dom s (wordA b)).state = .retiring ∧ (dom s (wordA b)).retireActive = true)

/-- RETIRE past its tests: its removals at once if its drains have finished as they began, or the wait for them. -/
theorem doRetire_begins (h : Retirable b s) : doRetire c b (dequeue c s) =
    if drained (clearanceBegun c b s) (.clearance c) then
      activate c b (.retire (retireBegun b s)) .removal .running (clearanceBegun c b s)
    else activate c b (.retire (retireBegun b s)) .clearance .drain (clearanceBegun c b s) := by
  obtain ⟨hparam, hstate, hbusy⟩ := h
  have hgrants : grantsOf (dequeue c s) (wordA b) = grantsOf s (wordA b) := by rw [grantsOf, dequeue_grants]; rfl
  rw [← rangeBad_iff] at hparam
  simp only [doRetire, dom_dequeue, rangeBad_dequeue, hgrants, beginClearance_dequeue, if_neg hparam, if_neg hstate,
    if_neg hbusy]
  rfl

/-- RETIRE with a transaction to wait for stands in its clearance (R104, R105). -/
theorem retire_waits {t : State} (h : StartsWork .retire c b s) (hc : c < 4) (hok : Retirable b s)
    (hdrains : clearanceDrains c (wordA b) s ≠ [])
    (ht : t = finish (issueProduced s (settle (doRetire c b (dequeue c s))))) :
    t.drains = s.drains ++ clearanceDrains c (wordA b) s ∧
      DomainNow (wordA b) { dom s (wordA b) with state := .retiring, retireActive := true } s t ∧
      (∀ i, grantAt t i = (grantAt s i).map (revokedGrant (wordA b))) ∧
      Starts c b (.retire (retireBegun b s)) .clearance .drain (chan s c).claim s t := by
  obtain ⟨x, hx⟩ := List.exists_mem_of_ne_nil _ hdrains
  have hdrained : drained (clearanceBegun c b s) (.clearance c) = false :=
    not_drained_of_mem (d := x) (List.mem_append_right _ hx) (user_of_mem_clearanceDrains hx)
  have hstands := h.stands (u := clearanceBegun c b s) rfl (sameRest_clearanceBegun c b s) (.retire (retireBegun b s))
    .clearance .drain
  have hquiet := (hstands.at (h.nothingWaits hc)).quiet h.quiet hc rfl
  rw [doRetire_begins hok, if_neg (by simp [hdrained]), rowEnd_of_comesTo (.here hquiet) (by decide)
    (by simp [clearanceBegun])] at ht
  subst ht
  have hdom : ∀ x, dom (finish (activate c b (.retire (retireBegun b s)) .clearance .drain (clearanceBegun c b s))) x =
      dom (clearanceBegun c b s) x := fun x => by rw [dom_finish]; rfl
  refine ⟨?_, ⟨?_, fun x hx => ?_⟩, fun i => ?_, hstands.starts⟩
  · rw [finish_drains, activate_drains]; rfl
  · rw [hdom, dom_clearanceBegun, if_pos rfl]
  · rw [hdom, dom_clearanceBegun, if_neg hx]
  · rw [grantAt_finish]
    exact tblGet_map (revokedGrant (wordA b)) s.grants i

/-- Without a transaction of the domain and without a grant that names it there is nothing to wait for. -/
theorem clearanceDrains_nil {d : Nat} (hflight : ∀ p ∈ s.inFlight, p.2.domain ≠ d)
    (hstage : ∀ x, s.stage = some x → x.request.domain.val ≠ d)
    (hgrants : ∀ p ∈ s.grants, p.2.owner ≠ d ∧ p.2.grantee ≠ d) : clearanceDrains c d s = [] := by
  have howned : s.grants.filter (fun p => p.2.owner == d) = [] := by
    rw [List.filter_eq_nil_iff]
    exact fun p hp => by simpa using (hgrants p hp).1
  have hmembers : s.inFlight.filter (fun p => p.2.domain == d) = [] := by
    rw [List.filter_eq_nil_iff]
    exact fun p hp => by simpa using hflight p hp
  have hheld : s.stage.any (fun x => x.request.domain.val == d) = false := by
    cases hst : s.stage with
    | none => rfl
    | some x => simpa using hstage x hst
  simp [clearanceDrains, counting, howned, hmembers, hheld]

theorem grantsOf_nil {d : Nat} (hgrants : ∀ p ∈ s.grants, p.2.owner ≠ d ∧ p.2.grantee ≠ d) : grantsOf s d = [] := by
  rw [grantsOf, List.map_eq_nil_iff, List.filter_eq_nil_iff]
  exact fun p hp => by simpa using hgrants p hp

/-- RETIRE of a domain to which nothing is left, not even a transaction, frees the entry in the step that takes it
(R106, R109). -/
theorem retire_atOnce {t : State} (h : StartsWork .retire c b s) (hc : c < 4) (hok : Retirable b s)
    (hflight : ∀ p ∈ s.inFlight, p.2.domain ≠ wordA b) (hstage : ∀ x, s.stage = some x → x.request.domain.val ≠ wordA b)
    (hgrants : ∀ p ∈ s.grants, p.2.owner ≠ wordA b ∧ p.2.grantee ≠ wordA b) (howned : (dom s (wordA b)).owned = 0)
    (hslot : (dom s (wordA b)).slot = none) (hno : NoDrain (.clearance c) s)
    (hreq : ∀ q ∈ s.requests, q.requester ≠ wordA b)
    (ht : t = finish (issueProduced s (settle (doRetire c b (dequeue c s))))) :
    DomainNow (wordA b) Domain.reset s t ∧ resultOf t (wordA b) = LastResult.reset ∧
      (∀ x, x ≠ wordA b → resultOf t x = resultOf s x) ∧ t.requests = s.requests ∧ t.ways = s.ways ∧
      EndsAtOnce c b .done { next := wordB b, w1 := 2 ^ 64 - 1 } s t := by
  have hdrained : drained (clearanceBegun c b s) (.clearance c) = true := by
    rw [drained_iff, NoDrain, clearanceBegun, clearanceDrains_nil hflight hstage hgrants, List.append_nil]
    exact hno
  obtain ⟨u, hu⟩ : ∃ u, u = activate c b (.retire (retireBegun b s)) .removal .running (clearanceBegun c b s) :=
    ⟨_, rfl⟩
  have hstands := h.stands (u := clearanceBegun c b s) rfl (sameRest_clearanceBegun c b s) (.retire (retireBegun b s))
    .removal .running
  rw [← hu] at hstands
  have hdom : ∀ x, dom u x = dom (clearanceBegun c b s) x := fun x => by rw [hu]; rfl
  have hentry : dom u (wordA b) = { dom s (wordA b) with state := .retiring, retireActive := true } := by
    rw [hdom, dom_clearanceBegun, if_pos rfl]
  obtain ⟨v, hcome, hproduced, hdone, hfreed⟩ := hstands.retire_walks_and_ends (r := retireBegun b s) h.quiet hc
    (h.nothingWaits hc) h.warm rfl rfl rfl (grantsOf_nil hgrants)
    ((congrArg Domain.slot hentry).trans hslot) ((congrArg Domain.owned hentry).trans howned) hreq
  have hp : v.produced = s.produced := by rw [hproduced, hu]; simp [clearanceBegun]
  rw [doRetire_begins hok, if_pos hdrained, ← hu, rowEnd_of_comesTo hcome (by decide) hp] at ht
  subst ht
  refine ⟨hfreed.domainNow fun x hx => ?_, hfreed.result, fun x hx => (hfreed.results x hx).trans ?_,
    hfreed.requests.trans ?_, hfreed.ways.trans ?_, h.endsAtOnce_of_completed hdone⟩
  · rw [hdom, dom_clearanceBegun]
    exact if_neg hx
  · rw [hu]; simp [resultOf, clearanceBegun]
  · rw [hu]; simp [clearanceBegun]
  · rw [hu]; simp [clearanceBegun]

/-- RETIRE's row: its refusals in their order, the wait for its drains, or the end at once. -/
theorem retire_row (c : Fin 4) (b : Line) (s : State) (h : StartsWork .retire c.val b s) :
    ∃ t, exec (.retire c) s = .next t ∧
      if 511 < wordA b ∨ RangeRefused s (wordB b) (wordC b) then
        WorkRefused c.val b .parameter
          { remaining := if wordA b = 0 ∨ 511 < wordA b then 0 else (dom s (wordA b)).owned, next := wordB b } s t
      else if wordA b = 0 ∨ (dom s (wordA b)).state = .free then
        WorkRefused c.val b .domainState
          { remaining := if wordA b = 0 then 0 else (dom s (wordA b)).owned, next := wordB b } s t
      else if (dom s (wordA b)).state = .retiring ∧ (dom s (wordA b)).retireActive = true then
        WorkRefused c.val b .domainBusy { remaining := (dom s (wordA b)).owned, next := wordB b } s t
      else t = finish (issueProduced s (settle (doRetire c.val b (dequeue c.val s)))) := by
  have hrow : exec (.retire c) s = .next (finish (issueProduced s (settle (doRetire c.val b (dequeue c.val s))))) := by
    rw [exec_retire, h.take]
    rfl
  refine ⟨_, hrow, ?_⟩
  have hrefused : ∀ res, doRetire c.val b (dequeue c.val s) =
      refuse c.val b res (refusal .retire b (dequeue c.val s)) (dequeue c.val s) →
      WorkRefused c.val b res
        { remaining := if wordA b = 0 ∨ 511 < wordA b then 0 else (dom s (wordA b)).owned, next := wordB b } s
        (finish (issueProduced s (settle (doRetire c.val b (dequeue c.val s))))) := fun res he => by
    rw [he, refusal_retire_dequeue]
    exact h.refused_end c.isLt _ _
  split
  next hparam =>
    rw [← rangeBad_iff] at hparam
    exact hrefused _ (by simp only [doRetire, rangeBad_dequeue, if_pos hparam])
  next hparam =>
    have hlow : ¬511 < wordA b := fun hd => hparam (.inl hd)
    have hbad := hparam
    rw [← rangeBad_iff] at hbad
    split
    next hstate =>
      have hr := hrefused .domainState
        (by simp only [doRetire, rangeBad_dequeue, dom_dequeue, if_neg hbad, if_pos hstate])
      simpa only [hlow, or_false] using hr
    next hstate =>
      have hzero : ¬wordA b = 0 := fun hd => hstate (.inl hd)
      split
      next hbusy =>
        have hr := hrefused .domainBusy
          (by simp only [doRetire, rangeBad_dequeue, dom_dequeue, if_neg hbad, if_neg hstate, if_pos hbusy])
        rwa [if_neg (not_or.2 ⟨hzero, hlow⟩)] at hr
      next => rfl

/-! ### The clearance drained (R105, R106) -/

theorem clearanceDrained_eq (ha : (chan s c).active = some a) (hphase : a.phase = .clearance) (hwait : a.wait = .drain)
    (hno : NoDrain (.clearance c) s) : clearanceDrained c s = some (settle (goPhase c .removal .running s)) := by
  have hdone : drainDone c .clearance (.clearance c) s = some a.work := by
    simp only [drainDone, ha]
    rw [if_pos ⟨hphase, hwait, drained_iff.2 hno⟩]
  rw [clearanceDrained, hdone]

/-- The slot and the owned count of a domain are not touched by the removal of a grant. -/
theorem dom_removeGrant_slot_owned {i : Nat} {g : Grant} (rec : TagRecord) (hg : grantAt u i = some g)
    (hne : g.owner ≠ g.grantee) (x : Nat) : (dom (removeGrant i g rec u) x).slot = (dom u x).slot ∧
      (dom (removeGrant i g rec u) x).owned = (dom u x).owned := by
  rw [dom_removeGrant rec hg hne]
  split
  · exact ⟨rfl, rfl⟩
  · split <;> exact ⟨rfl, rfl⟩

/-- RETIRE's last removal, from its drains to its end: the entry goes, and the domain, to which nothing is left, is
freed (R105, R106, R109). -/
theorem Runs.clearance_ends {i : Nat} {g : Grant} {rec : TagRecord} (h : Runs c a s) (hc : c < 4)
    (hwork : a.work = .retire r) (hcol : r.collected = [(i, g.serial)]) (hg : grantAt s i = some g)
    (hrec : recordAt s g.granule = some rec) (hne : g.owner ≠ g.grantee) (howned : (dom s r.domain).owned = 0)
    (hslot : (dom s r.domain).slot = none) (hreq : ∀ q ∈ s.requests, q.requester ≠ r.domain) :
    ∃ k v, ComesTo 4 (goPhase c .removal .running s) v ∧ v.produced = s.produced ∧
      Ends c a .done (retireReport { r with removed := r.removed + 1, ownedAtWalk := 0 }) s (finish v) ∧
      Freed r.domain (removeGrant i g rec (touch k (goPhase c .removal .running s))) (finish v) := by
  have hidle := h.nothingWaits hc
  obtain ⟨r', hr⟩ : ∃ r' : RetireWork, r' = { r with collected := [], removed := r.removed + 1 } := ⟨_, rfl⟩
  have hdomain : r'.domain = r.domain := by rw [hr]
  have hstart := h.stands.goPhase .removal .running
  obtain ⟨k, hk⟩ := retireRemoval_removes (c := c) (u := goPhase c .removal .running s) hcol hg hrec
  have hkept := dom_removeGrant_slot_owned (u := touch k (goPhase c .removal .running s)) rec hg hne r.domain
  have hremoved := (hstart.touch k).removeGrant i g rec
  have hp : (removeGrant i g rec (touch k (goPhase c .removal .running s))).produced = s.produced :=
    removeGrant_produced _ i g rec
  obtain ⟨hslot', howned'⟩ := hkept
  replace hslot' := hslot'.trans hslot
  replace howned' := howned'.trans howned
  refine ⟨k, ?_⟩
  generalize removeGrant i g rec (touch k (goPhase c .removal .running s)) = w at hk hremoved hp hslot' howned' ⊢
  rw [← hr] at hk
  have hwalking := (hremoved.goWork (.retire r')).goPhase .removal .running
  obtain ⟨v, hcome, hproduced, hdone, hfreed⟩ :=
    hwalking.retire_walks_and_ends (r := r') h.quiet hc hidle h.warm rfl rfl rfl (by rw [hr])
      (by rw [hdomain]; exact hslot') (by rw [hdomain]; exact howned') (by rw [hdomain]; exact hreq)
  rw [hdomain] at hfreed
  refine ⟨v, hstart.step h.quiet hc hidle rfl ?_, hproduced.trans hp, ?_, hfreed.congr rfl rfl rfl rfl rfl⟩
  · rw [chanStep_removal (a := { a with phase := .removal, wait := .running }) hwork rfl, hk]
    exact hcome
  · rw [hr] at hdone
    exact hdone

/-- RETIRE_CLEARANCE_DRAINS_DONE's row with one collected entry, where nothing else is left to the domain. -/
theorem retireClearance_row (c : Fin 4) (a : Active) (r : RetireWork) (i : Nat) (g : Grant) (rec : TagRecord) (s : State)
    (h : Runs c.val a s) (hwork : a.work = .retire r) (hphase : a.phase = .clearance) (hwait : a.wait = .drain)
    (hno : NoDrain (.clearance c.val) s) (hcol : r.collected = [(i, g.serial)]) (hg : grantAt s i = some g)
    (hrec : recordAt s g.granule = some rec) (hne : g.owner ≠ g.grantee) (howned : (dom s r.domain).owned = 0)
    (hslot : (dom s r.domain).slot = none) (hreq : ∀ q ∈ s.requests, q.requester ≠ r.domain) :
    ∃ t, exec (.retireClearanceDrainsDone c) s = .next t ∧ grantAt t i = none ∧
      (∀ j, j ≠ i → grantAt t j = grantAt s j) ∧ RecordNow g.granule { rec with count := rec.count - 1 } s t ∧
      dom t r.domain = Domain.reset ∧
      (g.owner ≠ r.domain → dom t g.owner = { dom s g.owner with given := (dom s g.owner).given - 1 }) ∧
      (g.grantee ≠ r.domain → dom t g.grantee = { dom s g.grantee with held := (dom s g.grantee).held - 1 }) ∧
      Ends c.val a .done (retireReport { r with removed := r.removed + 1, ownedAtWalk := 0 }) s t := by
  obtain ⟨k, v, hcome, hproduced, hends, hfreed⟩ :=
    h.clearance_ends c.isLt hwork hcol hg hrec hne howned hslot hreq
  obtain ⟨u, hu⟩ : ∃ u, u = touch k (goPhase c.val .removal .running s) := ⟨_, rfl⟩
  rw [← hu] at hfreed
  have hgu : grantAt u i = some g := by rw [hu]; exact hg
  have hrecu : recordAt u g.granule = some rec := by rw [hu]; exact hrec
  have hgrants : ∀ j, grantAt u j = grantAt s j := fun j => by rw [hu]; rfl
  have hdom : ∀ x, dom u x = dom s x := fun x => by rw [hu]; rfl
  have hgrant : ∀ j, grantAt (finish v) j = if j = i then none else grantAt s j := fun j => by
    rw [← hgrants, ← grantAt_removeGrant rec hgu, grantAt, hfreed.grants]
    rfl
  have hafter : ∀ x, x ≠ r.domain → dom (finish v) x = _ := fun x hx =>
    (hfreed.domains x hx).trans (dom_removeGrant rec hgu hne x)
  refine ⟨finish v, ?_, by rw [hgrant, if_pos rfl], fun j hj => by rw [hgrant, if_neg hj],
    (recordNow_removeGrant hrecu).congr (by rw [hu]; rfl) hfreed.ways, hfreed.entry, fun ho => ?_, fun hgr => ?_, hends⟩
  · rw [exec_retireClearanceDrainsDone, clearanceDrained_eq h.active hphase hwait hno]
    exact congrArg _ (rowEnd_of_comesTo hcome (by decide) hproduced)
  · rw [hafter _ ho, if_neg hne, if_pos rfl, hdom]
  · rw [hafter _ hgr, if_pos rfl, hdom]

/-! ### RETIRE's visit of a granule (R106 to R108, R128) -/

theorem claimReleased_eq {g : Nat} (ha : (chan s c).active = some a) (hwait : a.wait = .claim g) (hfree : ¬Claimed s g) :
    claimReleased c s = some (settle (goWait c .running s)) := by
  have hclaim : ¬claimed s g = true := mt (claimed_iff s g).1 hfree
  rw [claimReleased, ha]
  dsimp only
  rw [hwait]
  dsimp only
  rw [if_neg hclaim]

/-- A visit under way looks the record of its granule up (R106, R108). -/
theorem chanStep_visiting {rec : TagRecord} (hwork : a.work = .retire r) (hphase : a.phase = .visiting)
    (hrec : recordAt u r.walk.position = some rec) : ∃ k, chanStep c a u = retireVisit c r rec (touch k u) := by
  rw [chanStep, hphase]
  dsimp only
  rw [hwork]
  exact withRecord_hit hrec

/-- RETIRE at a granule that names its domain as owner (R106). -/
def foundHere (r : RetireWork) : RetireWork :=
  { r with walk := { r.walk with found := true, after := r.walk.position + 1 }, poisonedAtVisit := false }

/-- RETIRE past a granule that does not (R106). -/
def passedHere (r : RetireWork) : RetireWork :=
  { r with walk := { r.walk with position := r.walk.position + 1, after := r.walk.position + 1 } }

theorem retireVisit_other {rec : TagRecord} (hother : rec.owner ≠ some r.domain) :
    retireVisit c r rec u = goPhase c .visit .running (goWork c (.retire (passedHere r)) u) := if_neg hother

theorem retireVisit_own {rec : TagRecord} (hown : rec.owner = some r.domain) :
    retireVisit c r rec u = retireOwned c (foundHere r) rec (goWork c (.retire (foundHere r)) u) := if_pos hown

/-- A PRIVATE granule under no other command's claim becomes CLEARING_OUT under RETIRE's own, PINNED clear, and its
drain begins (R107). -/
theorem retireOwned_private {rec : TagRecord} (hstate : rec.state = .gPrivate)
    (hfree : claimant u r.walk.position = none) :
    retireOwned c r rec u = startGranuleDrain c r.walk.position
      (setClaim c (some r.walk.position)
        (putRecord r.walk.position { rec with state := .gClearingOut, pinned := false } u)) := by
  simp only [retireOwned, hstate, hfree]
  rfl

/-- The lookup after its drain lets RETIRE ask for a Scrub Unit where it does not find the granule POISONED (R107). -/
theorem afterDrain_retire {rec : TagRecord} (hwork : a.work = .retire r) (hphase : a.phase = .afterDrain)
    (hsound : rec.state ≠ .gPoisoned) : afterDrain c a rec u = goPhase c .unit .unit u := by
  have hgoes : laterStop c (granuleAt a.work) a rec u = none := by
    rw [laterStop, hwork, hphase]
    rfl
  rw [afterDrain, hgoes]
  dsimp only
  have hzeroes : zeroes (.retire r) = true := rfl
  rw [hwork, if_pos hzeroes]
  show goPhase c .unit .unit (notePoisoned c (.retire r) rec u) = _
  rw [notePoisoned, if_neg hsound]

theorem chanStep_afterDrain {rec : TagRecord} (hphase : a.phase = .afterDrain)
    (hrec : recordAt u (granuleAt a.work) = some rec) : ∃ k, chanStep c a u = afterDrain c a rec (touch k u) := by
  rw [chanStep, hphase]
  exact withRecord_hit hrec

/-- A command that stands with its claim as it was claims what it claimed. -/
theorem Stands.claimant_eq_none (h : Stands c (Machine.chan s c) a s u) {g : Nat} (hfree : ¬Claimed s g) :
    claimant u g = none := by
  have hclaims : ∀ x, (Machine.chan u x).claim = (Machine.chan s x).claim := fun x => by
    by_cases hx : x = c
    · rw [hx, h.self]
    · rw [h.other hx]
  have hclaimed : ¬claimed u g = true := by rw [claimed_congr hclaims, claimed_iff]; exact hfree
  simpa [claimed] using hclaimed

/-- The visit of a PRIVATE granule of the domain, looked up afresh with no traffic to wait for, comes to the wait for
a Scrub Unit (R107, R128). -/
theorem Runs.visit_own {rec : TagRecord} (h : Runs c a s) (hc : c < 4) (hwork : a.work = .retire r)
    (hphase : a.phase = .visiting) (hfree : ¬Claimed s r.walk.position) (hrec : recordAt s r.walk.position = some rec)
    (hown : rec.owner = some r.domain) (hstate : rec.state = .gPrivate) (hquiet : NoTraffic r.walk.position s)
    (hno : NoDrain (.command c) s) :
    ∃ v, ComesTo 2 (goWait c .running s) v ∧ v.produced = s.produced ∧
      RecordNow r.walk.position { rec with state := .gClearingOut, pinned := false } s v ∧
      Stands c { chan s c with claim := some r.walk.position }
        { a with work := .retire (foundHere r), phase := .unit, wait := .unit } s v ∧
      v.domains = s.domains ∧ v.grants = s.grants := by
  obtain ⟨rec', hrec'⟩ : ∃ rec' : TagRecord, rec' = { rec with state := .gClearingOut, pinned := false } := ⟨_, rfl⟩
  have hidle := h.nothingWaits hc
  have hstart := h.stands.goWait .running
  obtain ⟨k, hk⟩ := chanStep_visiting (c := c) (u := goWait c .running s)
    (a := { a with wait := .running }) hwork hphase hrec
  obtain ⟨u, hu⟩ : ∃ u, u = goWork c (.retire (foundHere r)) (touch k (goWait c .running s)) := ⟨_, rfl⟩
  have hfound : Stands c (chan s c) { a with work := .retire (foundHere r), wait := .running } s u := by
    rw [hu]; exact (hstart.touch k).goWork _
  obtain ⟨w, hw⟩ : ∃ w, w = setClaim c (some r.walk.position) (putRecord r.walk.position rec' u) := ⟨_, rfl⟩
  have hclaimed : Stands c { chan s c with claim := some r.walk.position }
      { a with work := .retire (foundHere r), wait := .running } s w := by
    rw [hw]; exact (hfound.putRecord _ _).setClaim _
  have hidle' : NothingWaits { chan s c with claim := some r.walk.position } := hidle
  have hrecu : recordAt u r.walk.position = some rec := by rw [hu]; simpa using hrec
  have hnow : RecordNow r.walk.position rec' s w :=
    (recordNow_putRecord hrecu).congr (by rw [hu]; simp) (by rw [hw, setClaim_ways])
  have hvisit : retireVisit c r rec (touch k (goWait c .running s)) = goPhase c .afterDrain .running w := by
    rw [retireVisit_own hown, ← hu,
      retireOwned_private (r := foundHere r) hstate (hfound.claimant_eq_none hfree), ← hrec']
    show startGranuleDrain c r.walk.position
      (setClaim c (some r.walk.position) (putRecord r.walk.position rec' u)) = _
    rw [← hw]
    refine startGranuleDrain_none ?_ ?_
    · have hflight : w.inFlight = s.inFlight := by rw [hw, hu]; simp
      have hstage : w.stage = s.stage := by rw [hw, hu]; simp
      rw [NoTraffic, hflight, hstage]
      exact hquiet
    · have hdrains : w.drains = s.drains := by rw [hw, hu]; simp
      rw [NoDrain, hdrains]
      exact hno
  have hdrained := hclaimed.goPhase .afterDrain .running
  obtain ⟨k', hk'⟩ := chanStep_afterDrain (c := c) (u := goPhase c .afterDrain .running w)
    (a := { a with work := .retire (foundHere r), phase := .afterDrain, wait := .running }) rfl hnow.1
  rw [afterDrain_retire (r := foundHere r) rfl rfl (by rw [hrec']; nofun)] at hk'
  have hends := (hdrained.touch k').goPhase .unit .unit
  refine ⟨_, hstart.step h.quiet hc hidle rfl ?_, ?_, ?_, hends, ?_, ?_⟩
  · rw [hk, hvisit]
    refine hdrained.step h.quiet hc hidle' rfl ?_
    rw [hk']
    exact .here ((hends.at hidle').quiet h.quiet hc rfl)
  · rw [hw, hu]; simp
  · rw [← hrec']
    exact hnow.congr rfl (by simp)
  · rw [hw, hu]; simp
  · rw [hw, hu]; simp

/-- The visit of a granule that is not the domain's, looked up afresh, ends a RETIRE to whose domain nothing is left
(R106, R109, R128). -/
theorem Runs.visit_other {rec : TagRecord} (h : Runs c a s) (hc : c < 4) (hwork : a.work = .retire r)
    (hphase : a.phase = .visiting) (hrec : recordAt s r.walk.position = some rec) (hother : rec.owner ≠ some r.domain)
    (howned : (dom s r.domain).owned = 0) (hreq : ∀ q ∈ s.requests, q.requester ≠ r.domain) :
    ∃ v, ComesTo 3 (goWait c .running s) v ∧ v.produced = s.produced ∧
      Ends c a .done (retireReport (passedHere r)) s (finish v) ∧ Freed r.domain s (finish v) := by
  have hidle := h.nothingWaits hc
  have hstart := h.stands.goWait .running
  obtain ⟨k, hk⟩ := chanStep_visiting (c := c) (u := goWait c .running s)
    (a := { a with wait := .running }) hwork hphase hrec
  rw [retireVisit_other hother] at hk
  obtain ⟨r', hr⟩ : ∃ r', r' = passedHere r := ⟨_, rfl⟩
  have hdomain : r'.domain = r.domain := by rw [hr]; rfl
  rw [← hr] at hk ⊢
  obtain ⟨w, hw⟩ : ∃ w, w = goPhase c .visit .running (goWork c (.retire r') (touch k (goWait c .running s))) :=
    ⟨_, rfl⟩
  have hpassed : Stands c (chan s c) { a with work := .retire r', phase := .visit, wait := .running } s w := by
    rw [hw]; exact ((hstart.touch k).goWork (.retire r')).goPhase .visit .running
  have hdomains : w.domains = s.domains := by rw [hw]; simp
  have hdom : dom w r.domain = dom s r.domain := dom_congr hdomains _
  have hp : w.produced = s.produced := by rw [hw]; simp
  rw [← hw] at hk
  obtain ⟨v, hcome, hproduced, hdone, hfreed⟩ :=
    hpassed.retire_ends (r := r') h.quiet hc hidle h.warm rfl rfl rfl (by rw [hdomain, hdom]; exact howned)
      (by rw [hdomain]; exact hreq)
  rw [hdomain] at hfreed
  refine ⟨v, hstart.step h.quiet hc hidle rfl ?_, hproduced.trans hp, hdone, ?_⟩
  · rw [hk]
    exact hcome
  · exact hfreed.congr hdomains (by rw [hw]; simp) (by rw [hw]; simp) (by rw [hw]; simp) (by rw [hw]; simp)

/-- RETIRE_CLAIM_RELEASED's row at a cached record: the granule is the domain's, or it is passed over. -/
theorem retireClaimReleased_row (c : Fin 4) (a : Active) (r : RetireWork) (rec : TagRecord) (s : State)
    (h : Runs c.val a s) (hwork : a.work = .retire r) (hphase : a.phase = .visiting)
    (hwait : a.wait = .claim r.walk.position) (hfree : ¬Claimed s r.walk.position)
    (hrec : recordAt s r.walk.position = some rec) :
    ∃ t, exec (.retireClaimReleased c) s = .next t ∧
      (rec.owner = some r.domain → rec.state = .gPrivate → NoTraffic r.walk.position s → NoDrain (.command c.val) s →
        RecordNow r.walk.position { rec with state := .gClearingOut, pinned := false } s t ∧
        GoesOn c.val { a with work := .retire (foundHere r), phase := .unit, wait := .unit } (some r.walk.position) s t ∧
        (∀ x, dom t x = dom s x) ∧ t.grants = s.grants) ∧
      (rec.owner ≠ some r.domain → (dom s r.domain).owned = 0 → (∀ q ∈ s.requests, q.requester ≠ r.domain) →
        t.ways = s.ways ∧ DomainNow r.domain Domain.reset s t ∧
        Ends c.val a .done (retireReport (passedHere r)) s t) := by
  refine ⟨finish (issueProduced s (settle (goWait c.val .running s))), ?_, fun hown hstate hquiet hno => ?_,
    fun hother howned hreq => ?_⟩
  · rw [exec_retireClaimReleased, claimReleased_eq h.active hwait hfree]
    rfl
  · obtain ⟨v, hcome, hproduced, hnow, hstands, hdomains, hgrants⟩ :=
      h.visit_own c.isLt hwork hphase hfree hrec hown hstate hquiet hno
    rw [rowEnd_of_comesTo hcome (by decide) hproduced]
    exact ⟨hnow.congr rfl (finish_ways v), hstands.goesOn, fun x => by rw [dom_finish]; exact dom_congr hdomains x,
      by rw [finish_grants, hgrants]⟩
  · obtain ⟨v, hcome, hproduced, hends, hfreed⟩ := h.visit_other c.isLt hwork hphase hrec hother howned hreq
    rw [rowEnd_of_comesTo hcome (by decide) hproduced]
    exact ⟨hfreed.ways, hfreed.domainNow fun _ _ => rfl, hends⟩

/-- Settles O57: RETIRE's row, the row of its drained clearance and the row of a claim that has gone. -/
theorem retireClearsItsGrantsAndFreesTheDomain : Obligations.RetireClearsItsGrantsAndFreesTheDomain := by
  refine ⟨?_, fun c a r i g rec s h hwork hphase hwait hno hcol hg hrec _ hne howned hslot hreq =>
    retireClearance_row c a r i g rec s h hwork hphase hwait hno hcol hg hrec hne howned hslot hreq, ?_⟩
  · rintro c b s _ _ _ h rfl rfl rfl
    obtain ⟨t, hexec, hrow⟩ := retire_row c b s h
    refine ⟨t, hexec, ?_⟩
    split
    next hparam => rwa [if_pos hparam] at hrow
    next hparam =>
      rw [if_neg hparam] at hrow
      split
      next hstate => rwa [if_pos hstate] at hrow
      next hstate =>
        rw [if_neg hstate] at hrow
        split
        next hbusy => rwa [if_pos hbusy] at hrow
        next hbusy =>
          rw [if_neg hbusy] at hrow
          have hok : Retirable b s := ⟨hparam, hstate, hbusy⟩
          refine ⟨fun hdrains => ?_, fun hflight hstage hgrants howned hslot hno hreq =>
            retire_atOnce h c.isLt hok hflight hstage hgrants howned hslot hno hreq hrow⟩
          obtain ⟨hnow, hdomain, hgrants, hstarts⟩ := retire_waits h c.isLt hok hdrains hrow
          exact ⟨hnow, hdomain, hgrants, retireBegun b s, hstarts, rfl, rfl, rfl, rfl, rfl⟩
  · rintro c a r _ rec s h hwork hphase hwait rfl hfree hrec
    exact retireClaimReleased_row c a r rec s h hwork hphase hwait hfree hrec

end Sys2Proof.Machine
end

section
/-!
PROOFS. Granule operations (chapter 6): the steps that ASSIGN, RELEASE, RESTORE, QUERY_GRANULES, REGION_SET and RETIRE
share, from the taking of the command to its end or its next wait.
-/

namespace Sys2Proof.Machine
variable {s t u v : State} {c g : Nat} {b : Line} {a : Active} {ch : Channel} {cmd : Cmd}

/-! ### The rows -/

theorem exec_assign (c : Fin 4) (s : State) : exec (.assign c) s = answerStep s (takeRun .assign c.val s) := rfl

theorem exec_release (c : Fin 4) (s : State) : exec (.release c) s = answerStep s (takeRun .release c.val s) := rfl

theorem exec_restore (c : Fin 4) (s : State) : exec (.restore c) s = answerStep s (takeRun .restore c.val s) := rfl

theorem exec_queryGranules (c : Fin 4) (s : State) :
    exec (.queryGranules c) s = answerStep s (takeRun .queryGranules c.val s) := rfl

theorem exec_regionSet (c : Fin 4) (s : State) :
    exec (.regionSet c) s = answerStep s (takeRun .regionSet c.val s) := rfl

/-- The row of a work command that its channel takes (R168, R169). -/
theorem StartsWork.row (h : StartsWork cmd c b s) :
    answerStep s (takeRun cmd c s) = .next (finish (issueProduced s (settle (runCommand cmd c b (dequeue c s))))) := by
  rw [h.take]
  rfl

/-! ### States that differ in the order of the cache's sets only (R41) -/

/-- From s to u nothing has changed but the channels, the notices, what the ports offer and the order of the cache's
sets (R41). -/
def OrderOnly (s u : State) : Prop := Untouched s { u with lru := s.lru }

theorem OrderOnly.refl (s : State) : OrderOnly s s := rfl

theorem OrderOnly.trans (h : OrderOnly s t) (k : OrderOnly t u) : OrderOnly s u := by
  unfold OrderOnly Untouched at *
  rw [← h, ← k]

theorem OrderOnly.touch (h : OrderOnly s u) (k : Nat) : OrderOnly s (touch k u) := h

theorem OrderOnly.setChan (h : OrderOnly s u) (c : Nat) (e : Channel) : OrderOnly s (setChan c e u) := h

theorem OrderOnly.goPhase (h : OrderOnly s u) (c : Nat) (p : Phase) (w : Wait) : OrderOnly s (goPhase c p w u) := h

theorem OrderOnly.goWork (h : OrderOnly s u) (c : Nat) (w : Work) : OrderOnly s (goWork c w u) := h

theorem OrderOnly.setClaim (h : OrderOnly s u) (c : Nat) (x : Option Nat) : OrderOnly s (setClaim c x u) := h

theorem OrderOnly.finish (h : OrderOnly s u) : OrderOnly s (finish u) :=
  h.trans (by simp [OrderOnly, Untouched])

theorem OrderOnly.ways (h : OrderOnly s u) : u.ways = s.ways := (congrArg State.ways h :)
theorem OrderOnly.drains (h : OrderOnly s u) : u.drains = s.drains := (congrArg State.drains h :)
theorem OrderOnly.produced (h : OrderOnly s u) : u.produced = s.produced := (congrArg State.produced h :)
theorem OrderOnly.inFlight (h : OrderOnly s u) : u.inFlight = s.inFlight := (congrArg State.inFlight h :)
theorem OrderOnly.stage (h : OrderOnly s u) : u.stage = s.stage := (congrArg State.stage h :)
theorem OrderOnly.poisonList (h : OrderOnly s u) : u.poisonList = s.poisonList := (congrArg State.poisonList h :)
theorem OrderOnly.domains (h : OrderOnly s u) : u.domains = s.domains := (congrArg State.domains h :)
theorem OrderOnly.dom (h : OrderOnly s u) (x : Nat) : dom u x = dom s x := dom_congr h.domains x
theorem OrderOnly.units (h : OrderOnly s u) : u.units = s.units := (congrArg State.units h :)
theorem OrderOnly.size (h : OrderOnly s u) : u.size = s.size := (congrArg State.size h :)
theorem OrderOnly.tagBase (h : OrderOnly s u) : u.tagBase = s.tagBase := (congrArg State.tagBase h :)

theorem OrderOnly.regionOf (h : OrderOnly s u) (i : Nat) : regionOf u i = regionOf s i := by
  have hregions : u.regions = s.regions := (congrArg State.regions h :)
  rw [Machine.regionOf, Machine.regionOf, hregions]

theorem OrderOnly.recordAt (h : OrderOnly s u) (g : Nat) : recordAt u g = recordAt s g := recordAt_congr h.ways g

theorem OrderOnly.noTraffic (h : OrderOnly s u) : NoTraffic g u ↔ NoTraffic g s := by
  rw [NoTraffic, NoTraffic, h.inFlight, h.stage]

theorem OrderOnly.counting (h : OrderOnly s u) (x : DrainUser) (picks : Nat → Nat → Bool) :
    counting x picks u = counting x picks s := by
  rw [Machine.counting, Machine.counting, h.inFlight, h.stage]

/-- A command's end outside a warm reset changes its channel and raises CHANNEL_DONE (R170). -/
theorem orderOnly_completed (hwarm : u.warm = none) (r : Result) (p : Report) :
    OrderOnly u (Machine.finish (Machine.setChan c ch (completeWork c r p u))) := by
  unfold OrderOnly Untouched
  simp [warm_completeWork hwarm, ← hwarm]

theorem orderOnly_activate (c : Nat) (b : Line) (w : Work) (p : Phase) (x : Wait) (s : State) :
    OrderOnly s (activate c b w p x (dequeue c s)) := by
  unfold OrderOnly Untouched
  simp

/-! ### A command that stands at its channel -/

/-- A command whose own claim has not changed finds the claims as they were (R113). -/
theorem Stands.claimed (h : Stands c ch a s u) (hclaim : ch.claim = (Machine.chan s c).claim) (g : Nat) :
    claimed u g = Machine.claimed s g :=
  claimed_congr (fun x => by rw [h.chan]; split <;> simp_all) g

theorem Stands.ownClaim (h : Stands c ch a s u) (hclaim : ch.claim = some g) : ownClaim u c g = true := by
  rw [Machine.ownClaim, h.self]
  simp [hclaim]

theorem Stands.active (h : Stands c ch a s u) : (Machine.chan u c).active = some a := by rw [h.self]

theorem Stands.startsClaimed {w : Work} {p : Phase} {x : Wait} {claim : Option Nat}
    (h : Stands c { takenChannel (Machine.chan s c) with claim := claim }
      { block := b, work := w, phase := p, wait := x, ending := none } s u) :
    Starts c b w p x claim s (finish u) :=
  ⟨by rw [chan_finish, h.self]; rfl, fun x hx => by rw [chan_finish, h.other hx]⟩

/-- The issue of a step's requests leaves the command as it stands (R10). -/
theorem Stands.issued (h : Stands c ch a s u) (old : State) : Stands c ch a s (issueProduced old u) :=
  h.congr (by simp) ⟨by simp, by simp, by simp, by simp, by simp⟩

/-- A command's step at a granule whose line is not cached waits for the line's fill (R51). -/
theorem Stands.misses {f : TagRecord → State → State} (h : Stands c ch a s u) (hq : Quiet s) (hc : c < 4)
    (hch : NothingWaits ch) (hrec : recordAt u g = none) (hstep : withRecord c g f u = v) :
    ComesTo 0 v v ∧ Stands c ch { a with wait := .fill (g / 4) } s v ∧
      v = joinFill (g / 4) (Machine.goWait c (.fill (g / 4)) u) := by
  have hv : v = joinFill (g / 4) (Machine.goWait c (.fill (g / 4)) u) := by rw [← hstep, withRecord_miss hrec]; rfl
  have hstands : Stands c ch { a with wait := .fill (g / 4) } s v := by
    rw [hv]
    exact (h.goWait (.fill (g / 4))).congr (by simp) ⟨by simp, by simp, by simp, by simp, by simp⟩
  exact ⟨.here ((hstands.at hch).quiet hq hc rfl), hstands, hv⟩

theorem stopWork_eq {res : Result} (ha : (chan u c).active = some a) :
    stopWork c res u = completeWork c res (reportOf a (cleanUp c a.work u)) (cleanUp c a.work u) := by
  rw [stopWork, ha]

/-- A command that is completed ends in one step more, in which only its channel changes (R168, R170). -/
theorem Stands.ends {res : Result} {p : Report} (h : Stands c ch a s u) (hq : Quiet s) (hc : c < 4)
    (hch : NothingWaits ch) (hwarm : s.warm = none) :
    ∃ v, ComesTo 1 (completeWork c res p u) v ∧ Completed c ch a.block res p s (finish v) ∧
      v.produced = u.produced ∧ OrderOnly u (finish v) := by
  obtain ⟨ch', hcome, hdone⟩ := h.completes (res := res) (p := p) hq hc hch hwarm
  exact ⟨_, hcome, hdone, by simp, orderOnly_completed (h.rest.warm.trans hwarm) res p⟩

/-- A command that stops at a granule's cached record ends in two steps, with what its own rule undoes (R114, R170). -/
theorem Stands.stops {f : TagRecord → State → State} {rec : TagRecord} {res : Result} {p : Report}
    (h : Stands c ch a s u) (hq : Quiet s) (hc : c < 4) (hch : NothingWaits ch) (hwarm : s.warm = none)
    (hwait : a.wait = .running) (hstep : chanStep c a u = withRecord c g f u) (hrec : recordAt u g = some rec)
    (hstop : ∀ k, f rec (Machine.touch k u) = stopWork c res (Machine.touch k u))
    (hreport : ∀ k, reportOf a (cleanUp c a.work (Machine.touch k u)) = p) :
    ∃ k v, ComesTo 2 u v ∧ Completed c ch a.block res p s (finish v) ∧ v.produced = u.produced ∧
      OrderOnly (cleanUp c a.work (Machine.touch k u)) (finish v) := by
  obtain ⟨k, hk⟩ := withRecord_hit (c := c) (f := f) hrec
  have hclean : Stands c ch a s (cleanUp c a.work (Machine.touch k u)) :=
    (h.touch k).congr (by rw [cleanUp_shape]) (by rw [cleanUp_shape]; exact ⟨rfl, rfl, rfl, rfl, rfl⟩)
  obtain ⟨v, hcome, hdone, hproduced, horder⟩ := hclean.ends (res := res) (p := p) hq hc hch hwarm
  refine ⟨k, v, h.step hq hc hch hwait ?_, hdone, hproduced.trans (by rw [cleanUp_shape]; rfl), horder⟩
  rw [hstep, hk, hstop, stopWork_eq (h.touch k).active, hreport k]
  exact hcome

/-! ### A work command at its first visit (R168, R112) -/

/-- A work command as it visits its first granule. -/
def firstVisit (b : Line) (w : Work) : Active :=
  { block := b, work := w, phase := .visit, wait := .running, ending := none }

/-- The part once a work command has been taken and is to visit its first granule. -/
def begun (c : Nat) (b : Line) (w : Work) (s : State) : State := activate c b w .visit .running (dequeue c s)

theorem orderOnly_begun (c : Nat) (b : Line) (w : Work) (s : State) : OrderOnly s (begun c b w s) :=
  orderOnly_activate c b w .visit .running s

theorem StartsWork.stands_begun (h : StartsWork cmd c b s) (w : Work) :
    Stands c (takenChannel (chan s c)) (firstVisit b w) s (begun c b w s) :=
  h.stands rfl ⟨by simp, by simp, by simp, by simp, by simp⟩ w .visit .running

/-- A command whose first granule's line is not cached waits for its fill, whatever has changed as it was taken
(R51). -/
theorem StartsWork.visit_misses {w : Work} {f : TagRecord → State → State} (h : StartsWork cmd c b s) (hc : c < 4)
    (hu : Stands c (takenChannel (chan s c)) (firstVisit b w) s u) (hways : u.ways = s.ways)
    (hstep : chanStep c (firstVisit b w) u = withRecord c g f u) (hrec : recordAt s g = none) :
    StartsWithFill c b w .visit g s (finish (issueProduced s (settle u))) ∧
      settle u = joinFill (g / 4) (goWait c (.fill (g / 4)) u) := by
  have hidle := h.nothingWaits hc
  obtain ⟨hcome, hstands, hv⟩ := hu.misses (f := f) h.quiet hc hidle
    ((recordAt_congr hways g).trans hrec) rfl
  have hsettle := settle_to (hu.step h.quiet hc hidle rfl (by rw [hstep]; exact hcome)) (by decide)
  rw [hsettle, hv]
  rw [hv] at hstands
  refine ⟨⟨(hstands.issued s).starts, by simp [hways], ?_⟩, rfl⟩
  rcases joinFill_joined (g / 4) (goWait c (.fill (g / 4)) u) with hfill | hwaits
  · exact .inl (by simpa using issueProduced_filled (old := s) hfill)
  · exact .inr (by simpa using hwaits)

/-- A command without a table of its own that stops at its first granule's cached record has changed nothing (R114,
R170). -/
theorem StartsWork.begun_stops {w : Work} {f : TagRecord → State → State} {rec : TagRecord} {res : Result} {p : Report}
    (h : StartsWork cmd c b s) (hc : c < 4)
    (hstep : chanStep c (firstVisit b w) (begun c b w s) = withRecord c g f (begun c b w s))
    (hrec : recordAt s g = some rec) (hclean : ∀ u, cleanUp c w u = u)
    (hstop : ∀ k, f rec (touch k (begun c b w s)) = stopWork c res (touch k (begun c b w s)))
    (hreport : ∀ k, reportOf (firstVisit b w) (touch k (begun c b w s)) = p) :
    StopsAtOnce c b res p s (finish (issueProduced s (settle (begun c b w s)))) := by
  have hbegun := orderOnly_begun c b w s
  obtain ⟨k, v, hcome, hdone, hproduced, horder⟩ := (h.stands_begun w).stops h.quiet hc (h.nothingWaits hc) h.warm rfl
    hstep ((hbegun.recordAt g).trans hrec) hstop (fun k => (congrArg _ (hclean _)).trans (hreport k))
  rw [settle_to hcome (by decide), issueProduced_same v (hproduced.trans hbegun.produced)]
  replace horder := (hclean (touch k (begun c b w s))) ▸ horder
  exact ⟨h.endsAtOnce_of_completed hdone, (hbegun.touch k).trans horder⟩

/-! ### The drain of a claimed granule (R85, R112, R115) -/

/-- The part with the drain of channel c's granule g in progress, which counts the transactions on it (R85). -/
def drainBegun (c g : Nat) (u : State) : State :=
  { u with drains := u.drains ++ [counting (.command c) (fun x _ => x == g) u] }

theorem counting_ne_empty (x : DrainUser) (hn : ¬NoTraffic g u) :
    ¬((counting x (fun y _ => y == g) u).members.isEmpty && !(counting x (fun y _ => y == g) u).held) = true := by
  contrapose! hn
  obtain ⟨hmembers, hheld⟩ : (∀ p ∈ u.inFlight, p.2.granule ≠ g) ∧ ∀ y, u.stage = some y → y.granule ≠ g := by
    cases hstage : u.stage <;> simpa [counting, hstage] using hn
  exact ⟨hmembers, hheld⟩

/-- With a transaction on the granule, its drain begins and counts it (R85, R112). -/
theorem startGranuleDrain_waits (hn : ¬NoTraffic g u) :
    startGranuleDrain c g u = goPhase c .drain .drain (drainBegun c g u) := by
  have hkey : keyMatches (.granule g) = fun x _ => x == g := rfl
  have hbegin : beginDrain (.command c) (.granule g) u = drainBegun c g u := by
    rw [beginDrain_eq, hkey, if_neg (counting_ne_empty (.command c) hn), drainBegun]
  have hwaits : drained (drainBegun c g u) (.command c) = false :=
    not_drained_of_mem (d := counting (.command c) (fun x _ => x == g) u) (List.mem_append_right _ (by simp)) rfl
  rw [startGranuleDrain, hbegin, hwaits]
  rfl

/-- A sound record under the command's own claim lets it go on (R115). -/
theorem laterStop_claimed {rec : TagRecord} (hretire : isRetire a.work = false) (hclaim : ownClaim u c g = true)
    (hsound : rec.state ≠ .gPoisoned) : laterStop c g a rec u = none := by
  unfold laterStop
  rw [hclaim]
  cases hwork : a.work <;> simp_all [isRetire]

/-- The lookup after the drain lets a command that zeroes ask for a Scrub Unit (R112, R115). -/
theorem afterDrain_asks {rec : TagRecord} (hzeroes : zeroes a.work = true) (hretire : isRetire a.work = false)
    (hlater : laterStop c (granuleAt a.work) a rec u = none) : afterDrain c a rec u = goPhase c .unit .unit u := by
  rw [afterDrain, hlater]
  dsimp only
  rw [if_pos hzeroes]
  cases hwork : a.work with
  | retire r => simp [hwork, isRetire] at hretire
  | _ => rfl

/-- A drained granule's command asks for a Scrub Unit in its next step (R112, R115). -/
theorem Stands.asks {rec : TagRecord} (h : Stands c ch a s u) (hq : Quiet s) (hc : c < 4) (hch : NothingWaits ch)
    (hphase : a.phase = .afterDrain) (hwait : a.wait = .running) (hzeroes : zeroes a.work = true)
    (hretire : isRetire a.work = false) (hrec : recordAt u (granuleAt a.work) = some rec)
    (hlater : ∀ k, laterStop c (granuleAt a.work) a rec (Machine.touch k u) = none) :
    ∃ v, ComesTo 1 u v ∧ Stands c ch { a with phase := .unit, wait := .unit } s v ∧ OrderOnly u v := by
  obtain ⟨k, hk⟩ := chanStep_afterDrain (c := c) hphase hrec
  have hunit := (h.touch k).goPhase .unit .unit
  refine ⟨_, h.step hq hc hch hwait ?_, hunit, OrderOnly.refl u⟩
  rw [hk, afterDrain_asks hzeroes hretire (hlater k)]
  exact .here ((hunit.at hch).quiet hq hc rfl)

/-! ### A command that has claimed its first granule (R112, R113) -/

/-- In w work command W, taken with block b, has claimed granule g at its first visit; what its drain goes by stands as
in s. -/
structure FirstClaim (c : Nat) (b : Line) (W : Work) (g : Nat) (s w : State) : Prop where
  stands   : Stands c { takenChannel (chan s c) with claim := some g } (firstVisit b W) s w
  inFlight : w.inFlight = s.inFlight
  stage    : w.stage = s.stage
  drains   : w.drains = s.drains
  produced : w.produced = s.produced

section
variable {W : Work} {w : State}

theorem FirstClaim.noTraffic (h : FirstClaim c b W g s w) : NoTraffic g w ↔ NoTraffic g s := by
  rw [NoTraffic, NoTraffic, h.inFlight, h.stage]

theorem FirstClaim.noDrain {x : DrainUser} (h : FirstClaim c b W g s w) : NoDrain x w ↔ NoDrain x s := by
  rw [NoDrain, NoDrain, h.drains]

theorem FirstClaim.drainBegun_drains (h : FirstClaim c b W g s w) :
    (drainBegun c g w).drains = s.drains ++ [counting (.command c) (fun x _ => x == g) s] := by
  rw [drainBegun, h.drains, counting, h.inFlight, h.stage, counting]

/-- With a transaction on its granule the command waits for its drain (R85, R112). -/
theorem FirstClaim.waits (k : FirstClaim c b W g s w) (h : StartsWork cmd c b s) (hc : c < 4)
    (hstep : chanStep c (firstVisit b W) (begun c b W s) = startGranuleDrain c g w) (hn : ¬NoTraffic g s) :
    Starts c b W .drain .drain (some g) s (finish (issueProduced s (settle (begun c b W s)))) ∧
      OrderOnly (drainBegun c g w) (finish (issueProduced s (settle (begun c b W s)))) := by
  rw [startGranuleDrain_waits (mt k.noTraffic.1 hn)] at hstep
  have hbegun : Stands c { takenChannel (chan s c) with claim := some g } (firstVisit b W) s (drainBegun c g w) :=
    k.stands.congr rfl ⟨rfl, rfl, rfl, rfl, rfl⟩
  have hwaits := hbegun.goPhase .drain .drain
  have hproduced : (goPhase c .drain .drain (drainBegun c g w)).produced = s.produced := k.produced
  have hidle := h.nothingWaits hc
  have hcome : ComesTo 1 (begun c b W s) (goPhase c .drain .drain (drainBegun c g w)) :=
    (h.stands_begun W).step h.quiet hc hidle rfl
      (by rw [hstep]; exact .here ((hwaits.at hidle).quiet h.quiet hc rfl))
  rw [settle_to hcome (by decide), issueProduced_same _ hproduced]
  exact ⟨hwaits.startsClaimed, ((OrderOnly.refl _).goPhase c _ _).finish⟩

/-- With none it asks for a Scrub Unit, unless the lookup after the drain stops it (R112, R115). -/
theorem FirstClaim.asks {rec : TagRecord} (k : FirstClaim c b W g s w) (h : StartsWork cmd c b s) (hc : c < 4)
    (hstep : chanStep c (firstVisit b W) (begun c b W s) = startGranuleDrain c g w) (hn : NoTraffic g s)
    (hno : NoDrain (.command c) s) (hgranule : granuleAt W = g) (hrec : recordAt w g = some rec)
    (hzeroes : zeroes W = true) (hretire : isRetire W = false)
    (hlater : ∀ a u, a.work = W → ownClaim u c g = true → laterStop c g a rec u = none) :
    Starts c b W .unit .unit (some g) s (finish (issueProduced s (settle (begun c b W s)))) ∧
      OrderOnly w (finish (issueProduced s (settle (begun c b W s)))) := by
  rw [startGranuleDrain_none (k.noTraffic.2 hn) (k.noDrain.2 hno)] at hstep
  have hidle := h.nothingWaits hc
  have hdrained := k.stands.goPhase .afterDrain .running
  obtain ⟨v, hcome, hunit, horder⟩ := hdrained.asks (rec := rec) h.quiet hc hidle rfl rfl hzeroes hretire
    (hgranule.symm ▸ hrec) (fun x => hgranule.symm ▸ hlater _ _ rfl ((hdrained.touch x).ownClaim rfl))
  have hcome' : ComesTo 2 (begun c b W s) v :=
    (h.stands_begun W).step h.quiet hc hidle rfl (by rw [hstep]; exact hcome)
  rw [settle_to hcome' (by decide), issueProduced_same _ (horder.produced.trans k.produced)]
  exact ⟨hunit.startsClaimed, (((OrderOnly.refl w).goPhase c _ _).trans horder).finish⟩

end

/-! ### The end of a granule and of a range (R112, R114) -/

theorem afterDrain_finishes {rec : TagRecord} (hzeroes : zeroes a.work = false)
    (hlater : laterStop c (granuleAt a.work) a rec u = none) :
    afterDrain c a rec u = finishGranule c (granuleAt a.work) a.work rec u := by
  rw [afterDrain, hlater]
  dsimp only
  rw [if_neg (by simp [hzeroes])]

/-- A finished granule's command has released its claim and is to visit the next (R112). -/
theorem Stands.nextGranule (h : Stands c ch a s u) (W : Work) :
    Stands c { ch with claim := none } { a with work := W, phase := .visit, wait := .running } s
      (nextGranule c W u) :=
  ((h.setClaim none).goWork W).goPhase .visit .running

/-- A command at the end of its range is done (R112, R114). -/
theorem Stands.range_ends (h : Stands c ch a s u) (hq : Quiet s) (hc : c < 4) (hch : NothingWaits ch)
    (hwarm : s.warm = none) (hwait : a.wait = .running) (hdone : chanStep c a u = doneWork c u) :
    ∃ v, ComesTo 2 u v ∧ Completed c ch a.block .done (reportOf a u) s (finish v) ∧
      v.produced = u.produced ∧ OrderOnly u (finish v) := by
  obtain ⟨v, hcome, hcompleted, hproduced, horder⟩ := h.ends (res := .done) (p := reportOf a u) hq hc hch hwarm
  refine ⟨v, h.step hq hc hch hwait ?_, hcompleted, hproduced, horder⟩
  rw [hdone, doneWork_eq h.active]
  exact hcome

theorem orderOnly_nextGranule (c : Nat) (W : Work) (u : State) : OrderOnly u (nextGranule c W u) :=
  (((OrderOnly.refl u).setClaim c none).goWork c W).goPhase c .visit .running

end Sys2Proof.Machine
end

section
/-!
PROOFS. ASSIGN (R116 to R118): its tests in their order, the claim of an OPEN granule with its drain, and option KEEP of
an idle granule: O53.
-/

namespace Sys2Proof.Machine
variable {s t u v w : State} {c d f n g : Nat} {b : Line} {a : Active} {ch : Channel} {keep : Bool} {rec : TagRecord}

/-! ### The tests of ASSIGN (R116, R117) -/

theorem assignable_iff (x : DState) :
    assignable x = true ↔ ¬(x ≠ .preparing ∧ x ≠ .running ∧ x ≠ .paused) := by
  cases x <;> simp [assignable]

/-- The work of ASSIGN as it starts (R116). -/
def assignWork (b : Line) : Work := .assign (wordA b) (wordB b) (wordC b) (wordD b == 2) 0

/-- What ASSIGN and RELEASE report of a refusal or of a stop at their first granule (R116, R119; log entry 17). -/
def rangeReport (b : Line) (s : State) : Report :=
  { remaining := wordC b, next := wordB b, w0 := (dom s (wordA b)).owned, w1 := (dom s (wordA b)).quota }

theorem refusal_assign_dequeue (c : Nat) (b : Line) (s : State) :
    refusal .assign b (dequeue c s) = rangeReport b s := by
  simp only [refusal, dom_dequeue, rangeReport]

/-- ASSIGN's start: three refusals in their order, or the first visit (R116). -/
theorem doAssign_dequeue (c : Nat) (b : Line) (s : State) : doAssign c b (dequeue c s) =
    if wordA b = 0 ∨ 511 < wordA b ∨ (wordD b ≠ 1 ∧ wordD b ≠ 2) ∨ RangeRefused s (wordB b) (wordC b) then
      refuse c b .parameter (rangeReport b s) (dequeue c s)
    else if (dom s (wordA b)).state ≠ .preparing ∧ (dom s (wordA b)).state ≠ .running ∧
        (dom s (wordA b)).state ≠ .paused then
      refuse c b .domainState (rangeReport b s) (dequeue c s)
    else if wordD b = 2 ∧ (dom s (wordA b)).state ≠ .preparing then
      refuse c b .keepNotAllowed (rangeReport b s) (dequeue c s)
    else begun c b (assignWork b) s := by
  simp only [doAssign, rangeBad_dequeue, rangeBad_iff, dom_dequeue, refusal_assign_dequeue, Bool.not_eq_true',
    ← Bool.not_eq_true, assignable_iff, not_not]
  rfl

/-- The tests that ASSIGN applies to a granule once its domain may take one (R117). -/
theorem assignTest_eq (hstate : assignable (dom s d).state = true)
    (hkeep : ¬(keep = true ∧ (dom s d).state ≠ .preparing)) : assignTest d g keep rec s =
    if (dom s d).quota ≤ (dom s d).owned then some .quotaReached
    else if InSomeRegion s g then some .regionConflict
    else if Busy s g rec then some .granuleBusy
    else if rec.state ≠ .gOpen then some .granuleState
    else none := by
  have hkeep' : ¬(keep && (dom s d).state != .preparing) = true := by simpa using hkeep
  simp only [assignTest, hstate, Bool.not_true, Bool.false_eq_true, if_false, if_neg hkeep', inRegionEntry_iff,
    busy_iff]

/-- The tests see the domain's entry, the Region Table and the claims only. -/
theorem assignTest_congr (hdom : dom u d = dom s d) (hregion : ∀ i, regionOf u i = regionOf s i)
    (hclaimed : claimed u g = claimed s g) : assignTest d g keep rec u = assignTest d g keep rec s := by
  have hentry : inRegionEntry u g = inRegionEntry s g := by
    rw [Bool.eq_iff_iff, inRegionEntry_iff, inRegionEntry_iff, InSomeRegion, InSomeRegion]
    simp only [hregion]
  rw [assignTest, assignTest, hdom, hentry, granuleBusy, granuleBusy, hclaimed]

/-! ### ASSIGN's first visit (R117, R118) -/

theorem chanStep_assign_visit (hn : wordC b ≠ 0) (u : State) : chanStep c (firstVisit b (assignWork b)) u =
    withRecord c (wordB b) (assignVisit c (wordA b) (wordB b) (wordD b == 2)) u :=
  if_neg (Ne.symm hn)

theorem reportOf_assign (ha : a.work = .assign d f n keep g) (u : State) : reportOf a u =
    { finished := g, remaining := n - g, next := f + g, w0 := (dom u d).owned, w1 := (dom u d).quota } := by
  rw [reportOf, ha]

/-- The record of a granule that ASSIGN has taken for domain d, before its zeroing and after it (R117, R118). -/
def assignedRecord (d : Nat) (st : GState) : TagRecord :=
  { owner := some d, state := st, pinned := false, dirty := false, count := 0 }

/-- The part once ASSIGN has changed its granule's record, counted it and claimed it (R98, R117). -/
def assigned (c d g : Nat) (u : State) : State :=
  setClaim c (some g) (setDom d { dom u d with owned := (dom u d).owned + 1 }
    (putRecord g (assignedRecord d .gClearingIn) u))

theorem assignVisit_claims (htest : assignTest d g keep rec u = none) :
    assignVisit c d g keep rec u = startGranuleDrain c g (assigned c d g u) := by
  rw [assignVisit, htest]
  dsimp only
  rw [dom_putRecord]
  rfl

theorem assignVisit_stops {res : Result} (htest : assignTest d g keep rec u = some res) :
    assignVisit c d g keep rec u = stopWork c res u := by
  rw [assignVisit, htest]

theorem recordNow_assigned (horder : OrderOnly s u) (hrec : recordAt s g = some rec) :
    RecordNow g (assignedRecord d .gClearingIn) s (assigned c d g u) :=
  (recordNow_putRecord ((horder.recordAt g).trans hrec)).congr horder.ways.symm rfl

theorem DomainNow.congr {e : Domain} {s' t' : State} (h : DomainNow d e s t) (hs : s.domains = s'.domains)
    (ht : t'.domains = t.domains) : DomainNow d e s' t' :=
  ⟨(dom_congr ht d).trans h.1, fun y hy => (dom_congr ht y).trans ((h.2 y hy).trans (dom_congr hs y))⟩

theorem domainNow_assigned (horder : OrderOnly s u) :
    DomainNow d { dom s d with owned := (dom s d).owned + 1 } s (assigned c d g u) := by
  constructor
  · rw [assigned, dom_setClaim, dom_setDom_same, horder.dom]
  · intro x hx
    rw [assigned, dom_setClaim, dom_setDom, if_neg hx, dom_putRecord, horder.dom]

theorem firstClaim_assigned {W : Work} (h : Stands c (takenChannel (chan s c)) (firstVisit b W) s u)
    (horder : OrderOnly s u) : FirstClaim c b W g s (assigned c d g u) where
  stands := ((h.putRecord g (assignedRecord d .gClearingIn)).congr (v := setDom d _ _) rfl
    ⟨rfl, rfl, rfl, rfl, rfl⟩).setClaim (some g)
  inFlight := by simp [assigned, horder.inFlight]
  stage := by simp [assigned, horder.stage]
  drains := by simp [assigned, horder.drains]
  produced := by simp [assigned, horder.produced]

theorem finishGranule_assign (c d f n : Nat) (keep : Bool) (k g : Nat) (rec : TagRecord) (u : State) :
    finishGranule c g (.assign d f n keep k) rec u =
      nextGranule c (.assign d f n keep (k + 1)) (putRecord g (assignedRecord d .gPrivate) u) := rfl

theorem chanStep_assign_end (hphase : a.phase = .visit) (hwork : a.work = .assign d f n keep n) (u : State) :
    chanStep c a u = doneWork c u := by
  rw [chanStep, hphase]
  dsimp only
  rw [hwork]
  dsimp only
  rw [visitStep, hwork]
  exact if_pos rfl

/-- An ASSIGN that finishes the last granule of its range is done (R112, R118). -/
theorem assign_range_ends {k : Nat} (h : Stands c ch a s u) (hq : Quiet s) (hc : c < 4) (hch : NothingWaits ch)
    (hwarm : s.warm = none) (hrec : recordAt u g = some rec) :
    ∃ v, ComesTo 2 (finishGranule c g (.assign d f (k + 1) keep k) rec u) v ∧
      Completed c ch a.block .done
        { finished := k + 1, next := f + (k + 1), w0 := (dom u d).owned, w1 := (dom u d).quota } s (finish v) ∧
      v.produced = u.produced ∧ RecordNow g (assignedRecord d .gPrivate) u (finish v) ∧
      OrderOnly (putRecord g (assignedRecord d .gPrivate) u) (finish v) := by
  have hput := recordNow_putRecord (r' := assignedRecord d .gPrivate) hrec
  have hdom : dom (putRecord g (assignedRecord d .gPrivate) u) d = dom u d := dom_putRecord ..
  have hproduced : (putRecord g (assignedRecord d .gPrivate) u).produced = u.produced := putRecord_produced ..
  have hstands := h.putRecord g (assignedRecord d .gPrivate)
  rw [finishGranule_assign]
  generalize putRecord g (assignedRecord d .gPrivate) u = w at hput hdom hproduced hstands ⊢
  have hnext := orderOnly_nextGranule c (.assign d f (k + 1) keep (k + 1)) w
  obtain ⟨v, hcome, hdone, hp, horder⟩ :=
    (hstands.nextGranule (.assign d f (k + 1) keep (k + 1))).range_ends hq hc hch hwarm rfl
      (chanStep_assign_end rfl rfl _)
  rw [reportOf_assign rfl, hnext.dom, hdom, Nat.sub_self] at hdone
  exact ⟨v, hcome, hdone, hp.trans (hnext.produced.trans hproduced), hput.congr rfl (horder.ways.trans hnext.ways),
    hnext.trans horder⟩

/-- With option KEEP a granule without traffic is PRIVATE at once, and a range of it alone is done (R117, R118). -/
theorem assign_keeps (h : StartsWork .assign c b s) (hc : c < 4) (hkeep : wordD b = 2) (hone : wordC b = 1)
    (k : FirstClaim c b (assignWork b) (wordB b) s w) (hn : NoTraffic (wordB b) s) (hno : NoDrain (.command c) s)
    (hstep : chanStep c (firstVisit b (assignWork b)) (begun c b (assignWork b) s) = startGranuleDrain c (wordB b) w)
    (hrec : recordAt w (wordB b) = some rec) (hsound : rec.state ≠ .gPoisoned)
    (ht : t = finish (issueProduced s (settle (begun c b (assignWork b) s)))) :
    RecordNow (wordB b) (assignedRecord (wordA b) .gPrivate) w t ∧
      EndsAtOnce c b .done
        { finished := 1, next := wordB b + 1, w0 := (dom w (wordA b)).owned, w1 := (dom w (wordA b)).quota } s t ∧
      t.drains = s.drains ∧ t.domains = w.domains := by
  rw [startGranuleDrain_none (k.noTraffic.2 hn) (k.noDrain.2 hno)] at hstep
  have hidle := h.nothingWaits hc
  have hdrained := k.stands.goPhase .afterDrain .running
  obtain ⟨x, hx⟩ := chanStep_afterDrain (c := c) (u := goPhase c .afterDrain .running w)
    (a := { firstVisit b (assignWork b) with phase := .afterDrain, wait := .running }) rfl hrec
  have hwork : assignWork b = .assign (wordA b) (wordB b) 1 true 0 := by
    rw [assignWork, hkeep, hone]
    rfl
  rw [afterDrain_finishes (by simp [firstVisit, hwork, zeroes])
    (laterStop_claimed (by simp [firstVisit, hwork, isRetire]) ((hdrained.touch x).ownClaim rfl) hsound)] at hx
  obtain ⟨v, hcome, hdone, hproduced, hnow, horder⟩ := assign_range_ends (hdrained.touch x) (d := wordA b) (f := wordB b)
    (k := 0) (keep := true) (g := wordB b) h.quiet hc hidle h.warm hrec
  have hchain : ComesTo 4 (begun c b (assignWork b) s) v := by
    refine (h.stands_begun _).step h.quiet hc hidle rfl ?_
    rw [hstep]
    refine hdrained.step h.quiet hc hidle rfl ?_
    rw [hx]
    show ComesTo 2 (finishGranule c (granuleAt (assignWork b)) (assignWork b) rec _) v
    rw [hwork]
    exact hcome
  rw [settle_to hchain (by decide), issueProduced_same v (hproduced.trans k.produced)] at ht
  subst ht
  exact ⟨hnow, h.endsAtOnce_of_completed hdone, horder.drains.trans ((putRecord_drains ..).trans k.drains),
    horder.domains.trans (putRecord_domains ..)⟩

/-! ### ASSIGN's row -/

/-- The state at the end of the step in which ASSIGN has passed its start tests. -/
def assignRow (c : Nat) (b : Line) (s : State) : State := finish (issueProduced s (settle (begun c b (assignWork b) s)))

theorem touch_begun_assignTest {cmd : Cmd} (h : StartsWork cmd c b s) (W : Work) (k : Nat) :
    assignTest d g keep rec (touch k (begun c b W s)) = assignTest d g keep rec s := by
  have horder := (orderOnly_begun c b W s).touch k
  exact assignTest_congr (horder.dom d) horder.regionOf (((h.stands_begun W).touch k).claimed rfl g)

theorem assign_stops {res : Result} (h : StartsWork .assign c b s) (hc : c < 4) (hn : wordC b ≠ 0)
    (hrec : recordAt s (wordB b) = some rec)
    (htest : assignTest (wordA b) (wordB b) (wordD b == 2) rec s = some res) :
    StopsAtOnce c b res (rangeReport b s) s (assignRow c b s) := by
  refine h.begun_stops hc (chanStep_assign_visit hn _) hrec (fun _ => rfl)
    (fun k => assignVisit_stops ((touch_begun_assignTest h _ k).trans htest)) fun k => ?_
  have horder := (orderOnly_begun c b (assignWork b) s).touch k
  rw [reportOf_assign rfl, horder.dom, Nat.sub_zero, Nat.add_zero]
  rfl

theorem assign_misses (h : StartsWork .assign c b s) (hc : c < 4) (hn : wordC b ≠ 0)
    (hrec : recordAt s (wordB b) = none) :
    StartsWithFill c b (assignWork b) .visit (wordB b) s (assignRow c b s) :=
  (h.visit_misses hc (h.stands_begun _) (orderOnly_begun c b _ s).ways (chanStep_assign_visit hn _) hrec).1

/-- ASSIGN of an OPEN granule that passes every test, from its claim to its drain, to the wait for a Scrub Unit or, with
option KEEP, to the end of its range (R98, R112, R117, R118). -/
theorem assign_claims (h : StartsWork .assign c b s) (hc : c < 4) (hn : wordC b ≠ 0)
    (hrec : recordAt s (wordB b) = some rec) (htest : assignTest (wordA b) (wordB b) (wordD b == 2) rec s = none)
    (hno : NoDrain (.command c) s) (ht : t = assignRow c b s) :
    (wordD b = 1 ∨ ¬NoTraffic (wordB b) s →
      RecordNow (wordB b) (assignedRecord (wordA b) .gClearingIn) s t ∧
      DomainNow (wordA b) { dom s (wordA b) with owned := (dom s (wordA b)).owned + 1 } s t ∧
      if NoTraffic (wordB b) s then
        Starts c b (.assign (wordA b) (wordB b) (wordC b) false 0) .unit .unit (some (wordB b)) s t ∧
          t.drains = s.drains
      else
        Starts c b (assignWork b) .drain .drain (some (wordB b)) s t ∧
          t.drains = s.drains ++ [counting (.command c) (fun g _ => g == wordB b) s]) ∧
    (wordD b = 2 → wordC b = 1 → NoTraffic (wordB b) s →
      RecordNow (wordB b) (assignedRecord (wordA b) .gPrivate) s t ∧
      DomainNow (wordA b) { dom s (wordA b) with owned := (dom s (wordA b)).owned + 1 } s t ∧
      EndsAtOnce c b .done
        { finished := 1, next := wordB b + 1, w0 := (dom s (wordA b)).owned + 1, w1 := (dom s (wordA b)).quota } s t ∧
      t.drains = s.drains) := by
  obtain ⟨k, hk⟩ := withRecord_hit (c := c) (f := assignVisit c (wordA b) (wordB b) (wordD b == 2))
    (((orderOnly_begun c b (assignWork b) s).recordAt (wordB b)).trans hrec)
  have horder := (orderOnly_begun c b (assignWork b) s).touch k
  have hstands := (h.stands_begun (assignWork b)).touch k
  have hstep := chanStep_assign_visit (c := c) hn (begun c b (assignWork b) s)
  rw [hk, assignVisit_claims ((touch_begun_assignTest h _ k).trans htest)] at hstep
  have hnow := recordNow_assigned (c := c) (d := wordA b) horder hrec
  have hdomain := domainNow_assigned (c := c) (d := wordA b) (g := wordB b) horder
  have hclaim := firstClaim_assigned (d := wordA b) (g := wordB b) hstands horder
  generalize assigned c (wordA b) (wordB b) (touch k (begun c b (assignWork b) s)) = w at *
  subst ht
  refine ⟨fun hwaits => ?_, fun hkeep hone hquiet => ?_⟩
  · split
    next hquiet =>
      have hscrub : (wordD b == 2) = false := by
        have hone : wordD b = 1 := hwaits.resolve_right (not_not_intro hquiet)
        simp [hone]
      have hwork : assignWork b = .assign (wordA b) (wordB b) (wordC b) false 0 := by rw [assignWork, hscrub]
      obtain ⟨hstarts, hkept⟩ := hclaim.asks h hc hstep hquiet hno rfl hnow.1 (by rw [hwork]; rfl) rfl
        (fun a u ha hown => laterStop_claimed (by rw [ha]; rfl) hown nofun)
      rw [← hwork]
      exact ⟨hnow.congr rfl hkept.ways, hdomain.congr rfl hkept.domains, hstarts, hkept.drains.trans hclaim.drains⟩
    next hbusy =>
      obtain ⟨hstarts, hkept⟩ := hclaim.waits h hc hstep hbusy
      exact ⟨hnow.congr rfl hkept.ways, hdomain.congr rfl hkept.domains, hstarts, hkept.drains.trans hclaim.drainBegun_drains⟩
  · obtain ⟨hprivate, hends, hdrains, hdomains⟩ :=
      assign_keeps h hc hkeep hone hclaim hquiet hno hstep hnow.1 nofun rfl
    rw [hdomain.1] at hends
    exact ⟨hnow.trans hprivate, hdomain.congr rfl hdomains, hends, hdrains⟩

/-- Settles O53: the start tests in their order, and at a cached record the tests of R117 with the claim. -/
theorem assignClaimsAnOpenGranule : Obligations.AssignClaimsAnOpenGranule := by
  rintro c b s _ _ _ h rfl rfl rfl
  obtain ⟨u, hu⟩ : ∃ u, u = runCommand .assign c.val b (dequeue c.val s) := ⟨_, rfl⟩
  refine ⟨finish (issueProduced s (settle u)), by rw [exec_assign, h.row, hu], ?_⟩
  replace hu := hu.trans (doAssign_dequeue c.val b s)
  split
  next hparam => rw [if_pos hparam] at hu; subst hu; exact h.refused_end c.isLt _ _
  next hparam =>
    rw [if_neg hparam] at hu
    split
    next hstate => rw [if_pos hstate] at hu; subst hu; exact h.refused_end c.isLt _ _
    next hstate =>
      rw [if_neg hstate] at hu
      split
      next hkeep => rw [if_pos hkeep] at hu; subst hu; exact h.refused_end c.isLt _ _
      next hkeep =>
        rw [if_neg hkeep] at hu
        subst hu
        have hcount : wordC b ≠ 0 := fun hzero => hparam (.inr (.inr (.inr (.inl hzero))))
        split
        next hrec => exact assign_misses h c.isLt hcount hrec
        next rec hrec =>
          have htests := assignTest_eq (g := wordB b) (rec := rec) ((assignable_iff _).2 hstate)
            (keep := wordD b == 2) (by simpa using hkeep)
          split
          next hquota => exact assign_stops h c.isLt hcount hrec (htests.trans (if_pos hquota))
          next hquota =>
            rw [if_neg hquota] at htests
            split
            next hregion => exact assign_stops h c.isLt hcount hrec (htests.trans (if_pos hregion))
            next hregion =>
              rw [if_neg hregion] at htests
              split
              next hbusy => exact assign_stops h c.isLt hcount hrec (htests.trans (if_pos hbusy))
              next hbusy =>
                rw [if_neg hbusy] at htests
                split
                next hopen => exact assign_stops h c.isLt hcount hrec (htests.trans (if_pos hopen))
                next hopen =>
                  exact fun hno => assign_claims h c.isLt hcount hrec (htests.trans (if_neg hopen)) hno rfl

end Sys2Proof.Machine
end

section
/-!
PROOFS. RELEASE and RESTORE (R119, R120, R123): their tests in their order and the claim of their granule with its
drain: O54.
-/

namespace Sys2Proof.Machine
variable {s t u v w : State} {c d f n g : Nat} {b : Line} {a : Active} {ch : Channel} {rec : TagRecord}

/-! ### The tests of RELEASE (R119, R120) -/

theorem releasable_iff (x : DState) : releasable x = true ↔ ¬(x = .free ∨ x = .retiring ∨ x = .root) := by
  cases x <;> simp [releasable, assignable]

/-- The work of RELEASE as it starts (R119). -/
def releaseWork (b : Line) : Work := .release (wordA b) (wordB b) (wordC b) 0

theorem refusal_release_dequeue (c : Nat) (b : Line) (s : State) :
    refusal .release b (dequeue c s) = rangeReport b s := by
  simp only [refusal, dom_dequeue, rangeReport]

/-- RELEASE's start: two refusals in their order, or the first visit (R119). -/
theorem doRelease_dequeue (c : Nat) (b : Line) (s : State) : doRelease c b (dequeue c s) =
    if wordA b = 0 ∨ 511 < wordA b ∨ RangeRefused s (wordB b) (wordC b) then
      refuse c b .parameter (rangeReport b s) (dequeue c s)
    else if (dom s (wordA b)).state = .free ∨ (dom s (wordA b)).state = .retiring ∨
        (dom s (wordA b)).state = .root then
      refuse c b .domainState (rangeReport b s) (dequeue c s)
    else begun c b (releaseWork b) s := by
  simp only [doRelease, rangeBad_dequeue, rangeBad_iff, dom_dequeue, refusal_release_dequeue, Bool.not_eq_true',
    ← Bool.not_eq_true, releasable_iff, not_not]
  rfl

/-- The tests that RELEASE applies to a granule once its domain may give one back (R120). -/
theorem releaseTest_eq (hstate : releasable (dom s d).state = true) : releaseTest d g rec s =
    if Busy s g rec then some .granuleBusy
    else if rec.state ≠ .gPrivate ∨ rec.owner ≠ some d then some .granuleState
    else if rec.pinned = true then some .granulePinned
    else if rec.count ≠ 0 then some .granuleShared
    else none := by
  simp only [releaseTest, hstate, Bool.not_true, Bool.false_eq_true, if_false, busy_iff]

/-! ### RELEASE's first visit (R120) -/

theorem chanStep_release_visit (hn : wordC b ≠ 0) (u : State) : chanStep c (firstVisit b (releaseWork b)) u =
    withRecord c (wordB b) (releaseVisit c (wordA b) (wordB b)) u :=
  if_neg (Ne.symm hn)

theorem reportOf_release (ha : a.work = .release d f n g) (u : State) : reportOf a u =
    { finished := g, remaining := n - g, next := f + g, w0 := (dom u d).owned, w1 := (dom u d).quota } := by
  rw [reportOf, ha]

/-- The part once RELEASE has changed its granule's record and claimed it (R120). -/
def releasing (c g : Nat) (rec : TagRecord) (u : State) : State :=
  setClaim c (some g) (putRecord g { rec with state := .gClearingOut } u)

theorem releaseVisit_claims (htest : releaseTest d g rec u = none) :
    releaseVisit c d g rec u = startGranuleDrain c g (releasing c g rec u) := by
  rw [releaseVisit, htest]
  rfl

theorem releaseVisit_stops {res : Result} (htest : releaseTest d g rec u = some res) :
    releaseVisit c d g rec u = stopWork c res u := by
  rw [releaseVisit, htest]

theorem firstClaim_releasing {W : Work} (h : Stands c (takenChannel (chan s c)) (firstVisit b W) s u)
    (horder : OrderOnly s u) : FirstClaim c b W g s (releasing c g rec u) where
  stands := (h.putRecord g { rec with state := .gClearingOut }).setClaim (some g)
  inFlight := by simp [releasing, horder.inFlight]
  stage := by simp [releasing, horder.stage]
  drains := by simp [releasing, horder.drains]
  produced := by simp [releasing, horder.produced]

theorem recordNow_releasing (horder : OrderOnly s u) (hrec : recordAt s g = some rec) :
    RecordNow g { rec with state := .gClearingOut } s (releasing c g rec u) :=
  (recordNow_putRecord ((horder.recordAt g).trans hrec)).congr horder.ways.symm rfl

theorem dom_releasing (horder : OrderOnly s u) (x : Nat) : dom (releasing c g rec u) x = dom s x := by
  rw [releasing, dom_setClaim, dom_putRecord, horder.dom]

/-! ### RELEASE's row -/

/-- The state at the end of the step in which RELEASE has passed its start tests. -/
def releaseRow (c : Nat) (b : Line) (s : State) : State :=
  finish (issueProduced s (settle (begun c b (releaseWork b) s)))

theorem touch_begun_releaseTest {cmd : Cmd} (h : StartsWork cmd c b s) (W : Work) (k : Nat) :
    releaseTest d g rec (touch k (begun c b W s)) = releaseTest d g rec s := by
  have hclaimed := ((h.stands_begun W).touch k).claimed rfl g
  rw [releaseTest, releaseTest, ((orderOnly_begun c b W s).touch k).dom, granuleBusy, granuleBusy, hclaimed]

theorem release_stops {res : Result} (h : StartsWork .release c b s) (hc : c < 4) (hn : wordC b ≠ 0)
    (hrec : recordAt s (wordB b) = some rec) (htest : releaseTest (wordA b) (wordB b) rec s = some res) :
    StopsAtOnce c b res (rangeReport b s) s (releaseRow c b s) := by
  refine h.begun_stops hc (chanStep_release_visit hn _) hrec (fun _ => rfl)
    (fun k => releaseVisit_stops ((touch_begun_releaseTest h _ k).trans htest)) fun k => ?_
  have horder := (orderOnly_begun c b (releaseWork b) s).touch k
  rw [reportOf_release rfl, horder.dom, Nat.sub_zero, Nat.add_zero]
  rfl

theorem release_misses (h : StartsWork .release c b s) (hc : c < 4) (hn : wordC b ≠ 0)
    (hrec : recordAt s (wordB b) = none) :
    StartsWithFill c b (releaseWork b) .visit (wordB b) s (releaseRow c b s) :=
  (h.visit_misses hc (h.stands_begun _) (orderOnly_begun c b _ s).ways (chanStep_release_visit hn _) hrec).1

/-- RELEASE of a granule that passes every test, from its claim to its drain or to the wait for a Scrub Unit (R112,
R120). -/
theorem release_claims (h : StartsWork .release c b s) (hc : c < 4) (hn : wordC b ≠ 0)
    (hrec : recordAt s (wordB b) = some rec) (htest : releaseTest (wordA b) (wordB b) rec s = none)
    (hno : NoDrain (.command c) s) (ht : t = releaseRow c b s) :
    RecordNow (wordB b) { rec with state := .gClearingOut } s t ∧ (∀ x, dom t x = dom s x) ∧
      if NoTraffic (wordB b) s then
        Starts c b (releaseWork b) .unit .unit (some (wordB b)) s t ∧ t.drains = s.drains
      else
        Starts c b (releaseWork b) .drain .drain (some (wordB b)) s t ∧
          t.drains = s.drains ++ [counting (.command c) (fun g _ => g == wordB b) s] := by
  obtain ⟨k, hk⟩ := withRecord_hit (c := c) (f := releaseVisit c (wordA b) (wordB b))
    (((orderOnly_begun c b (releaseWork b) s).recordAt (wordB b)).trans hrec)
  have horder := (orderOnly_begun c b (releaseWork b) s).touch k
  have hstep := chanStep_release_visit (c := c) hn (begun c b (releaseWork b) s)
  rw [hk, releaseVisit_claims ((touch_begun_releaseTest h _ k).trans htest)] at hstep
  have hnow := recordNow_releasing (c := c) horder hrec
  have hdom := dom_releasing (c := c) (g := wordB b) (rec := rec) horder
  have hclaim := firstClaim_releasing (g := wordB b) (rec := rec) ((h.stands_begun (releaseWork b)).touch k) horder
  generalize releasing c (wordB b) rec (touch k (begun c b (releaseWork b) s)) = w at *
  subst ht
  split
  next hquiet =>
    obtain ⟨hstarts, hkept⟩ := hclaim.asks h hc hstep hquiet hno rfl hnow.1 rfl rfl
      (fun a u ha hown => laterStop_claimed (by rw [ha]; rfl) hown nofun)
    exact ⟨hnow.congr rfl hkept.ways, fun x => (hkept.dom x).trans (hdom x), hstarts,
      hkept.drains.trans hclaim.drains⟩
  next hbusy =>
    obtain ⟨hstarts, hkept⟩ := hclaim.waits h hc hstep hbusy
    exact ⟨hnow.congr rfl hkept.ways, fun x => (hkept.dom x).trans (hdom x), hstarts,
      hkept.drains.trans hclaim.drainBegun_drains⟩

/-- RELEASE's row: its refusals in their order, the fetch of its granule's line, its tests and its claim. -/
theorem release_row (c : Fin 4) (b : Line) (s : State) (h : StartsWork .release c.val b s) :
    ∃ t, exec (.release c) s = .next t ∧
      if wordA b = 0 ∨ 511 < wordA b ∨ RangeRefused s (wordB b) (wordC b) then
        WorkRefused c.val b .parameter (rangeReport b s) s t
      else if (dom s (wordA b)).state = .free ∨ (dom s (wordA b)).state = .retiring ∨
          (dom s (wordA b)).state = .root then
        WorkRefused c.val b .domainState (rangeReport b s) s t
      else wordC b ≠ 0 ∧ t = releaseRow c.val b s := by
  obtain ⟨u, hu⟩ : ∃ u, u = runCommand .release c.val b (dequeue c.val s) := ⟨_, rfl⟩
  refine ⟨finish (issueProduced s (settle u)), by rw [exec_release, h.row, hu], ?_⟩
  replace hu := hu.trans (doRelease_dequeue c.val b s)
  split
  next hparam => rw [if_pos hparam] at hu; subst hu; exact h.refused_end c.isLt _ _
  next hparam =>
    rw [if_neg hparam] at hu
    split
    next hstate => rw [if_pos hstate] at hu; subst hu; exact h.refused_end c.isLt _ _
    next hstate =>
      rw [if_neg hstate] at hu
      subst hu
      exact ⟨fun hzero => hparam (.inr (.inr (.inl hzero))), rfl⟩

/-! ### RESTORE (R123) -/

/-- What RESTORE reports of a refusal or of a stop (R123; log entry 17). -/
def restoreReport (b : Line) (s : State) : Report :=
  { remaining := 1, next := wordA b, w1 := 2 ^ 64 - 1, w2 := s.poisonList.length }

theorem onesWord_eq : onesWord = 2 ^ 64 - 1 := rfl

/-- RESTORE's start: its refusal, or the visit of its granule (R123). -/
theorem doRestore_dequeue (c : Nat) (b : Line) (s : State) : doRestore c b (dequeue c s) =
    if granuleCount s ≤ wordA b then refuse c b .parameter (restoreReport b s) (dequeue c s)
    else begun c b (.restore (wordA b)) s := by
  simp only [doRestore, granuleCount_dequeue, refusal, dequeue_poisonList, onesWord_eq, restoreReport, begun]

/-- The tests that RESTORE applies to its granule (R123). -/
theorem restoreTest_eq : restoreTest g rec s =
    if Busy s g rec then some .granuleBusy
    else if inTagRegion s g = true ∨ rec.state ≠ .gPoisoned then some .granuleState
    else none := by
  simp only [restoreTest, busy_iff, ite_or]

theorem chanStep_restore_visit (u : State) : chanStep c (firstVisit b (.restore g)) u =
    withRecord c g (restoreVisit c g) u := rfl

theorem restoreVisit_claims (htest : restoreTest g rec u = none) :
    restoreVisit c g rec u = startGranuleDrain c g (setClaim c (some g) u) := by
  rw [restoreVisit, htest]

theorem restoreVisit_stops {res : Result} (htest : restoreTest g rec u = some res) :
    restoreVisit c g rec u = stopWork c res u := by
  rw [restoreVisit, htest]

theorem reportOf_restore (ha : a.work = .restore g) (u : State) : reportOf a u =
    { remaining := 1, next := g, w1 := 2 ^ 64 - 1, w2 := u.poisonList.length } := by
  rw [reportOf, ha]
  rfl

theorem firstClaim_restoring {W : Work} (h : Stands c (takenChannel (chan s c)) (firstVisit b W) s u)
    (horder : OrderOnly s u) : FirstClaim c b W g s (setClaim c (some g) u) :=
  ⟨h.setClaim (some g), horder.inFlight, horder.stage, horder.drains, horder.produced⟩

/-- The state at the end of the step in which RESTORE has passed its start test. -/
def restoreRow (c : Nat) (b : Line) (s : State) : State :=
  finish (issueProduced s (settle (begun c b (.restore (wordA b)) s)))

theorem touch_begun_restoreTest {cmd : Cmd} (h : StartsWork cmd c b s) (W : Work) (k : Nat) :
    restoreTest g rec (touch k (begun c b W s)) = restoreTest g rec s := by
  have horder := (orderOnly_begun c b W s).touch k
  have hclaimed := ((h.stands_begun W).touch k).claimed rfl g
  rw [restoreTest, restoreTest, granuleBusy, granuleBusy, hclaimed, inTagRegion, inTagRegion, tagRegionSize,
    tagRegionSize, horder.size, horder.tagBase]

theorem restore_stops {res : Result} (h : StartsWork .restore c b s) (hc : c < 4)
    (hrec : recordAt s (wordA b) = some rec) (htest : restoreTest (wordA b) rec s = some res) :
    StopsAtOnce c b res (restoreReport b s) s (restoreRow c b s) := by
  refine h.begun_stops hc (chanStep_restore_visit _) hrec (fun _ => rfl)
    (fun k => restoreVisit_stops ((touch_begun_restoreTest h _ k).trans htest)) fun k => ?_
  rw [reportOf_restore rfl, ((orderOnly_begun c b _ s).touch k).poisonList]
  rfl

theorem restore_misses (h : StartsWork .restore c b s) (hc : c < 4) (hrec : recordAt s (wordA b) = none) :
    StartsWithFill c b (.restore (wordA b)) .visit (wordA b) s (restoreRow c b s) :=
  (h.visit_misses hc (h.stands_begun _) (orderOnly_begun c b _ s).ways (chanStep_restore_visit _) hrec).1

/-- RESTORE of a POISONED granule, from its claim to its drain or to the wait for a Scrub Unit; no record changes
(R112, R123). -/
theorem restore_claims (h : StartsWork .restore c b s) (hc : c < 4) (hrec : recordAt s (wordA b) = some rec)
    (htest : restoreTest (wordA b) rec s = none) (hno : NoDrain (.command c) s) (ht : t = restoreRow c b s) :
    t.ways = s.ways ∧ (∀ x, dom t x = dom s x) ∧ t.poisonList = s.poisonList ∧
      if NoTraffic (wordA b) s then
        Starts c b (.restore (wordA b)) .unit .unit (some (wordA b)) s t ∧ t.drains = s.drains
      else
        Starts c b (.restore (wordA b)) .drain .drain (some (wordA b)) s t ∧
          t.drains = s.drains ++ [counting (.command c) (fun g _ => g == wordA b) s] := by
  obtain ⟨k, hk⟩ := withRecord_hit (c := c) (f := restoreVisit c (wordA b))
    (((orderOnly_begun c b (.restore (wordA b)) s).recordAt (wordA b)).trans hrec)
  have horder := (orderOnly_begun c b (.restore (wordA b)) s).touch k
  have hstep := chanStep_restore_visit (c := c) (b := b) (g := wordA b) (begun c b (.restore (wordA b)) s)
  rw [hk, restoreVisit_claims ((touch_begun_restoreTest h _ k).trans htest)] at hstep
  have hclaim := firstClaim_restoring (g := wordA b) ((h.stands_begun (.restore (wordA b))).touch k) horder
  replace horder := horder.setClaim c (some (wordA b))
  generalize setClaim c (some (wordA b)) (touch k (begun c b (.restore (wordA b)) s)) = w at *
  subst ht
  split
  next hquiet =>
    obtain ⟨hstarts, hkept⟩ := hclaim.asks h hc hstep hquiet hno rfl ((horder.recordAt _).trans hrec) rfl rfl
      (fun a u ha _ => by rw [laterStop, ha])
    replace hkept := horder.trans hkept
    exact ⟨hkept.ways, hkept.dom, hkept.poisonList, hstarts, hkept.drains⟩
  next hbusy =>
    obtain ⟨hstarts, hkept⟩ := hclaim.waits h hc hstep hbusy
    exact ⟨hkept.ways.trans horder.ways, fun x => (hkept.dom x).trans (horder.dom x),
      hkept.poisonList.trans horder.poisonList, hstarts, hkept.drains.trans hclaim.drainBegun_drains⟩

/-- RESTORE's row: its refusal, the fetch of its granule's line, its tests and its claim. -/
theorem restore_row (c : Fin 4) (b : Line) (s : State) (h : StartsWork .restore c.val b s) :
    ∃ t, exec (.restore c) s = .next t ∧
      if granuleCount s ≤ wordA b then WorkRefused c.val b .parameter (restoreReport b s) s t
      else t = restoreRow c.val b s := by
  obtain ⟨u, hu⟩ : ∃ u, u = runCommand .restore c.val b (dequeue c.val s) := ⟨_, rfl⟩
  refine ⟨finish (issueProduced s (settle u)), by rw [exec_restore, h.row, hu], ?_⟩
  replace hu := hu.trans (doRestore_dequeue c.val b s)
  split
  next hparam => rw [if_pos hparam] at hu; subst hu; exact h.refused_end c.isLt _ _
  next hparam => rw [if_neg hparam] at hu; subst hu; rfl

/-- Settles O54: the start tests of both commands, and at a cached record their tests with the claim. -/
theorem releaseAndRestoreClaimTheirGranule : Obligations.ReleaseAndRestoreClaimTheirGranule := by
  refine ⟨?_, fun c b s h => ?_⟩
  · rintro c b s _ _ _ h rfl rfl rfl
    obtain ⟨t, hexec, hrow⟩ := release_row c b s h
    refine ⟨t, hexec, ?_⟩
    split
    next hparam => rwa [if_pos hparam] at hrow
    next hparam =>
      rw [if_neg hparam] at hrow
      split
      next hstate => rwa [if_pos hstate] at hrow
      next hstate =>
        rw [if_neg hstate] at hrow
        obtain ⟨hcount, ht⟩ := hrow
        split
        next hrec => subst ht; exact release_misses h c.isLt hcount hrec
        next rec hrec =>
          have htests := releaseTest_eq (g := wordB b) (rec := rec) ((releasable_iff _).2 hstate)
          split
          next hbusy => subst ht; exact release_stops h c.isLt hcount hrec (htests.trans (if_pos hbusy))
          next hbusy =>
            rw [if_neg hbusy] at htests
            split
            next hown => subst ht; exact release_stops h c.isLt hcount hrec (htests.trans (if_pos hown))
            next hown =>
              rw [if_neg hown] at htests
              split
              next hpin => subst ht; exact release_stops h c.isLt hcount hrec (htests.trans (if_pos hpin))
              next hpin =>
                rw [if_neg hpin] at htests
                split
                next hshared => subst ht; exact release_stops h c.isLt hcount hrec (htests.trans (if_pos hshared))
                next hshared =>
                  exact fun hno => release_claims h c.isLt hcount hrec (htests.trans (if_neg hshared)) hno ht
  · obtain ⟨t, hexec, hrow⟩ := restore_row c b s h
    refine ⟨t, hexec, ?_⟩
    split
    next hparam => rwa [if_pos hparam] at hrow
    next hparam =>
      rw [if_neg hparam] at hrow
      split
      next hrec => subst hrow; exact restore_misses h c.isLt hrec
      next rec hrec =>
        have htests := restoreTest_eq (s := s) (g := wordA b) (rec := rec)
        split
        next hbusy => subst hrow; exact restore_stops h c.isLt hrec (htests.trans (if_pos hbusy))
        next hbusy =>
          rw [if_neg hbusy] at htests
          split
          next hstate => subst hrow; exact restore_stops h c.isLt hrec (htests.trans (if_pos hstate))
          next hstate => exact fun hno => restore_claims h c.isLt hrec (htests.trans (if_neg hstate)) hno hrow

end Sys2Proof.Machine
end

section
/-!
PROOFS. QUERY_GRANULES (R124), which reads up to five cached records, and REGION_SET (R196), whose walk tests one
granule after the other: O56.
-/

namespace Sys2Proof.Machine
variable {s t u v w : State} {c d f i k n g : Nat} {b : Line} {a : Active} {ch : Channel} {rec : TagRecord}
  {noAccess : Bool}

/-! ### QUERY_GRANULES (R124) -/

/-- A record's value word, field by field (R181). -/
theorem recordWord_eq (r : TagRecord) : recordWord r = recordValue r := by
  have hstate : gstateCode r.state < 256 := by cases r.state <;> decide
  have hpinned : boolBit r.pinned < 256 := by cases r.pinned <;> decide
  have hdirty : boolBit r.dirty < 256 := by cases r.dirty <;> decide
  have howner : optField 2 r.owner = r.owner.getD 65535 := rfl
  simp only [recordWord, recordValue, packFields, howner]
  omega

/-- QUERY_GRANULES as it is to read the record after those whose words it has (R124). -/
def queryVisit (b : Line) (f n : Nat) (ws : List Nat) : Active := firstVisit b (.queryGranules f n ws)

/-- What QUERY_GRANULES reports of a refusal (R124). -/
def queryRefusal (b : Line) : Report :=
  { remaining := wordB b, next := wordA b, w0 := 2 ^ 64 - 1, w1 := 2 ^ 64 - 1, w2 := 2 ^ 64 - 1, w3 := 2 ^ 64 - 1
    w4 := 2 ^ 64 - 1 }

/-- QUERY_GRANULES's start: its refusal, or its first visit (R124). -/
theorem doQueryGranules_dequeue (c : Nat) (b : Line) (s : State) : doQueryGranules c b (dequeue c s) =
    if wordB b = 0 ∨ 5 < wordB b ∨ granuleCount s < wordA b + wordB b then
      refuse c b .parameter (queryRefusal b) (dequeue c s)
    else begun c b (.queryGranules (wordA b) (wordB b) []) s := by
  simp only [doQueryGranules, granuleCount_dequeue]
  rfl

theorem chanStep_query_reads {ws : List Nat} (hlen : ws.length ≠ n) (u : State) :
    chanStep c (queryVisit b f n ws) u = withRecord c (f + ws.length) (fun r t =>
      goPhase c .visit .running (goWork c (.queryGranules f n (ws ++ [recordWord r])) t)) u :=
  if_neg hlen

theorem chanStep_query_ends {ws : List Nat} (hlen : ws.length = n) (u : State) :
    chanStep c (queryVisit b f n ws) u = doneWork c u :=
  if_pos hlen

/-- The words of the first m of the records given (R124). -/
def queryWords (rec : Nat → TagRecord) (m : Nat) : List Nat := (List.range m).map (fun j => recordWord (rec j))

theorem queryWords_succ (rec : Nat → TagRecord) (m : Nat) :
    queryWords rec (m + 1) = queryWords rec m ++ [recordWord (rec m)] := by
  simp [queryWords, List.range_succ]

@[simp] theorem length_queryWords (rec : Nat → TagRecord) (m : Nat) : (queryWords rec m).length = m := by
  simp [queryWords]

theorem queryWord_queryWords (rec : Nat → TagRecord) (m j : Nat) :
    queryWord (queryWords rec m) j = if j < m then recordValue (rec j) else 2 ^ 64 - 1 := by
  have hones : onesWord = 2 ^ 64 - 1 := rfl
  by_cases hj : j < m <;> simp [queryWord, queryWords, hj, hones, recordWord_eq]

/-- What QUERY_GRANULES reports of n records (R124, R181). -/
def queryReport (f n : Nat) (rec : Nat → TagRecord) : Report :=
  { finished := n, next := f + n, w0 := recordValue (rec 0)
    w1 := if 1 < n then recordValue (rec 1) else 2 ^ 64 - 1
    w2 := if 2 < n then recordValue (rec 2) else 2 ^ 64 - 1
    w3 := if 3 < n then recordValue (rec 3) else 2 ^ 64 - 1
    w4 := if 4 < n then recordValue (rec 4) else 2 ^ 64 - 1 }

theorem reportOf_query (hn : n ≠ 0) (rec : Nat → TagRecord) (u : State) :
    reportOf (queryVisit b f n (queryWords rec n)) u = queryReport f n rec := by
  simp only [reportOf, queryVisit, firstVisit, length_queryWords, Nat.sub_self, queryWord_queryWords,
    if_pos (Nat.pos_of_ne_zero hn), queryReport]

/-- With all its records cached, QUERY_GRANULES reads those that are left one after the other and is done (R124). -/
theorem query_reads {rec : Nat → TagRecord} (hq : Quiet s) (hc : c < 4) (hch : NothingWaits ch) (hwarm : s.warm = none)
    (hn : n ≠ 0) (hrec : ∀ j, j < n → recordAt s (f + j) = some (rec j)) (j : Nat) (hj : j ≤ n)
    (h : Stands c ch (queryVisit b f n (queryWords rec (n - j))) s u) (horder : OrderOnly s u) :
    ∃ v, ComesTo (j + 2) u v ∧ Completed c ch b .done (queryReport f n rec) s (finish v) ∧
      v.produced = s.produced ∧ OrderOnly s (finish v) := by
  induction j generalizing u with
  | zero =>
    obtain ⟨v, hcome, hdone, hproduced, hkept⟩ :=
      h.range_ends hq hc hch hwarm rfl (chanStep_query_ends (length_queryWords rec n) u)
    exact ⟨v, hcome, reportOf_query (b := b) (f := f) hn rec u ▸ hdone, hproduced.trans horder.produced,
      horder.trans hkept⟩
  | succ j ih =>
    have hlen : (queryWords rec (n - (j + 1))).length ≠ n := by rw [length_queryWords]; omega
    have hcached : recordAt u (f + (queryWords rec (n - (j + 1))).length) = some (rec (n - (j + 1))) := by
      rw [length_queryWords, horder.recordAt]
      exact hrec _ (by omega)
    have hwords : queryWords rec (n - (j + 1)) ++ [recordWord (rec (n - (j + 1)))] = queryWords rec (n - j) := by
      rw [← queryWords_succ, show n - (j + 1) + 1 = n - j by omega]
    obtain ⟨x, hx⟩ := withRecord_hit (c := c) (f := fun r t =>
      goPhase c .visit .running
        (goWork c (.queryGranules f n (queryWords rec (n - (j + 1)) ++ [recordWord r])) t)) hcached
    rw [hwords] at hx
    obtain ⟨v, hcome, hrest⟩ := ih (by omega)
      (((h.touch x).goWork (.queryGranules f n (queryWords rec (n - j)))).goPhase .visit .running) (horder.touch x)
    exact ⟨v, h.step hq hc hch rfl (by rw [chanStep_query_reads hlen, hx]; exact hcome), hrest⟩

/-- QUERY_GRANULES's row (R124). -/
theorem queryGranules_row (c : Fin 4) (b : Line) (s : State) (h : StartsWork .queryGranules c.val b s) :
    ∃ t, exec (.queryGranules c) s = .next t ∧
      if wordB b = 0 ∨ 5 < wordB b ∨ granuleCount s < wordA b + wordB b then
        WorkRefused c.val b .parameter (queryRefusal b) s t
      else
        (recordAt s (wordA b) = none →
          StartsWithFill c.val b (.queryGranules (wordA b) (wordB b) []) .visit (wordA b) s t) ∧
        ∀ rec : Nat → TagRecord, (∀ j, j < wordB b → recordAt s (wordA b + j) = some (rec j)) →
          StopsAtOnce c.val b .done (queryReport (wordA b) (wordB b) rec) s t := by
  obtain ⟨u, hu⟩ : ∃ u, u = runCommand .queryGranules c.val b (dequeue c.val s) := ⟨_, rfl⟩
  refine ⟨finish (issueProduced s (settle u)), by rw [exec_queryGranules, h.row, hu], ?_⟩
  replace hu := hu.trans (doQueryGranules_dequeue c.val b s)
  split
  next hparam => rw [if_pos hparam] at hu; subst hu; exact h.refused_end c.isLt _ _
  next hparam =>
    rw [if_neg hparam] at hu
    subst hu
    obtain ⟨hcount, hfive, -⟩ : wordB b ≠ 0 ∧ wordB b ≤ 5 ∧ wordA b + wordB b ≤ granuleCount s := by
      simpa only [not_or, not_lt] using hparam
    have hbegun := orderOnly_begun c.val b (.queryGranules (wordA b) (wordB b) []) s
    have hstands := h.stands_begun (.queryGranules (wordA b) (wordB b) [])
    refine ⟨fun hrec => ?_, fun rec hrec => ?_⟩
    · exact (h.visit_misses c.isLt hstands hbegun.ways
        (chanStep_query_reads (ws := []) (Ne.symm hcount) _) hrec).1
    · have hfirst : Stands c.val (takenChannel (chan s c.val))
          (queryVisit b (wordA b) (wordB b) (queryWords rec (wordB b - wordB b))) s
          (begun c.val b (.queryGranules (wordA b) (wordB b) []) s) := by
        rw [Nat.sub_self]
        exact hstands
      obtain ⟨v, hcome, hdone, hproduced, hkept⟩ := query_reads h.quiet c.isLt (h.nothingWaits c.isLt) h.warm hcount hrec
        (wordB b) le_rfl hfirst hbegun
      rw [settle_to hcome (by omega), issueProduced_same v hproduced]
      exact ⟨h.endsAtOnce_of_completed hdone, hkept⟩

/-! ### The tests of REGION_SET (R196) -/

theorem regionOverlap_iff : regionOverlap s i f n = true ↔
    ∃ j ∈ List.range 8, j ≠ i ∧ (regionOf s j).state ≠ .empty ∧
      f < (regionOf s j).first + (regionOf s j).count ∧ (regionOf s j).first < f + n := by
  simp [regionOverlap, Config.regionEntries, rangesMeet, and_assoc]

/-- The tests of R196 in their order. -/
theorem regionSetTest_eq (kind : Nat) : regionSetTest s i f n kind =
    if 7 < i ∨ (kind ≠ 1 ∧ kind ≠ 2) ∨ RangeRefused s f n then some .parameter
    else if s.freeze = true then some .frozen
    else if (regionOf s i).state = .lockedDown then some .locked
    else if (regionOf s i).state ≠ .empty then some .regionConflict
    else if ∃ x ∈ s.tagBase.toList, f < x + tagRegionSize s ∧ x < f + n then some .parameter
    else if ∃ j ∈ List.range 8, j ≠ i ∧ (regionOf s j).state ≠ .empty ∧
        f < (regionOf s j).first + (regionOf s j).count ∧ (regionOf s j).first < f + n then some .regionConflict
    else none := by
  have htag : (match s.tagBase with
      | some x => rangesMeet f n x (tagRegionSize s)
      | none => false) = true ↔ ∃ x ∈ s.tagBase.toList, f < x + tagRegionSize s ∧ x < f + n := by
    cases s.tagBase <;> simp [rangesMeet]
  simp only [regionSetTest, rangeBad_iff, ← regionOverlap_iff, ← htag]
  rfl

theorem regionSetTest_dequeue (kind : Nat) : regionSetTest (dequeue c s) i f n kind = regionSetTest s i f n kind := by
  have hoverlap : regionOverlap (dequeue c s) i f n = regionOverlap s i f n := by
    rw [Bool.eq_iff_iff, regionOverlap_iff, regionOverlap_iff]
    simp only [regionOf_dequeue]
  have hregion : tagRegionSize (dequeue c s) = tagRegionSize s := by rw [tagRegionSize, tagRegionSize, dequeue_size]
  rw [regionSetTest, regionSetTest, hoverlap, hregion, rangeBad_dequeue, dequeue_freeze, regionOf_dequeue, dequeue_tagBase]

/-! ### A visit of REGION_SET's walk (R196) -/

/-- REGION_SET as it is to visit granule f + k of its range. -/
def regionWalk (b : Line) (i f n : Nat) (noAccess : Bool) (k : Nat) : Active :=
  firstVisit b (.regionSet i f n noAccess k)

/-- From u to v the Region Table has changed at entry i only, whose state is now st. -/
def RegionNow (i : Nat) (st : RegionState) (u v : State) : Prop :=
  ∀ j, regionOf v j = if j = i then { regionOf u i with state := st } else regionOf u j

theorem chanStep_regionWalk (u : State) : chanStep c (regionWalk b i f n noAccess k) u =
    withRecord c (f + k) (regionVisit c i f n noAccess k) u := rfl

/-- A claimed granule, or one that is not OPEN, stops REGION_SET, and its entry is EMPTY (R196). -/
theorem region_stops {res : Result} (h : Stands c ch (regionWalk b i f n noAccess k) s u) (hq : Quiet s) (hc : c < 4)
    (hch : NothingWaits ch) (hwarm : s.warm = none) (hrec : recordAt u (f + k) = some rec)
    (hstop : ∀ x, regionVisit c i f n noAccess k rec (touch x u) = stopWork c res (touch x u)) :
    ∃ v, ComesTo 2 u v ∧ Completed c ch b res { finished := k, remaining := n - k, next := f + k } s (finish v) ∧
      v.produced = u.produced ∧ RegionNow i .empty u v := by
  obtain ⟨x, v, hcome, hdone, hproduced, hkept⟩ :=
    h.stops hq hc hch hwarm rfl (chanStep_regionWalk u) hrec hstop (fun _ => rfl)
  refine ⟨v, hcome, hdone, hproduced, fun j => ?_⟩
  rw [← regionOf_finish, hkept.regionOf]
  exact regionOf_setRegion _ i j _

theorem regionVisit_claimed (hclaimed : claimed u (f + k) = true) :
    regionVisit c i f n noAccess k rec u = stopWork c .granuleBusy u := if_pos hclaimed

theorem regionVisit_notOpen (hfree : ¬claimed u (f + k) = true) (hstate : rec.state ≠ .gOpen) :
    regionVisit c i f n noAccess k rec u = stopWork c .granuleState u := by
  rw [regionVisit, if_neg hfree, if_pos hstate]

/-- The part once REGION_SET has tested the last granule of its range (R196). -/
def regionClosed (i : Nat) (u : State) : State := setRegion i { regionOf u i with state := .set } u

/-- The last OPEN granule of the range under no claim makes the entry SET (R196). -/
theorem region_ends (h : Stands c ch (regionWalk b i f n noAccess k) s u) (hq : Quiet s) (hc : c < 4)
    (hch : NothingWaits ch) (hwarm : s.warm = none) (hrec : recordAt u (f + k) = some rec)
    (hfree : ¬claimed u (f + k) = true) (hopen : rec.state = .gOpen) (hlast : k + 1 = n) :
    ∃ v, ComesTo 2 u v ∧
      Completed c ch b .done { finished := n, next := f + n, w0 := i, w1 := regionKindCode noAccess } s (finish v) ∧
      v.produced = u.produced ∧ RegionNow i .set u v := by
  obtain ⟨x, hx⟩ := withRecord_hit (c := c) (f := regionVisit c i f n noAccess k) hrec
  have hclosed : Stands c ch (regionWalk b i f n noAccess k) s (regionClosed i (touch x u)) :=
    (h.touch x).congr rfl ⟨rfl, rfl, rfl, rfl, rfl⟩
  obtain ⟨v, hcome, hdone, hproduced, hkept⟩ := hclosed.ends (res := .done)
    (p := { finished := n, next := f + n, w0 := i, w1 := regionKindCode noAccess }) hq hc hch hwarm
  refine ⟨v, h.step hq hc hch rfl ?_, hdone, hproduced, fun j => ?_⟩
  · have hfree' : ¬claimed (touch x u) (f + k) = true := hfree
    rw [chanStep_regionWalk, hx, regionVisit, if_neg hfree', if_neg (not_not_intro hopen), if_pos hlast]
    exact hcome
  · rw [← regionOf_finish, hkept.regionOf]
    exact regionOf_setRegion _ i j _

/-- An OPEN granule under no claim before the last lets REGION_SET go on to the next (R196). -/
theorem chanStep_region_goesOn (hrec : recordAt u (f + k) = some rec) (hfree : ¬claimed u (f + k) = true)
    (hopen : rec.state = .gOpen) (hmore : k + 1 ≠ n) :
    ∃ x, chanStep c (regionWalk b i f n noAccess k) u =
      goPhase c .visit .running (goWork c (.regionSet i f n noAccess (k + 1)) (touch x u)) := by
  obtain ⟨x, hx⟩ := withRecord_hit (c := c) (f := regionVisit c i f n noAccess k) hrec
  have hfree' : ¬claimed (touch x u) (f + k) = true := hfree
  exact ⟨x, by rw [chanStep_regionWalk, hx, regionVisit, if_neg hfree', if_neg (not_not_intro hopen), if_neg hmore]⟩

theorem RegionNow.others {st : RegionState} (h : RegionNow i st u v) {j : Nat} (hj : j ≠ i) :
    regionOf v j = regionOf u j := by
  rw [h j, if_neg hj]

/-- However far REGION_SET's walk comes in its step, it changes no entry but its own (R196). -/
theorem region_walks (hq : Quiet s) (hc : c < 4) (hch : NothingWaits ch) (hwarm : s.warm = none) (m : Nat) (hm : 0 < m)
    (hk : k + m = n) (h : Stands c ch (regionWalk b i f n noAccess k) s u) :
    ∃ p v, p ≤ m + 1 ∧ ComesTo p u v ∧ ∀ j, j ≠ i → regionOf v j = regionOf u j := by
  induction m generalizing k u with
  | zero => omega
  | succ m ih =>
    cases hrec : recordAt u (f + k) with
    | none =>
      obtain ⟨hcome, -, hv⟩ := h.misses (f := regionVisit c i f n noAccess k) hq hc hch hrec rfl
      refine ⟨1, _, by omega, h.step hq hc hch rfl hcome, fun j _ => ?_⟩
      rw [hv]
      simp [regionOf]
    | some rec =>
      by_cases hclaimed : claimed u (f + k) = true
      · obtain ⟨v, hcome, -, -, hregion⟩ :=
          region_stops h hq hc hch hwarm hrec (fun _ => regionVisit_claimed hclaimed)
        exact ⟨2, v, by omega, hcome, fun j hj => hregion.others hj⟩
      by_cases hopen : rec.state = .gOpen
      · by_cases hlast : k + 1 = n
        · obtain ⟨v, hcome, -, -, hregion⟩ := region_ends h hq hc hch hwarm hrec hclaimed hopen hlast
          exact ⟨2, v, by omega, hcome, fun j hj => hregion.others hj⟩
        · obtain ⟨x, hx⟩ := chanStep_region_goesOn (c := c) (b := b) (i := i) (noAccess := noAccess) hrec hclaimed hopen
            hlast
          obtain ⟨p, v, hp, hcome, hregion⟩ := ih (k := k + 1) (by omega) (by omega)
            (((h.touch x).goWork (.regionSet i f n noAccess (k + 1))).goPhase .visit .running)
          exact ⟨p + 1, v, by omega, h.step hq hc hch rfl (by rw [hx]; exact hcome), hregion⟩
      · obtain ⟨v, hcome, -, -, hregion⟩ :=
          region_stops h hq hc hch hwarm hrec (fun _ => regionVisit_notOpen hclaimed hopen)
        exact ⟨2, v, by omega, hcome, fun j hj => hregion.others hj⟩

/-! ### REGION_SET's row -/

/-- The entry that a REGION_SET gives, in a state of its own (R196). -/
def regionGiven (b : Line) (st : RegionState) : Region :=
  { first := wordB b, count := wordC b, noAccess := wordD b == 2, state := st }

/-- The work of REGION_SET as it starts (R196). -/
def regionWork (b : Line) : Work := .regionSet (wordA b) (wordB b) (wordC b) (wordD b == 2) 0

/-- The part once REGION_SET has passed its start tests: its entry is PENDING (R196). -/
def regionBegun (c : Nat) (b : Line) (s : State) : State :=
  activate c b (regionWork b) .visit .running (setRegion (wordA b) (regionGiven b .pending) (dequeue c s))

theorem doRegionSet_dequeue (c : Nat) (b : Line) (s : State) : doRegionSet c b (dequeue c s) =
    match regionSetTest s (wordA b) (wordB b) (wordC b) (wordD b) with
    | some res => refuse c b res { remaining := wordC b, next := wordB b } (dequeue c s)
    | none => regionBegun c b s := by
  rw [doRegionSet, regionSetTest_dequeue]
  rfl

theorem StartsWork.stands_regionBegun (h : StartsWork .regionSet c b s) :
    Stands c (takenChannel (chan s c)) (firstVisit b (regionWork b)) s (regionBegun c b s) :=
  h.stands (u := setRegion (wordA b) (regionGiven b .pending) (dequeue c s)) rfl
    ⟨by simp, by simp, by simp, by simp, by simp⟩ (regionWork b) .visit .running

theorem regionOf_regionBegun (c : Nat) (b : Line) (s : State) (j : Nat) :
    regionOf (regionBegun c b s) j = if j = wordA b then regionGiven b .pending else regionOf s j := by
  rw [regionBegun, regionOf_activate, regionOf_setRegion, regionOf_dequeue]

theorem regionBegun_ways (c : Nat) (b : Line) (s : State) : (regionBegun c b s).ways = s.ways := by
  simp [regionBegun]

theorem regionBegun_produced (c : Nat) (b : Line) (s : State) : (regionBegun c b s).produced = s.produced := by
  simp [regionBegun]

/-- The state at the end of the step in which REGION_SET has passed its start tests. -/
def regionRow (c : Nat) (b : Line) (s : State) : State := finish (issueProduced s (settle (regionBegun c b s)))

/-- A REGION_SET that ends in the step that took it, at the entry in the state that it leaves. -/
theorem regionRow_ends {st : RegionState} {res : Result} {p : Report} {m : Nat} (h : StartsWork .regionSet c b s)
    (hm : m ≤ 100) (hcome : ComesTo m (regionBegun c b s) v)
    (hdone : Completed c (takenChannel (chan s c)) b res p s (finish v))
    (hproduced : v.produced = (regionBegun c b s).produced) (hregion : RegionNow (wordA b) st (regionBegun c b s) v) :
    EndsAtOnce c b res p s (regionRow c b s) ∧ regionOf (regionRow c b s) (wordA b) = regionGiven b st := by
  rw [regionRow, settle_to hcome hm, issueProduced_same v (hproduced.trans (regionBegun_produced c b s))]
  refine ⟨h.endsAtOnce_of_completed hdone, ?_⟩
  rw [regionOf_finish, hregion, if_pos rfl, regionOf_regionBegun, if_pos rfl]
  rfl

theorem regionRow_others (h : StartsWork .regionSet c b s) (hc : c < 4)
    (hrange : ¬RangeRefused s (wordB b) (wordC b)) {j : Nat} (hj : j ≠ wordA b) :
    regionOf (regionRow c b s) j = regionOf s j := by
  obtain ⟨hzero, hmax, -⟩ := not_or.1 hrange |>.imp_right not_or.1
  obtain ⟨p, v, hp, hcome, hregion⟩ := region_walks h.quiet hc (h.nothingWaits hc) h.warm (wordC b)
    (Nat.pos_of_ne_zero hzero) (Nat.zero_add _) h.stands_regionBegun
  rw [regionRow, hcome.settle (by unfold Config.stepFuel; omega), regionOf_finish, regionOf_issueProduced, hregion j hj,
    regionOf_regionBegun, if_neg hj]

theorem regionRow_misses (h : StartsWork .regionSet c b s) (hc : c < 4) (hrec : recordAt s (wordB b) = none) :
    StartsWithFill c b (regionWork b) .visit (wordB b) s (regionRow c b s) ∧
      regionOf (regionRow c b s) (wordA b) = regionGiven b .pending := by
  obtain ⟨hfill, hsettle⟩ := h.visit_misses hc h.stands_regionBegun (regionBegun_ways c b s)
    (f := regionVisit c (wordA b) (wordB b) (wordC b) (wordD b == 2) 0) rfl hrec
  refine ⟨hfill, ?_⟩
  rw [regionRow, hsettle, regionOf_finish, regionOf_issueProduced]
  have hregion := regionOf_regionBegun c b s (wordA b)
  rw [if_pos rfl] at hregion
  rw [← hregion]
  simp [regionOf]

theorem kindCode_eq (hkind : wordD b = 1 ∨ wordD b = 2) : regionKindCode (wordD b == 2) = wordD b := by
  rcases hkind with h | h <;> simp [h, regionKindCode]

/-- REGION_SET's row (R196). -/
theorem regionSet_row (c : Fin 4) (b : Line) (s : State) (h : StartsWork .regionSet c.val b s) :
    ∃ t, exec (.regionSet c) s = .next t ∧
      match regionSetTest s (wordA b) (wordB b) (wordC b) (wordD b) with
      | some res => WorkRefused c.val b res { remaining := wordC b, next := wordB b } s t
      | none => t = regionRow c.val b s := by
  obtain ⟨u, hu⟩ : ∃ u, u = runCommand .regionSet c.val b (dequeue c.val s) := ⟨_, rfl⟩
  refine ⟨finish (issueProduced s (settle u)), by rw [exec_regionSet, h.row, hu], ?_⟩
  replace hu := hu.trans (doRegionSet_dequeue c.val b s)
  cases htest : regionSetTest s (wordA b) (wordB b) (wordC b) (wordD b) with
  | some res => rw [htest] at hu; subst hu; exact h.refused_end c.isLt _ _
  | none => rw [htest] at hu; subst hu; rfl

/-- REGION_SET at its first granule's cached record (R196). -/
theorem regionRow_cached (h : StartsWork .regionSet c b s) (hc : c < 4) (hkind : wordD b = 1 ∨ wordD b = 2)
    (hrec : recordAt s (wordB b) = some rec) (ht : t = regionRow c b s) :
    if Claimed s (wordB b) then
      EndsAtOnce c b .granuleBusy { remaining := wordC b, next := wordB b } s t ∧
        regionOf t (wordA b) = regionGiven b .empty
    else if rec.state ≠ .gOpen then
      EndsAtOnce c b .granuleState { remaining := wordC b, next := wordB b } s t ∧
        regionOf t (wordA b) = regionGiven b .empty
    else wordC b = 1 →
      EndsAtOnce c b .done { finished := 1, next := wordB b + 1, w0 := wordA b, w1 := wordD b } s t ∧
        regionOf t (wordA b) = { first := wordB b, count := 1, noAccess := wordD b == 2, state := .set } := by
  subst ht
  have hstands : Stands c (takenChannel (chan s c))
      (regionWalk b (wordA b) (wordB b) (wordC b) (wordD b == 2) 0) s (regionBegun c b s) := h.stands_regionBegun
  have hclaims : claimed (regionBegun c b s) (wordB b) = true ↔ Claimed s (wordB b) := by
    rw [hstands.claimed rfl, claimed_iff]
  have hcached : recordAt (regionBegun c b s) (wordB b + 0) = some rec :=
    (recordAt_congr (regionBegun_ways c b s) _).trans hrec
  have hidle := h.nothingWaits hc
  split
  next hclaimed =>
    obtain ⟨v, hcome, hdone, hproduced, hregion⟩ := region_stops hstands h.quiet hc hidle h.warm hcached
      (fun _ => regionVisit_claimed (hclaims.2 hclaimed))
    exact regionRow_ends h (by decide) hcome hdone hproduced hregion
  next hclaimed =>
    split
    next hstate =>
      obtain ⟨v, hcome, hdone, hproduced, hregion⟩ := region_stops hstands h.quiet hc hidle h.warm hcached
        (fun _ => regionVisit_notOpen (mt hclaims.1 hclaimed) hstate)
      exact regionRow_ends h (by decide) hcome hdone hproduced hregion
    next hopen =>
      intro hone
      obtain ⟨v, hcome, hdone, hproduced, hregion⟩ := region_ends hstands h.quiet hc hidle h.warm hcached
        (mt hclaims.1 hclaimed) (not_not.1 hopen) hone.symm
      have hends := regionRow_ends h (by decide) hcome hdone hproduced hregion
      rwa [kindCode_eq hkind, regionGiven, hone] at hends

/-- Settles O56: QUERY_GRANULES's row, and REGION_SET's by the first test of R196 that fails. -/
theorem queryGranulesAndRegionSetWalkTheirRange : Obligations.QueryGranulesAndRegionSetWalkTheirRange := by
  constructor
  · rintro c b s _ _ h rfl rfl
    exact queryGranules_row c b s h
  · rintro c b s _ _ _ h rfl rfl rfl
    obtain ⟨t, hexec, hrow⟩ := regionSet_row c b s h
    rw [regionSetTest_eq] at hrow
    refine ⟨t, hexec, ?_⟩
    split
    next hparam => rwa [if_pos hparam] at hrow
    next hparam =>
      rw [if_neg hparam] at hrow
      split
      next hfreeze => rwa [if_pos hfreeze] at hrow
      next hfreeze =>
        rw [if_neg hfreeze] at hrow
        split
        next hlocked => rwa [if_pos hlocked] at hrow
        next hlocked =>
          rw [if_neg hlocked] at hrow
          split
          next hstate => rwa [if_pos hstate] at hrow
          next hstate =>
            rw [if_neg hstate] at hrow
            split
            next htag => rwa [if_pos htag] at hrow
            next htag =>
              rw [if_neg htag] at hrow
              split
              next hmeets => rwa [if_pos hmeets] at hrow
              next hmeets =>
                rw [if_neg hmeets] at hrow
                obtain ⟨-, hkind, hrange⟩ := not_or.1 hparam |>.imp_right not_or.1
                refine ⟨fun j hj => hrow ▸ regionRow_others h c.isLt hrange hj, ?_⟩
                split
                next hrec => subst hrow; exact regionRow_misses h c.isLt hrec
                next rec hrec => exact regionRow_cached h c.isLt (by omega) hrec hrow

end Sys2Proof.Machine
end

section
/-!
PROOFS. The Scrub Units (R125, R126): a drained granule asks for one, the free unit goes to the channel that is next in
turn, and its zero writes are issued in order.
-/

namespace Sys2Proof.Machine
variable {s t u v w : State} {c d f g i k n x y : Nat} {b : Line} {a : Active} {ch : Channel} {rec : TagRecord} {z : Zeroing}

/-! ### The rows -/

theorem exec_granuleDrainDone (c : Fin 4) (s : State) :
    exec (.granuleDrainDone c) s = answerStep s (granuleDrained c.val s) := rfl

theorem exec_scrubUnitGrant (s : State) : exec .scrubUnitGrant s = answerStep s (unitGrant s) := rfl

/-! ### The end of a granule's drain (R112, R115) -/

/-- ASSIGN, unless it keeps its granule's contents, and RELEASE zero a granule that is at step k (R112). -/
def Scrubs (W : Work) (g : Nat) : Prop :=
  ∃ d f n k, g = f + k ∧ (W = .assign d f n false k ∨ W = .release d f n k)

theorem Scrubs.facts {W : Work} (h : Scrubs W g) : granuleAt W = g ∧ zeroes W = true ∧ isRetire W = false := by
  obtain ⟨d, f, n, k, rfl, rfl | rfl⟩ := h <;> exact ⟨rfl, rfl, rfl⟩

theorem granuleDrained_eq (h : Runs c a s) (hphase : a.phase = .drain) (hwait : a.wait = .drain)
    (hwork : Scrubs a.work g) (hno : NoDrain (.command c) s) :
    granuleDrained c s = some (settle (goPhase c .afterDrain .running s)) := by
  have hdone : drainDone c .drain (.command c) s = some a.work := by
    simp only [drainDone, h.active]
    rw [if_pos ⟨hphase, hwait, drained_iff.2 hno⟩]
  rw [granuleDrained, hdone]
  obtain ⟨d, f, n, k, -, hw | hw⟩ := hwork <;> rw [hw]

/-- A command that runs under this claim stands at its channel with it. -/
theorem Runs.stands_claim {claim : Option Nat} (h : Runs c a s) (hclaim : (chan s c).claim = claim) :
    Stands c { chan s c with claim := claim } a s s := by
  subst hclaim
  exact h.stands

/-- GRANULE_DRAIN_DONE's row for a sound granule under its command's claim (R112, R115). -/
theorem granuleDrainDone_row (c : Fin 4) (h : Runs c.val a s) (hphase : a.phase = .drain) (hwait : a.wait = .drain)
    (hwork : Scrubs a.work g) (hno : NoDrain (.command c.val) s) (hclaim : (chan s c.val).claim = some g)
    (hrec : recordAt s g = some rec) (hsound : rec.state ≠ .gPoisoned) :
    ∃ t, exec (.granuleDrainDone c) s = .next t ∧
      GoesOn c.val { a with phase := .unit, wait := .unit } (some g) s t ∧ Untouched s { t with lru := s.lru } := by
  obtain ⟨hgranule, hzeroes, hretire⟩ := hwork.facts
  have hdrained := (h.stands_claim hclaim).goPhase .afterDrain .running
  obtain ⟨v, hcome, hunit, horder⟩ := hdrained.asks (rec := rec) h.quiet c.isLt (h.nothingWaits c.isLt) rfl rfl hzeroes
    hretire (hgranule.symm ▸ hrec)
    (fun x => hgranule.symm ▸ laterStop_claimed hretire ((hdrained.touch x).ownClaim rfl) hsound)
  replace horder := ((OrderOnly.refl s).goPhase c.val .afterDrain .running).trans horder
  refine ⟨finish v, ?_, hunit.goesOn, horder.finish⟩
  rw [exec_granuleDrainDone, granuleDrained_eq h hphase hwait hwork hno]
  exact congrArg _ (rowEnd_of_comesTo hcome (by decide) horder.produced)

/-! ### The issue of zero writes (R10, R125) -/

theorem mem_insertJob {j q : OwnJob} {l : List OwnJob} : q ∈ insertJob j l ↔ q = j ∨ q ∈ l := by
  induction l with
  | nil => simp [insertJob]
  | cons y l ih =>
    unfold insertJob
    split
    · simp
    · simp [ih, or_left_comm]

theorem mem_foldr_insertJob {q : OwnJob} {l : List OwnJob} : q ∈ l.foldr insertJob [] ↔ q ∈ l := by
  induction l with
  | nil => simp
  | cons j l ih => simp [mem_insertJob, ih]

/-- What is noted of a request that is issued: of a zero write, one line more of its unit (R125). -/
theorem unitOf_noteIssue (y : Nat) (j : OwnJob) (s : State) (x : Nat) :
    ∃ m, unitOf (noteIssue y j s) x = (unitOf s x).map (fun z => { z with issued := z.issued + m }) := by
  have hsame : unitOf s x = (unitOf s x).map (fun z => { z with issued := z.issued + 0 }) := by simp
  cases j with
  | zeroLine v line =>
    cases hv : unitOf s v with
    | none => exact ⟨0, by simp [noteIssue, hv]⟩
    | some z =>
      have hnote : noteIssue y (.zeroLine v line) s = setUnit v { z with issued := z.issued + 1 } s := by
        simp [noteIssue, hv]
      rw [hnote, unitOf_setUnit]
      split
      next hx => exact ⟨1, by rw [hx, hv]; rfl⟩
      next => exact ⟨0, hsame⟩
  | _ => exact ⟨0, hsame⟩

/-- The issue of a request changes of a Scrub Unit how many of its lines are issued, and nothing else (R10, R125). -/
theorem unitOf_issueJob (j : OwnJob) (s : State) (x : Nat) :
    ∃ m, unitOf (issueJob j s) x = (unitOf s x).map (fun z => { z with issued := z.issued + m }) := by
  have hsame : unitOf s x = (unitOf s x).map (fun z => { z with issued := z.issued + 0 }) := by simp
  unfold issueJob
  split
  · exact ⟨0, hsame⟩
  · cases freeTag (jobClass j) s with
    | none => exact ⟨0, hsame⟩
    | some y => exact unitOf_noteIssue y j _ x

theorem unitOf_issueJobs (l : List OwnJob) (s : State) (x : Nat) : ∃ m,
    unitOf (l.foldl (fun t j => issueJob j t) s) x = (unitOf s x).map (fun z => { z with issued := z.issued + m }) := by
  induction l generalizing s with
  | nil => exact ⟨0, by simp⟩
  | cons j l ih =>
    obtain ⟨m, hm⟩ := ih (issueJob j s)
    obtain ⟨m', hm'⟩ := unitOf_issueJob j s x
    refine ⟨m' + m, ?_⟩
    rw [List.foldl_cons, hm, hm', Option.map_map]
    simp [Function.comp_def, Nat.add_assoc]

/-- The end of a step changes of a unit how many of its lines are issued (R10, R125). -/
theorem unitOf_issueProduced (old s : State) (x : Nat) :
    ∃ m, unitOf (issueProduced old s) x = (unitOf s x).map (fun z => { z with issued := z.issued + m }) :=
  unitOf_issueJobs _ _ x

/-- The zero write of line i of granule g by unit x waits for a tag, or stands offered at its address (R10, R125). -/
def ZeroLineGoes (x g i base : Nat) (t : State) : Prop :=
  .zeroLine x i ∈ t.tagWaits ∨ ∃ o ∈ t.outstanding, o.job = .zeroLine x i ∧
    { tag := o.tag, kind := .write, domain := 0, mask := 0, data := .line 0
      address := base + 4096 * g + 64 * i } ∈ t.offers

theorem ZeroLineGoes.mono {base : Nat} (h : ZeroLineGoes x g i base s) (hwaits : s.tagWaits ⊆ t.tagWaits)
    (hout : s.outstanding ⊆ t.outstanding) (hoffers : s.offers ⊆ t.offers) : ZeroLineGoes x g i base t := by
  rcases h with h | ⟨o, ho, hjob, hoffer⟩
  · exact .inl (hwaits h)
  · exact .inr ⟨o, hout ho, hjob, hoffers hoffer⟩

theorem ZeroLineGoes.issueJob {base : Nat} (h : ZeroLineGoes x g i base s) (j : OwnJob) :
    ZeroLineGoes x g i base (issueJob j s) := by
  rcases issueJob_cases j s with ⟨hw, ho, hf⟩ | ⟨y, hw, ho, hf⟩ <;> exact h.mono (by simp [hw]) (by simp [ho]) (by simp [hf])

/-- The issue of a zero write lets it wait, or offers a line of zeros at its address (R10, R125). -/
theorem zeroLineGoes_issueJob (hg : (unitOf s x).map (·.granule) = some g) :
    ZeroLineGoes x g i s.base (Machine.issueJob (.zeroLine x i) s) := by
  rcases issueJob_cases (.zeroLine x i) s with ⟨hw, -, -⟩ | ⟨y, -, ho, hf⟩
  · exact .inl (by simp [hw])
  · refine .inr ⟨{ tag := y, job := .zeroLine x i, changed := false, timer := 0 }, by simp [ho], rfl, ?_⟩
    simp [hf, packetOf, hg, Config.granuleBytes]

theorem zeroLineGoes_issueJobs {l : List OwnJob} {base : Nat} (hg : (unitOf s x).map (·.granule) = some g)
    (hbase : s.base = base) (h : .zeroLine x i ∈ l ∨ ZeroLineGoes x g i base s) :
    ZeroLineGoes x g i base (l.foldl (fun t j => Machine.issueJob j t) s) := by
  induction l generalizing s with
  | nil => exact h.resolve_left List.not_mem_nil
  | cons j l ih =>
    obtain ⟨m, hm⟩ := unitOf_issueJob j s x
    refine ih ?_ (by simp [hbase]) ?_
    · rw [hm, Option.map_map, ← hg]
      rfl
    · rcases h with h | h
      · rcases List.mem_cons.1 h with rfl | h
        · exact .inr (hbase ▸ zeroLineGoes_issueJob hg)
        · exact .inl h
      · exact .inr (h.issueJob j)

/-- The zero writes of a granule's 64 lines, in order (R125). -/
def zeroJobs (x : Nat) : List OwnJob := (List.range 64).map (.zeroLine x)

/-- The end of a step that has produced the zero writes of a unit: each waits or stands offered (R10, R125). -/
theorem zeroLineGoes_finish {old : State} {base : Nat} (hg : (unitOf s x).map (·.granule) = some g)
    (hbase : s.base = base) (hp : s.produced = old.produced ++ zeroJobs x) (hi : i < 64) :
    ZeroLineGoes x g i base (finish (issueProduced old s)) := by
  have hmem : .zeroLine x i ∈ producedJobs old s := by
    rw [producedJobs, hp, List.drop_left, mem_foldr_insertJob]
    exact List.mem_map_of_mem (List.mem_range.2 hi)
  have hissued : ZeroLineGoes x g i base (issueProduced old s) :=
    zeroLineGoes_issueJobs (s := { s with produced := old.produced }) hg hbase (.inl hmem)
  exact hissued.mono (by simp) (by simp) (by simp)

/-! ### The grant of a unit (R126) -/

theorem waitsForUnit_of_active (ha : (chan s c).active = some a) : waitsForUnit s c = (a.wait == .unit) := by
  rw [waitsForUnit, ha]

/-- The asking channel next in turn after the last served (R126). -/
theorem nextServed_eq (hk : 1 ≤ k) (hk4 : k ≤ 4) (hc : c = (s.lastServed + k) % 4) (ha : (chan s c).active = some a)
    (hwait : a.wait = .unit)
    (hbefore : ∀ j a', 1 ≤ j → j < k → (chan s ((s.lastServed + j) % 4)).active = some a' → a'.wait ≠ .unit) :
    nextServed s = some c := by
  have hyes : waitsForUnit s ((s.lastServed + k) % 4) = true := by
    rw [← hc, waitsForUnit_of_active ha, hwait]
    rfl
  have hnot : ∀ j, 1 ≤ j → j < k → waitsForUnit s ((s.lastServed + j) % 4) = false := fun j h1 hjk => by
    cases ha' : (chan s ((s.lastServed + j) % 4)).active with
    | none => rw [waitsForUnit, ha']
    | some a' => rw [waitsForUnit_of_active ha']; simpa using hbefore j a' h1 hjk ha'
  rw [hc]
  obtain rfl | rfl | rfl | rfl : k = 1 ∨ k = 2 ∨ k = 3 ∨ k = 4 := by omega
  · simp [nextServed, hyes]
  · simp [nextServed, hyes, hnot 1]
  · simp [nextServed, hyes, hnot 1, hnot 2]
  · simpa [nextServed, hnot 1, hnot 2, hnot 3] using hyes

/-- A Scrub Unit as it is granted to a channel for a granule (R125). -/
def freshUnit (c g : Nat) : Zeroing :=
  { channel := c, granule := g, issued := 0, completed := 0, failed := false, halted := false }

/-- The part with unit x granted to channel c for granule g, before its writes are issued (R125, R126). -/
def unitGranted (x c g : Nat) (s : State) : State :=
  { goPhase c .zero .zero (setUnit x (freshUnit c g) { s with lastServed := c }) with
    produced := s.produced ++ zeroJobs x }

theorem grantUnit_eq (ha : (chan s c).active = some a) : grantUnit x c s = unitGranted x c (granuleAt a.work) s := by
  have hserved : granuleServed s c = granuleAt a.work := by rw [granuleServed, ha]
  rw [grantUnit, hserved]
  exact foldl_produceJob (OwnJob.zeroLine x) (List.range 64) _

theorem chan_unitGranted (ha : (chan s c).active = some a) (y : Nat) : chan (unitGranted x c g s) y =
    if y = c then { chan s c with active := some { a with phase := .zero, wait := .zero } } else chan s y := by
  have hgo := chan_goPhase (s := setUnit x (freshUnit c g) { s with lastServed := c }) c y .zero .zero
  have hsame : ∀ y, chan (setUnit x (freshUnit c g) { s with lastServed := c }) y = chan s y := fun _ => rfl
  rw [hsame, hsame, ha] at hgo
  exact hgo

/-- SCRUB_UNIT_GRANT's row (R125, R126). -/
theorem scrubUnitGrant_row (hfree : tblFree 2 s.units = some x) (hnext : nextServed s = some c)
    (ha : (chan s c).active = some a) :
    ∃ t, exec .scrubUnitGrant s = .next t ∧ t.lastServed = c ∧
      (∃ z, unitOf t x = some z ∧ z.channel = c ∧ z.granule = granuleAt a.work ∧ z.completed = 0 ∧ z.failed = false ∧
        z.halted = false) ∧
      (∀ i, i < 64 → ZeroLineGoes x (granuleAt a.work) i s.base t) ∧
      chan t c = { chan s c with active := some { a with phase := .zero, wait := .zero } } ∧ OtherChannels c s t ∧
      t.ways = s.ways ∧ ∀ d, dom t d = dom s d := by
  have hrow : unitGrant s = some (unitGranted x c (granuleAt a.work) s) := by
    rw [unitGrant, show idleUnitNumber s = some x from hfree, hnext]
    exact congrArg some (grantUnit_eq ha)
  have hchan := chan_unitGranted (x := x) (g := granuleAt a.work) ha
  have hunit : unitOf (unitGranted x c (granuleAt a.work) s) x = some (freshUnit c (granuleAt a.work)) :=
    unitOf_setUnit_same ..
  obtain ⟨v, hv⟩ : ∃ v, v = unitGranted x c (granuleAt a.work) s := ⟨_, rfl⟩
  rw [← hv] at hrow hchan hunit
  have hbase : v.base = s.base := by rw [hv]; rfl
  have hproduced : v.produced = s.produced ++ zeroJobs x := by rw [hv]; rfl
  have hserved : v.lastServed = c := by rw [hv]; rfl
  have hways : v.ways = s.ways := by rw [hv]; rfl
  have hdom : ∀ d, dom v d = dom s d := fun d => by rw [hv]; rfl
  obtain ⟨m, hm⟩ := unitOf_issueProduced s v x
  rw [hunit] at hm
  refine ⟨finish (issueProduced s v), by rw [exec_scrubUnitGrant, hrow]; rfl, by simp [hserved],
    ⟨_, (unitOf_finish _ x).trans hm, rfl, rfl, rfl, rfl, rfl⟩,
    fun i hi => zeroLineGoes_finish (by rw [hunit]; rfl) hbase hproduced hi, ?_, fun y hy => ?_, ?_, fun d => ?_⟩
  · rw [chan_finish, chan_issueProduced, hchan, if_pos rfl]
  · rw [chan_finish, chan_issueProduced, hchan, if_neg hy]
  · rw [finish_ways, issueProduced_ways, hways]
  · rw [dom_finish, dom_issueProduced, hdom]

end Sys2Proof.Machine
end

section
/-!
PROOFS. The ends of zero writes (R125 to R127): one that others follow, the first that fails, and the last, after which
the unit is free and its command looks its granule up again.
-/

namespace Sys2Proof.Machine
variable {s t u v w : State} {c d f g i k n x y : Nat} {b : Line} {a : Active} {ch : Channel} {rec : TagRecord} {z : Zeroing}
  {tag : Fin 1024} {o : Outstanding}

theorem exec_zeroWriteCompletion (tag : Fin 1024) (status : DownStatus) (s : State) :
    exec (.zeroWriteCompletion tag status) s = answerStep s (writeCompletion .zeroWrite tag.val status s) := rfl

theorem isZeroOf_iff {j : OwnJob} : isZeroOf x j = true ↔ ∃ i, j = .zeroLine x i := by
  cases j <;> simp [isZeroOf]

/-- A record's change leaves the outstanding requests what they ask for (R42). -/
theorem putRecord_jobs (g : Nat) (r : TagRecord) (s : State) :
    (putRecord g r s).outstanding.map (·.job) = s.outstanding.map (·.job) := by
  unfold putRecord
  split
  · rfl
  · split
    · rfl
    · simp only [List.map_map]
      congr 1
      funext o
      dsimp only [Function.comp]
      split
      · split <;> rfl
      · rfl

/-! ### A unit that has a write left, and one that has none (R125) -/

theorem settleUnit_waits (hleft : ∃ j ∈ u.outstanding.map (·.job), isZeroOf x j = true) : settleUnit x u = u := by
  have hany : u.outstanding.any (fun o => isZeroOf x o.job) = true := by
    obtain ⟨j, hj, hzero⟩ := hleft
    obtain ⟨o, ho, rfl⟩ := List.mem_map.1 hj
    exact List.any_eq_true.2 ⟨o, ho, hzero⟩
  unfold settleUnit
  split
  · rfl
  · rw [hany]
    rfl

/-- A unit whose last line has been written is IDLE, and its command looks its granule up (R115, R125). -/
theorem settleUnit_frees (hunit : unitOf u x = some z) (hout : ∀ y ∈ u.outstanding, isZeroOf x y.job = false)
    (hwaits : ∀ j ∈ waitingJobs u, isZeroOf x j = false) (ha : (chan u z.channel).active = some a)
    (hphase : a.phase = .zero) (hhalted : z.halted = false) :
    settleUnit x u = goPhase z.channel .afterZero .running (idleUnit x u) := by
  have hleft : ¬(u.outstanding.any (fun o => isZeroOf x o.job) || (waitingJobs u).any (isZeroOf x)) = true := by
    simp only [Bool.or_eq_true, List.any_eq_true, not_or, not_exists, not_and, Bool.not_eq_true]
    exact ⟨hout, hwaits⟩
  have ha' : (chan (idleUnit x u) z.channel).active = some a := ha
  unfold settleUnit
  rw [hunit]
  dsimp only
  rw [if_neg hleft, ha']
  dsimp only
  rw [hphase]
  dsimp only
  rw [if_neg (by simp [hhalted])]

/-! ### The row of a zero write's completion -/

/-- In s the zero write of line i of unit x is outstanding under this tag. -/
structure ZeroEnds (tag : Fin 1024) (o : Outstanding) (x i : Nat) (z : Zeroing) (s : State) : Prop where
  out   : outstandingAt s tag.val = some o
  job   : o.job = .zeroLine x i
  unit  : unitOf s x = some z
  quiet : Quiet s

theorem ZeroEnds.row (h : ZeroEnds tag o x i z s) (status : DownStatus) : exec (.zeroWriteCompletion tag status) s =
    .next (finish (issueProduced s (settle (zeroWriteEnded x (status == .ok) (retireTag tag.val s))))) := by
  have hclass : jobClass o.job = .zeroWrite ∧ ReqClass.zeroWrite ≠ .fill := by
    rw [h.job]
    exact ⟨rfl, by decide⟩
  have hended : ∀ ok u, jobEnded o ok u = zeroWriteEnded x ok u := fun ok u => by rw [jobEnded, h.job]
  rw [exec_zeroWriteCompletion, writeCompletion, h.out]
  dsimp only
  rw [if_pos hclass, hended]
  rfl

/-- A zero write of unit x other than the one under this tag is outstanding. -/
def OthersLeft (tag x : Nat) (s : State) : Prop := ∃ y ∈ s.outstanding, y.tag ≠ tag ∧ ∃ j, y.job = .zeroLine x j

theorem OthersLeft.jobs {tag : Nat} (h : OthersLeft tag x s) :
    ∃ j ∈ (retireTag tag s).outstanding.map (·.job), isZeroOf x j = true := by
  obtain ⟨y, hy, hne, hjob⟩ := h
  have hmem : y ∈ (retireTag tag s).outstanding := List.mem_filter.2 ⟨hy, by simpa using hne⟩
  exact ⟨y.job, List.mem_map_of_mem hmem, isZeroOf_iff.2 hjob⟩

/-- The part once a line of unit x has been written OK: it is counted (R125). -/
def lineZeroed (tag x : Nat) (z : Zeroing) (s : State) : State :=
  setUnit x { z with completed := z.completed + 1 } (retireTag tag s)

theorem chan_lineZeroed (tag x : Nat) (z : Zeroing) (s : State) (c : Nat) :
    chan (lineZeroed tag x z s) c = chan s c := by
  simp [lineZeroed]

theorem lineZeroed_channels (tag x : Nat) (z : Zeroing) (s : State) :
    (lineZeroed tag x z s).channels = s.channels := by
  simp [lineZeroed]

theorem lineZeroed_ways (tag x : Nat) (z : Zeroing) (s : State) : (lineZeroed tag x z s).ways = s.ways := by
  simp [lineZeroed]

theorem lineZeroed_produced (tag x : Nat) (z : Zeroing) (s : State) :
    (lineZeroed tag x z s).produced = s.produced := by
  simp [lineZeroed]

theorem sameRest_lineZeroed (tag x : Nat) (z : Zeroing) (s : State) : SameRest s (lineZeroed tag x z s) := by
  constructor <;> simp [lineZeroed]

theorem ZeroEnds.ended_ok (h : ZeroEnds tag o x i z s) :
    zeroWriteEnded x true (retireTag tag.val s) = settleUnit x (lineZeroed tag.val x z s) := by
  have hunit : unitOf (retireTag tag.val s) x = some z := h.unit
  rw [zeroWriteEnded, hunit]
  rfl

/-- An OK write that others follow is counted at its unit (R125). -/
theorem ZeroEnds.counts (h : ZeroEnds tag o x i z s) (hleft : OthersLeft tag.val x s) :
    ∃ t, exec (.zeroWriteCompletion tag .ok) s = .next t ∧ unitOf t x = some { z with completed := z.completed + 1 } ∧
      t.outstanding = s.outstanding.filter (fun y => y.tag != tag.val) ∧ t.ways = s.ways ∧
      ∀ c, chan t c = chan s c := by
  have hrow := h.row .ok
  have hwaits : settleUnit x (lineZeroed tag.val x z s) = lineZeroed tag.val x z s := settleUnit_waits hleft.jobs
  rw [show (DownStatus.ok == .ok) = true from rfl, h.ended_ok, hwaits,
    settle_quiet (h.quiet.congr (fun c _ => by rw [chan_lineZeroed]; exact .refl _) (sameRest_lineZeroed ..)),
    issueProduced_same _ (lineZeroed_produced ..)] at hrow
  refine ⟨_, hrow, ?_, ?_, ?_, fun c => ?_⟩
  · rw [unitOf_finish]
    exact unitOf_setUnit_same ..
  · rw [finish_outstanding]
    rfl
  · rw [finish_ways, lineZeroed_ways]
  · rw [chan_finish, chan_lineZeroed]

/-! ### The first write that fails (R127) -/

/-- The part once a line of unit x has failed: the unit is halted, and its lines without a tag are dropped (R127). -/
def unitFailed (tag x : Nat) (z : Zeroing) (s : State) : State :=
  setUnit x { z with failed := true, halted := true }
    (keepJobs (fun j => !isZeroOf x j) (setUnit x { z with failed := true } (retireTag tag s)))

theorem unitFailed_channels (tag x : Nat) (z : Zeroing) (s : State) :
    (unitFailed tag x z s).channels = s.channels := by
  simp [unitFailed, keepJobs]

theorem sameRest_unitFailed (tag x : Nat) (z : Zeroing) (s : State) : SameRest s (unitFailed tag x z s) := by
  constructor <;> simp [unitFailed, keepJobs]

/-- The part once the command of channel c is to stop for a failed zeroing (R127). -/
def scrubFails (c tag x : Nat) (z : Zeroing) (s : State) : State :=
  goPhase c .scrubFailed .poison (goEnding c .poisoned (unitFailed tag x z s))

theorem unitOf_scrubFails (c tag x : Nat) (z : Zeroing) (s : State) :
    unitOf (scrubFails c tag x z s) x = some { z with failed := true, halted := true } := by
  simp [scrubFails, unitFailed]

theorem scrubFails_ways (c tag x : Nat) (z : Zeroing) (s : State) : (scrubFails c tag x z s).ways = s.ways := by
  simp [scrubFails, unitFailed, keepJobs]

theorem scrubFails_poisonList (c tag x : Nat) (z : Zeroing) (s : State) :
    (scrubFails c tag x z s).poisonList = s.poisonList := by
  simp [scrubFails, unitFailed, keepJobs]

theorem scrubFails_outstanding (c tag x : Nat) (z : Zeroing) (s : State) :
    (scrubFails c tag x z s).outstanding = (retireTag tag s).outstanding := by
  simp [scrubFails, unitFailed, keepJobs]

theorem length_scrubFails_produced (c tag x : Nat) (z : Zeroing) (s : State) :
    (scrubFails c tag x z s).produced.length ≤ s.produced.length := by
  simp [scrubFails, unitFailed, keepJobs, List.length_filter_le]

/-- The part once the granule of a failed zeroing has been poisoned (R54, R127). -/
def scrubPoisoned (g : Nat) (rec : TagRecord) (u : State) : State :=
  poisonTables g rec.owner .scrubFailed (putRecord g (poisonedRecord rec.owner) u)

theorem servedBy_of_unit (hunit : unitOf u x = some z) : servedBy u z.channel = true :=
  List.any_eq_true.2 ⟨(x, z), mem_of_tblGet hunit, beq_self_eq_true _⟩

/-- While a unit still serves the channel, its command does not end (R127). -/
theorem tryEndScrub_served (hserved : servedBy u c = true) : tryEndScrub c u = u := by
  unfold tryEndScrub
  split
  · rfl
  · rw [if_neg (by simp [hserved])]

theorem scrubPoisoned_integrityOnly (g : Nat) (rec : TagRecord) (u : State) :
    IntegrityOnly (putRecord g (poisonedRecord rec.owner) u) (scrubPoisoned g rec u) :=
  integrityOnly_poisonTables ..

theorem scrubPoisoned_units (g : Nat) (rec : TagRecord) (u : State) : (scrubPoisoned g rec u).units = u.units :=
  (congrArg State.units (scrubPoisoned_integrityOnly g rec u) :).trans (by simp)

theorem scrubPoisoned_jobs (g : Nat) (rec : TagRecord) (u : State) :
    (scrubPoisoned g rec u).outstanding.map (·.job) = u.outstanding.map (·.job) := by
  have hout : (scrubPoisoned g rec u).outstanding = (putRecord g (poisonedRecord rec.owner) u).outstanding :=
    (congrArg State.outstanding (scrubPoisoned_integrityOnly g rec u) :)
  rw [hout, putRecord_jobs]

theorem scrubPoisoned_sameRest (g : Nat) (rec : TagRecord) (u : State) : SameRest u (scrubPoisoned g rec u) :=
  (sameRest_putRecord ..).trans (scrubPoisoned_integrityOnly g rec u).kept.1

theorem scrubPoisoned_channels (g : Nat) (rec : TagRecord) (u : State) :
    (scrubPoisoned g rec u).channels = u.channels :=
  (scrubPoisoned_integrityOnly g rec u).kept.2.1.trans (by simp)

theorem scrubPoisoned_ways (g : Nat) (rec : TagRecord) (u : State) :
    (scrubPoisoned g rec u).ways = (putRecord g (poisonedRecord rec.owner) u).ways :=
  (scrubPoisoned_integrityOnly g rec u).kept.2.2.1

theorem scrubPoisoned_produced (g : Nat) (rec : TagRecord) (u : State) :
    (scrubPoisoned g rec u).produced = u.produced :=
  (scrubPoisoned_integrityOnly g rec u).kept.2.2.2.trans (by simp)

/-- The poisoning of a cached granule is made at once; its command goes on when its unit is IDLE (R51, R127). -/
theorem orderPoison_scrub (hrec : recordAt u g = some rec) (hundo : (chan u z.channel).undo = none)
    (hunit : unitOf u x = some z) :
    orderPoison g .scrubFailed (.scrub z.channel) u = scrubPoisoned g rec u := by
  have hnow : poisonNow g .scrubFailed u = scrubPoisoned g rec u := by
    rw [poisonNow, hrec]
    rfl
  have hundo' : (chan (scrubPoisoned g rec u) z.channel).undo = none := by
    rw [chan, scrubPoisoned_channels]
    exact hundo
  have hunit' : unitOf (scrubPoisoned g rec u) x = some z := by
    rw [unitOf, scrubPoisoned_units]
    exact hunit
  rw [orderPoison, hrec]
  dsimp only
  rw [hnow, poisonMade, hundo']
  exact tryEndScrub_served (servedBy_of_unit hunit')

theorem Runs.stands_scrubFails (h : Runs c a s) (tag x : Nat) (z : Zeroing) :
    Stands c (chan s c) { a with phase := .scrubFailed, wait := .poison, ending := some .poisoned } s
      (scrubFails c tag x z s) := by
  have hfailed : Stands c (chan s c) a s (unitFailed tag x z s) :=
    h.stands.congr (unitFailed_channels ..) (sameRest_unitFailed ..)
  have hending := (hfailed.mapActive fun a => { a with ending := some (a.ending.getD .poisoned) }).goPhase .scrubFailed
    .poison
  rw [h.ending] at hending
  exact hending

theorem haltUnit_eq (hunit : unitOf u x = some z) :
    haltUnit x u = setUnit x { z with halted := true } (keepJobs (fun j => !isZeroOf x j) u) := by
  rw [haltUnit, hunit]

/-- The first failure halts its unit and poisons its granule (R54, R127). -/
theorem ZeroEnds.ended_error (h : ZeroEnds tag o x i z s) (hc : z.channel < 4) (hruns : Runs z.channel a s)
    (hfailed : z.failed = false) (hflush : s.flush = .none) (hrec : recordAt s z.granule = some rec)
    (hleft : OthersLeft tag.val x s) :
    zeroWriteEnded x false (retireTag tag.val s) =
      scrubPoisoned z.granule rec (scrubFails z.channel tag.val x z s) := by
  have hunit : unitOf (retireTag tag.val s) x = some z := by rw [unitOf_retireTag, h.unit]
  have hhalt : haltUnit x (setUnit x { z with failed := true } (retireTag tag.val s)) = unitFailed tag.val x z s :=
    haltUnit_eq (unitOf_setUnit_same ..)
  have hwarned : ¬warned (unitFailed tag.val x z s) = true := by
    rw [warned, (sameRest_unitFailed tag.val x z s).flush, hflush]
    decide
  have hstands := hruns.stands_scrubFails tag.val x z
  obtain ⟨u, hu⟩ : ∃ u, u = scrubFails z.channel tag.val x z s := ⟨_, rfl⟩
  rw [← hu] at hstands ⊢
  have hundo : (chan u z.channel).undo = none := by
    rw [hstands.self]
    exact (hruns.nothingWaits hc).2.2.1
  have hcached : recordAt u z.granule = some rec := by
    rw [hu, recordAt_congr (scrubFails_ways ..), hrec]
  have hpoison := orderPoison_scrub (z := { z with failed := true, halted := true }) hcached hundo
    (by rw [hu]; exact unitOf_scrubFails ..)
  have hjobs : ∃ j ∈ (scrubPoisoned z.granule rec u).outstanding.map (·.job), isZeroOf x j = true := by
    rw [scrubPoisoned_jobs, hu, scrubFails_outstanding]
    exact hleft.jobs
  have hfails : goPhase z.channel .scrubFailed .poison (goEnding z.channel .poisoned (unitFailed tag.val x z s)) = u :=
    hu.symm
  rw [zeroWriteEnded, hunit]
  dsimp only
  rw [if_neg (by decide), if_neg (by simp [hfailed]), hhalt, if_neg hwarned, hfails, hpoison, settleUnit_waits hjobs]

/-- An ERROR that other writes follow: the unit is halted, the granule POISONED with its owner kept, and its command
waits for the unit (R54, R127). -/
theorem ZeroEnds.poisons (h : ZeroEnds tag o x i z s) (hc : z.channel < 4) (hruns : Runs z.channel a s)
    (hfailed : z.failed = false) (hflush : s.flush = .none) (hrec : recordAt s z.granule = some rec)
    (hleft : OthersLeft tag.val x s) :
    ∃ t, exec (.zeroWriteCompletion tag .error) s = .next t ∧
      unitOf t x = some { z with failed := true, halted := true } ∧
      RecordNow z.granule (poisonedRecord rec.owner) s t ∧
      (s.poisonList.length < 16 → ∃ e ∈ t.poisonList, e.granule = z.granule ∧ e.owner = rec.owner) ∧
      GoesOn z.channel { a with phase := .scrubFailed, wait := .poison, ending := some .poisoned }
        (chan s z.channel).claim s t := by
  have hrow := h.row .error
  rw [show (DownStatus.error == .ok) = false from rfl, h.ended_error hc hruns hfailed hflush hrec hleft] at hrow
  have hstands := hruns.stands_scrubFails tag.val x z
  obtain ⟨u, hu⟩ : ∃ u, u = scrubFails z.channel tag.val x z s := ⟨_, rfl⟩
  rw [← hu] at hrow hstands
  have hunit : unitOf u x = some { z with failed := true, halted := true } := by rw [hu]; exact unitOf_scrubFails ..
  have hways : u.ways = s.ways := by rw [hu]; exact scrubFails_ways ..
  have hlist : u.poisonList = s.poisonList := by rw [hu]; exact scrubFails_poisonList ..
  have hproduced : u.produced.length ≤ s.produced.length := by rw [hu]; exact length_scrubFails_produced ..
  obtain ⟨v, hv⟩ : ∃ v, v = scrubPoisoned z.granule rec u := ⟨_, rfl⟩
  have hat : Stands z.channel (chan s z.channel)
      { a with phase := .scrubFailed, wait := .poison, ending := some .poisoned } s v :=
    hstands.congr (by rw [hv, scrubPoisoned_channels]) (by rw [hv]; exact scrubPoisoned_sameRest ..)
  have hquiet : Quiet v := (hat.at (hruns.nothingWaits hc)).quiet h.quiet hc rfl
  rw [← hv, settle_quiet hquiet, issueProduced_none (by rw [hv, scrubPoisoned_produced]; exact hproduced)] at hrow
  have hissued : Stands z.channel { chan s z.channel with claim := (chan s z.channel).claim }
      { a with phase := .scrubFailed, wait := .poison, ending := some .poisoned } s
      { v with produced := s.produced } := hat.congr rfl ⟨rfl, rfl, rfl, rfl, rfl⟩
  refine ⟨_, hrow, ?_, ?_, fun hroom => ?_, hissued.goesOn⟩
  · rw [unitOf_finish]
    show unitOf v x = _
    rw [unitOf, hv, scrubPoisoned_units]
    exact hunit
  · refine (recordNow_putRecord (r' := poisonedRecord rec.owner) ((recordAt_congr hways z.granule).trans hrec)).congr
      hways.symm ?_
    rw [finish_ways]
    exact (congrArg State.ways hv).trans (scrubPoisoned_ways ..)
  · obtain ⟨-, hlisted⟩ := poisonTables_poisons z.granule rec.owner .scrubFailed
      (putRecord z.granule (poisonedRecord rec.owner) u)
    rw [putRecord_poisonList, hlist] at hlisted
    rw [finish_poisonList]
    show ∃ e ∈ v.poisonList, _
    rw [hv]
    exact hlisted hroom

/-! ### The last write (R115, R125) -/

/-- The part once the last line of unit x has been written OK: the unit is IDLE, and channel c's command is to look its
granule up (R115, R125). -/
def unitFreed (c tag x : Nat) (z : Zeroing) (s : State) : State :=
  goPhase c .afterZero .running (idleUnit x (lineZeroed tag x z s))

/-- What the end of a zeroing leaves of the tables that its command finishes with. -/
structure Scrubbed (x : Nat) (s u : State) : Prop where
  unit       : unitOf u x = none
  ways       : u.ways = s.ways
  domains    : u.domains = s.domains
  poisonList : u.poisonList = s.poisonList
  produced   : u.produced = s.produced
  size       : u.size = s.size

theorem scrubbed_unitFreed (c tag x : Nat) (z : Zeroing) (s : State) : Scrubbed x s (unitFreed c tag x z s) := by
  constructor <;> simp [unitFreed, lineZeroed]

theorem Scrubbed.touch (h : Scrubbed x s u) (k : Nat) : Scrubbed x s (touch k u) :=
  ⟨h.unit, h.ways, h.domains, h.poisonList, h.produced, h.size⟩

/-- The command of the freed unit stands before its lookup. -/
theorem Runs.stands_unitFreed (h : Runs c a s) (tag x : Nat) (z : Zeroing) :
    Stands c (chan s c) { a with phase := .afterZero, wait := .running } s (unitFreed c tag x z s) := by
  have hfreed : Stands c (chan s c) a s (idleUnit x (lineZeroed tag x z s)) := by
    refine h.stands.congr ?_ ((sameRest_lineZeroed tag x z s).trans ⟨rfl, rfl, rfl, rfl, rfl⟩)
    rw [idleUnit_channels, lineZeroed_channels]
  exact hfreed.goPhase .afterZero .running

theorem chanStep_afterZero (hphase : a.phase = .afterZero) (hrec : recordAt u (granuleAt a.work) = some rec) :
    ∃ k, chanStep c a u = afterZero c a rec (touch k u) := by
  rw [chanStep, hphase]
  exact withRecord_hit hrec

theorem afterZero_finishes (hlater : laterStop c (granuleAt a.work) a rec u = none) :
    afterZero c a rec u = finishGranule c (granuleAt a.work) a.work rec u := by
  rw [afterZero, hlater]

/-- The zero write under this tag is the last of unit x, which serves command a of channel c at a cached record. -/
structure LastZero (tag : Fin 1024) (x : Nat) (z : Zeroing) (c : Nat) (a : Active) (rec : TagRecord) (s : State) :
    Prop where
  channel : z.channel = c
  halted  : z.halted = false
  runs    : Runs c a s
  phase   : a.phase = .zero
  record  : recordAt s (granuleAt a.work) = some rec
  out     : ∀ y ∈ s.outstanding, y.tag ≠ tag.val → ∀ j, y.job ≠ .zeroLine x j
  waits   : ∀ j, OwnJob.zeroLine x j ∉ waitingJobs s

/-- Past its last zero write a command that no later test stops finishes its granule (R112, R115). -/
theorem ZeroEnds.finishes (h : ZeroEnds tag o x i z s) (l : LastZero tag x z c a rec s) (hc : c < 4)
    (hlater : ∀ u, (chan u c).claim = (chan s c).claim →
      laterStop c (granuleAt a.work) { a with phase := .afterZero, wait := .running } rec u = none) :
    ∃ u, Scrubbed x s u ∧ Stands c (chan s c) { a with phase := .afterZero, wait := .running } s u ∧
      ∀ n v, n ≤ 90 → ComesTo n (finishGranule c (granuleAt a.work) a.work rec u) v →
        exec (.zeroWriteCompletion tag .ok) s = .next (finish (issueProduced s v)) := by
  obtain ⟨hchannel, hhalted, hruns, hphase, hrec, hout, hwaits⟩ := l
  subst hchannel
  have hrow := h.row .ok
  have hfrees : settleUnit x (lineZeroed tag.val x z s) = unitFreed z.channel tag.val x z s := by
    refine settleUnit_frees (z := { z with completed := z.completed + 1 }) (unitOf_setUnit_same ..) (fun y hy => ?_)
      (fun j hj => ?_) (by rw [chan_lineZeroed, hruns.active]) hphase hhalted
    · obtain ⟨hmem, htag⟩ := List.mem_filter.1 hy
      exact Bool.eq_false_iff.2 fun hzero =>
        (isZeroOf_iff.1 hzero).elim fun j hj => hout y hmem (by simpa using htag) j hj
    · exact Bool.eq_false_iff.2 fun hzero => (isZeroOf_iff.1 hzero).elim fun m hm => hwaits m (hm ▸ hj)
  rw [show (DownStatus.ok == .ok) = true from rfl, h.ended_ok, hfrees] at hrow
  have hstands := hruns.stands_unitFreed tag.val x z
  have hscrubbed := scrubbed_unitFreed z.channel tag.val x z s
  generalize unitFreed z.channel tag.val x z s = u at hrow hstands hscrubbed
  obtain ⟨k, hk⟩ := chanStep_afterZero (c := z.channel) (u := u)
    (a := { a with phase := .afterZero, wait := .running }) rfl ((recordAt_congr hscrubbed.ways _).trans hrec)
  have htouched := hstands.touch k
  rw [afterZero_finishes (hlater _ (by rw [htouched.self]))] at hk
  refine ⟨_, hscrubbed.touch k, htouched, fun n v hn hcome => ?_⟩
  have hchain : ComesTo (n + 1) u v :=
    hstands.step h.quiet hc (hruns.nothingWaits hc) rfl (by rw [hk]; exact hcome)
  rwa [settle_to hchain (by omega)] at hrow

end Sys2Proof.Machine
end

section
/-!
PROOFS. What a command does with its granule after the last zero write (R107, R109, R118, R121, R123), and O55.
-/

namespace Sys2Proof.Machine
variable {s t u v w : State} {c d f g i k n x y : Nat} {b : Line} {a : Active} {ch : Channel} {rec : TagRecord} {z : Zeroing}
  {tag : Fin 1024} {o : Outstanding} {r : RetireWork}

theorem OrderOnly.unitOf (h : OrderOnly s u) (x : Nat) : unitOf u x = unitOf s x := by
  rw [Machine.unitOf, Machine.unitOf, h.units]

theorem laterStop_claimant (hretire : isRetire a.work = false) (hclaim : (chan u c).claim = some g)
    (hsound : rec.state ≠ .gPoisoned) : laterStop c g a rec u = none :=
  laterStop_claimed hretire (by simp [ownClaim, hclaim]) hsound

/-- The end of a step that has produced no request and in which the last write of a unit has come. -/
theorem issueProduced_scrubbed (hu : Scrubbed x s u) (hv : v.produced = u.produced) : issueProduced s v = v :=
  issueProduced_same v (hv.trans hu.produced)

/-! ### ASSIGN (R118) -/

/-- The last granule of an ASSIGN is PRIVATE to its domain (R118). -/
theorem ZeroEnds.assigns (h : ZeroEnds tag o x i z s) (l : LastZero tag x z c a rec s) (hc : c < 4)
    (hwork : a.work = .assign d f (n + 1) false n) (hclaim : (chan s c).claim = some (f + n))
    (hsound : rec.state ≠ .gPoisoned) :
    ∃ t, exec (.zeroWriteCompletion tag .ok) s = .next t ∧ unitOf t x = none ∧
      RecordNow (f + n) (assignedRecord d .gPrivate) s t ∧ (∀ y, dom t y = dom s y) ∧
      Ends c a .done
        { finished := n + 1, next := f + (n + 1), w0 := (dom s d).owned, w1 := (dom s d).quota } s t := by
  have hgranule : granuleAt a.work = f + n := by rw [hwork]; rfl
  obtain ⟨u, hu, hstands, hrow⟩ := h.finishes l hc fun u hown => by
    rw [hgranule]
    exact laterStop_claimant (by rw [hwork]; rfl) (hown.trans hclaim) hsound
  rw [hgranule, hwork] at hrow
  obtain ⟨v, hcome, hdone, hproduced, hnow, horder⟩ := assign_range_ends (d := d) (f := f) (k := n) (keep := false)
    hstands h.quiet hc (l.runs.nothingWaits hc) l.runs.warm
    ((recordAt_congr hu.ways (f + n)).trans (hgranule ▸ l.record))
  rw [dom_congr hu.domains] at hdone
  refine ⟨finish v, ?_, ?_, hnow.congr hu.ways.symm rfl, fun y => ?_, hdone⟩
  · rw [hrow 2 v (by decide) hcome, issueProduced_scrubbed hu hproduced]
  · rw [horder.unitOf, unitOf_putRecord, hu.unit]
  · rw [horder.dom, dom_putRecord, dom_congr hu.domains]

/-! ### RELEASE (R121) -/

/-- The part once a granule of domain d is OPEN again and counted no more (R98, R121). -/
def givenBack (d g : Nat) (u : State) : State := ownedDown d (putRecord g openRecord u)

theorem dom_givenBack (d g : Nat) (u : State) (y : Nat) :
    dom (givenBack d g u) y = if y = d then { dom u d with owned := (dom u d).owned - 1 } else dom u y := by
  rw [givenBack, ownedDown, dom_setDom, dom_putRecord, dom_putRecord]

theorem domainNow_givenBack (d g : Nat) (u : State) :
    DomainNow d { dom u d with owned := (dom u d).owned - 1 } u (givenBack d g u) :=
  ⟨by rw [dom_givenBack, if_pos rfl], fun y hy => by rw [dom_givenBack, if_neg hy]⟩

theorem Stands.givenBack (h : Stands c ch a s u) (d g : Nat) : Stands c ch a s (givenBack d g u) :=
  (h.putRecord g openRecord).congr rfl ⟨rfl, rfl, rfl, rfl, rfl⟩

theorem recordNow_givenBack (d : Nat) (hrec : recordAt u g = some rec) :
    RecordNow g openRecord u (givenBack d g u) :=
  (recordNow_putRecord hrec).congr rfl rfl

theorem givenBack_poisonList (d g : Nat) (u : State) : (givenBack d g u).poisonList = u.poisonList :=
  putRecord_poisonList ..

theorem givenBack_produced (d g : Nat) (u : State) : (givenBack d g u).produced = u.produced := putRecord_produced ..

theorem givenBack_size (d g : Nat) (u : State) : (givenBack d g u).size = u.size := putRecord_size ..

theorem unitOf_givenBack (d g : Nat) (u : State) (y : Nat) : unitOf (givenBack d g u) y = unitOf u y :=
  unitOf_putRecord ..

theorem finishGranule_release (c d f n k g : Nat) (rec : TagRecord) (u : State) :
    finishGranule c g (.release d f n k) rec u = nextGranule c (.release d f n (k + 1)) (givenBack d g u) := rfl

theorem chanStep_release_end (hphase : a.phase = .visit) (hwork : a.work = .release d f n n) (u : State) :
    chanStep c a u = doneWork c u := by
  rw [chanStep, hphase]
  dsimp only
  rw [hwork]
  dsimp only
  rw [visitStep, hwork]
  exact if_pos rfl

/-- The last granule of a RELEASE is OPEN, and its domain owns one less (R121). -/
theorem ZeroEnds.releases (h : ZeroEnds tag o x i z s) (l : LastZero tag x z c a rec s) (hc : c < 4)
    (hwork : a.work = .release d f (n + 1) n) (hclaim : (chan s c).claim = some (f + n))
    (hsound : rec.state ≠ .gPoisoned) :
    ∃ t, exec (.zeroWriteCompletion tag .ok) s = .next t ∧ unitOf t x = none ∧ RecordNow (f + n) openRecord s t ∧
      DomainNow d { dom s d with owned := (dom s d).owned - 1 } s t ∧
      Ends c a .done
        { finished := n + 1, next := f + (n + 1), w0 := (dom s d).owned - 1, w1 := (dom s d).quota } s t := by
  have hgranule : granuleAt a.work = f + n := by rw [hwork]; rfl
  obtain ⟨u, hu, hstands, hrow⟩ := h.finishes l hc fun u hown => by
    rw [hgranule]
    exact laterStop_claimant (by rw [hwork]; rfl) (hown.trans hclaim) hsound
  rw [hgranule, hwork, finishGranule_release] at hrow
  have hback := hstands.givenBack d (f + n)
  have hnow := recordNow_givenBack d ((recordAt_congr hu.ways (f + n)).trans (hgranule ▸ l.record))
  have hdomain := domainNow_givenBack d (f + n) u
  rw [dom_congr hu.domains] at hdomain
  have hproduced := givenBack_produced d (f + n) u
  have hunit := unitOf_givenBack d (f + n) u x
  generalize givenBack d (f + n) u = w at hrow hback hnow hdomain hproduced hunit
  have hnext := orderOnly_nextGranule c (.release d f (n + 1) (n + 1)) w
  obtain ⟨v, hcome, hdone, hp, horder⟩ := (hback.nextGranule (.release d f (n + 1) (n + 1))).range_ends h.quiet hc
    (l.runs.nothingWaits hc) l.runs.warm rfl (chanStep_release_end rfl rfl _)
  rw [reportOf_release rfl, hnext.dom, hdomain.1, Nat.sub_self] at hdone
  replace horder := hnext.trans horder
  refine ⟨finish v, ?_, ?_, hnow.congr hu.ways.symm horder.ways, hdomain.congr hu.domains horder.domains, hdone⟩
  · rw [hrow 2 v (by decide) hcome, issueProduced_scrubbed hu (hp.trans (hnext.produced.trans hproduced))]
  · rw [horder.unitOf, hunit, hu.unit]

/-! ### RESTORE (R123) -/

/-- The part once a POISONED granule is OPEN again and a guest that owned it owns one less (R98, R123). -/
def takenBack (g : Nat) (owner : Option Nat) (u : State) : State :=
  match owner with
  | some d => if d = 0 then putRecord g openRecord u else givenBack d g u
  | none => putRecord g openRecord u

/-- The tables that a restored granule's end does not touch. -/
theorem takenBack_cases (g : Nat) (owner : Option Nat) (u : State) :
    takenBack g owner u = putRecord g openRecord u ∧ (owner = none ∨ owner = some 0) ∨
      ∃ d, owner = some d ∧ d ≠ 0 ∧ takenBack g owner u = givenBack d g u := by
  cases owner with
  | none => exact .inl ⟨rfl, .inl rfl⟩
  | some d =>
    by_cases hd : d = 0
    · subst hd
      exact .inl ⟨rfl, .inr rfl⟩
    · exact .inr ⟨d, rfl, hd, if_neg hd⟩

/-- What RESTORE reports of its granule's former owner and of what was listed of it (R123). -/
def restoredReport (g : Nat) (rec : TagRecord) (u : State) : Report :=
  { finished := 1, next := g + 1, w0 := rec.owner.getD (2 ^ 64 - 1)
    w1 := ((u.poisonList.find? (fun e => e.granule == g)).map (fun e => poisonCauseCode e.cause)).getD (2 ^ 64 - 1)
    w2 := (u.poisonList.filter (fun e => e.granule != g)).length }

theorem takenBack_poisonList (g : Nat) (owner : Option Nat) (u : State) :
    (takenBack g owner u).poisonList = u.poisonList := by
  obtain ⟨h, -⟩ | ⟨d, -, -, h⟩ := takenBack_cases g owner u <;> rw [h]
  · exact putRecord_poisonList ..
  · exact givenBack_poisonList ..

theorem finishGranule_restore (c g : Nat) (rec : TagRecord) (u : State) : finishGranule c g (.restore g) rec u =
    completeWork c .done (restoredReport g rec u) (unlistPoison g (takenBack g rec.owner u)) := by
  have hlist : (unlistPoison g (takenBack g rec.owner u)).poisonList =
      u.poisonList.filter (fun e => e.granule != g) := by
    rw [unlistPoison, takenBack_poisonList]
  rw [restoredReport, ← hlist]
  rfl

theorem Stands.restored (h : Stands c ch a s u) (g : Nat) (owner : Option Nat) :
    Stands c ch a s (unlistPoison g (takenBack g owner u)) := by
  have htaken : Stands c ch a s (takenBack g owner u) := by
    obtain ⟨ht, -⟩ | ⟨d, -, -, ht⟩ := takenBack_cases g owner u <;> rw [ht]
    · exact h.putRecord g openRecord
    · exact h.givenBack d g
  exact htaken.congr rfl ⟨rfl, rfl, rfl, rfl, rfl⟩

/-- A restored granule is OPEN and listed no more, and its owner, if it is a guest, owns one granule less (R123). -/
theorem ZeroEnds.restores (h : ZeroEnds tag o x i z s) (l : LastZero tag x z c a rec s) (hc : c < 4)
    (hwork : a.work = .restore g) :
    ∃ t, exec (.zeroWriteCompletion tag .ok) s = .next t ∧ unitOf t x = none ∧ RecordNow g openRecord s t ∧
      t.poisonList = s.poisonList.filter (fun e => e.granule != g) ∧
      (∀ d, rec.owner = some d → d ≠ 0 → DomainNow d { dom s d with owned := (dom s d).owned - 1 } s t) ∧
      (rec.owner = none ∨ rec.owner = some 0 → ∀ y, dom t y = dom s y) ∧
      Ends c a .done (restoredReport g rec s) s t := by
  have hgranule : granuleAt a.work = g := by rw [hwork]; rfl
  obtain ⟨u, hu, hstands, hrow⟩ := h.finishes l hc fun u _ => by rw [laterStop, hwork]
  have hreport : restoredReport g rec u = restoredReport g rec s := by
    rw [restoredReport, hu.poisonList, restoredReport]
  rw [hgranule, hwork, finishGranule_restore, hreport] at hrow
  have hrec : recordAt u g = some rec := (recordAt_congr hu.ways g).trans (hgranule ▸ l.record)
  obtain ⟨v, hcome, hdone, hproduced, horder⟩ := (hstands.restored g rec.owner).ends (res := .done)
    (p := restoredReport g rec s) h.quiet hc (l.runs.nothingWaits hc) l.runs.warm
  have hlist : (finish v).poisonList = s.poisonList.filter (fun e => e.granule != g) := by
    rw [horder.poisonList, unlistPoison, takenBack_poisonList, hu.poisonList]
  have htables : (takenBack g rec.owner u).produced = u.produced ∧ unitOf (takenBack g rec.owner u) x = unitOf u x ∧
      RecordNow g openRecord u (takenBack g rec.owner u) := by
    obtain ⟨ht, -⟩ | ⟨d, -, -, ht⟩ := takenBack_cases g rec.owner u <;> rw [ht]
    · exact ⟨putRecord_produced .., unitOf_putRecord .., recordNow_putRecord hrec⟩
    · exact ⟨givenBack_produced .., unitOf_givenBack .., recordNow_givenBack d hrec⟩
  obtain ⟨hp, hunit, hnow⟩ := htables
  have hdomains : (finish v).domains = (takenBack g rec.owner u).domains := horder.domains
  refine ⟨finish v, ?_, ?_, hnow.congr hu.ways.symm horder.ways, hlist, fun d hown hd => ?_, fun hroot y => ?_, hdone⟩
  · rw [hrow 1 v (by decide) hcome, issueProduced_scrubbed hu (hproduced.trans hp)]
  · exact (horder.unitOf x).trans (hunit.trans hu.unit)
  · have hback : takenBack g rec.owner u = givenBack d g u := by rw [hown]; exact if_neg hd
    have hdomain := domainNow_givenBack d g u
    rw [dom_congr hu.domains] at hdomain
    exact hdomain.congr hu.domains (by rw [hdomains, hback])
  · have hput : takenBack g rec.owner u = putRecord g openRecord u := by rcases hroot with h | h <;> rw [h] <;> rfl
    rw [dom_congr hdomains, hput, dom_putRecord, dom_congr hu.domains]

/-! ### RETIRE (R107, R109) -/

/-- RETIRE past a granule that it has released (R107). -/
def releasedHere (r : RetireWork) : RetireWork :=
  { r with released := r.released + 1, walk := { r.walk with position := r.walk.position + 1 } }

/-- The part once RETIRE has released a granule of its domain; a POISONED one has left the list (R107). -/
def retiredGranule (r : RetireWork) (u : State) : State :=
  if r.poisonedAtVisit then unlistPoison r.walk.position (givenBack r.domain r.walk.position u)
  else givenBack r.domain r.walk.position u

theorem finishGranule_retire (hown : rec.owner = some r.domain) (u : State) :
    finishGranule c r.walk.position (.retire r) rec u =
      nextGranule c (.retire (releasedHere r)) (retiredGranule r u) := by
  have hback : (if rec.owner = some r.domain then ownedDown r.domain (putRecord r.walk.position openRecord u)
      else putRecord r.walk.position openRecord u) = givenBack r.domain r.walk.position u := if_pos hown
  rw [finishGranule]
  dsimp only
  rw [hback]
  rfl

/-- A granule's release by RETIRE differs from any other by the poison list only. -/
theorem retiredGranule_shape (r : RetireWork) (u : State) : retiredGranule r u =
    { givenBack r.domain r.walk.position u with
      poisonList := if r.poisonedAtVisit = true then u.poisonList.filter (fun e => e.granule != r.walk.position)
        else u.poisonList } := by
  rw [retiredGranule, ← givenBack_poisonList r.domain r.walk.position u]
  split <;> rfl

/-- What RETIRE's release of a granule leaves (R107). -/
structure GranuleRetired (r : RetireWork) (s u : State) : Prop where
  record     : RecordNow r.walk.position openRecord s u
  domain     : DomainNow r.domain { dom s r.domain with owned := (dom s r.domain).owned - 1 } s u
  poisonList : u.poisonList = if r.poisonedAtVisit = true then
    s.poisonList.filter (fun e => e.granule != r.walk.position) else s.poisonList
  produced   : u.produced = s.produced
  size       : u.size = s.size

theorem granuleRetired (hu : Scrubbed x s u) (hrec : recordAt s r.walk.position = some rec) :
    GranuleRetired r s (retiredGranule r u) := by
  have hdomain := domainNow_givenBack r.domain r.walk.position u
  rw [dom_congr hu.domains] at hdomain
  rw [retiredGranule_shape]
  exact
    { record := (recordNow_givenBack r.domain ((recordAt_congr hu.ways _).trans hrec)).congr hu.ways.symm rfl
      domain := hdomain.congr hu.domains rfl
      poisonList := by rw [← hu.poisonList]
      produced := (givenBack_produced r.domain r.walk.position u).trans hu.produced
      size := (givenBack_size r.domain r.walk.position u).trans hu.size }

theorem Stands.retiredGranule (h : Stands c ch a s u) (r : RetireWork) : Stands c ch a s (retiredGranule r u) := by
  rw [retiredGranule_shape]
  exact (h.givenBack r.domain r.walk.position).congr rfl ⟨rfl, rfl, rfl, rfl, rfl⟩

theorem unitOf_retiredGranule (r : RetireWork) (u : State) (y : Nat) : unitOf (retiredGranule r u) y = unitOf u y := by
  rw [retiredGranule_shape]
  exact unitOf_givenBack r.domain r.walk.position u y

/-- RETIRE between a release and its next visit, after the last zero write of a granule of its domain (R107). -/
theorem ZeroEnds.retires (h : ZeroEnds tag o x i z s) (l : LastZero tag x z c a rec s) (hc : c < 4)
    (hwork : a.work = .retire r) (hown : rec.owner = some r.domain)
    (hsound : rec.state ≠ .gPoisoned ∨ r.poisonedAtVisit = true) :
    ∃ w, GranuleRetired r s w ∧ unitOf w x = none ∧
      Stands c { chan s c with claim := none }
        { a with work := .retire (releasedHere r), phase := .visit, wait := .running } s w ∧
      ∀ n v, n ≤ 90 → ComesTo n w v → exec (.zeroWriteCompletion tag .ok) s = .next (finish (issueProduced s v)) := by
  have hgranule : granuleAt a.work = r.walk.position := by rw [hwork]; rfl
  obtain ⟨u, hu, hstands, hrow⟩ := h.finishes l hc fun u _ => by
    rw [laterStop, hwork]
    dsimp only
    rw [if_neg]
    rintro ⟨-, hpoisoned, hseen⟩
    rcases hsound with hsound | hsound
    · exact hsound hpoisoned
    · simp [hsound] at hseen
  rw [hgranule, hwork, finishGranule_retire hown] at hrow
  have hretired := granuleRetired hu (r := r) (hgranule ▸ l.record)
  have hunit := (unitOf_retiredGranule r u x).trans hu.unit
  have hback := hstands.retiredGranule r
  generalize retiredGranule r u = w at hrow hretired hunit hback
  have hnext := orderOnly_nextGranule c (.retire (releasedHere r)) w
  refine ⟨_, ⟨hretired.record.congr rfl hnext.ways, hretired.domain.congr rfl hnext.domains,
    hnext.poisonList.trans hretired.poisonList, hnext.produced.trans hretired.produced,
    hnext.size.trans hretired.size⟩, (hnext.unitOf x).trans hunit, hback.nextGranule (.retire (releasedHere r)), hrow⟩

/-- RETIRE that has released its domain's last granule frees the entry and is done (R106, R109). -/
theorem ZeroEnds.retire_ends (h : ZeroEnds tag o x i z s) (l : LastZero tag x z c a rec s) (hc : c < 4)
    (hwork : a.work = .retire r) (hown : rec.owner = some r.domain)
    (hsound : rec.state ≠ .gPoisoned ∨ r.poisonedAtVisit = true) (hlast : (dom s r.domain).owned = 1)
    (hreq : ∀ q ∈ s.requests, q.requester ≠ r.domain) :
    ∃ t, exec (.zeroWriteCompletion tag .ok) s = .next t ∧ unitOf t x = none ∧
      RecordNow r.walk.position openRecord s t ∧ DomainNow r.domain Domain.reset s t ∧
      t.poisonList = (if r.poisonedAtVisit = true then s.poisonList.filter (fun e => e.granule != r.walk.position)
        else s.poisonList) ∧
      Ends c a .done (retireReport (releasedHere r)) s t := by
  obtain ⟨w, hretired, hunit, hstands, hrow⟩ := h.retires l hc hwork hown hsound
  have hidle := l.runs.nothingWaits hc
  have hnone : (dom w r.domain).owned = 0 := by rw [hretired.domain.1, hlast]
  obtain ⟨v, hcome, hdone, hproduced, horder⟩ := (hstands.retired r.domain).ends (res := .done)
    (p := retireReport (releasedHere r)) h.quiet hc hidle l.runs.warm
  have hchain : ComesTo 2 w v := by
    refine hstands.step h.quiet hc hidle rfl ?_
    rw [chanStep_retire_completes (r := releasedHere r) rfl rfl hnone (by rw [hstands.rest.requests]; exact hreq)]
    exact hcome
  refine ⟨finish v, ?_, (horder.unitOf x).trans hunit, hretired.record.congr rfl horder.ways, ⟨?_, fun y hy => ?_⟩,
    horder.poisonList.trans hretired.poisonList, hdone⟩
  · rw [hrow 2 v (by decide) hchain, issueProduced_same v (hproduced.trans hretired.produced)]
  · rw [horder.dom]
    exact dom_setDom_same ..
  · rw [horder.dom]
    refine (dom_setDom ..).trans ?_
    rw [if_neg hy, hretired.domain.2 y hy]

/-- A walk that is past neither of its ends visits the next granule (R106). -/
theorem walkNext_inside (hspan : r.walk.position < n)
    (hhint : r.walk.inHint = true → r.walk.position < r.hintFirst + r.hintCount) : walkNext n r = some r.walk := by
  rw [walkNext, if_neg, if_neg]
  · rintro ⟨-, hend⟩
    omega
  · rintro ⟨hin, hend⟩
    have := hhint hin
    omega

/-- With granules left to its domain RETIRE looks up the next in its walk (R106). -/
theorem chanStep_retire_visits (hwork : a.work = .retire r) (hphase : a.phase = .visit)
    (howned : (dom u r.domain).owned ≠ 0) (hwalk : walkNext (granuleCount u) r = some r.walk) : chanStep c a u =
      withRecord c r.walk.position (retireVisit c r) (goPhase c .visiting .running (goWork c (.retire r) u)) := by
  rw [chanStep, hphase]
  dsimp only
  rw [hwork]
  dsimp only
  rw [visitStep, hwork]
  dsimp only
  rw [retireStep, if_neg howned, hwalk]

/-- RETIRE with granules left to its domain goes on to the next, whose line is fetched (R106, R109). -/
theorem ZeroEnds.retire_goesOn (h : ZeroEnds tag o x i z s) (l : LastZero tag x z c a rec s) (hc : c < 4)
    (hwork : a.work = .retire r) (hown : rec.owner = some r.domain)
    (hsound : rec.state ≠ .gPoisoned ∨ r.poisonedAtVisit = true) (hmore : 2 ≤ (dom s r.domain).owned)
    (hspan : r.walk.position + 1 < granuleCount s)
    (hhint : r.walk.inHint = true → r.walk.position + 1 < r.hintFirst + r.hintCount)
    (hmiss : recordAt s (r.walk.position + 1) = none) :
    ∃ t, exec (.zeroWriteCompletion tag .ok) s = .next t ∧ unitOf t x = none ∧
      RecordNow r.walk.position openRecord s t ∧
      DomainNow r.domain { dom s r.domain with owned := (dom s r.domain).owned - 1 } s t ∧
      GoesOn c
        { a with
          work := .retire (releasedHere r), phase := .visiting, wait := .fill ((r.walk.position + 1) / 4) } none s t := by
  obtain ⟨w, hretired, hunit, hstands, hrow⟩ := h.retires l hc hwork hown hsound
  have hidle : NothingWaits { chan s c with claim := none } := l.runs.nothingWaits hc
  have howned : (dom w r.domain).owned ≠ 0 := by
    rw [hretired.domain.1]
    show (dom s r.domain).owned - 1 ≠ 0
    omega
  have hcount : granuleCount w = granuleCount s := congrArg granuleCountOf hretired.size
  have hstep := chanStep_retire_visits (c := c) (u := w) (r := releasedHere r)
    (a := { a with work := .retire (releasedHere r), phase := .visit, wait := .running }) rfl rfl howned
    (walkNext_inside (by rw [hcount]; exact hspan) hhint)
  have hvisiting := (hstands.goWork (.retire (releasedHere r))).goPhase .visiting .running
  obtain ⟨y, hy⟩ : ∃ y, y = goPhase c .visiting .running (goWork c (.retire (releasedHere r)) w) := ⟨_, rfl⟩
  have horder : OrderOnly w y := by rw [hy]; exact ((OrderOnly.refl w).goWork c _).goPhase c _ _
  rw [← hy] at hstep hvisiting
  have hmiss' : recordAt y (r.walk.position + 1) = none := by
    rw [horder.recordAt, hretired.record.2 _ (by omega), hmiss]
  obtain ⟨hcome, hwaits, hv⟩ := hvisiting.misses (f := retireVisit c (releasedHere r)) h.quiet hc hidle hmiss' rfl
  have hchain := hstands.step h.quiet hc hidle rfl (by rw [hstep]; exact hcome)
  rw [hv] at hchain hwaits
  have hrow' := hrow 1 _ (by decide) hchain
  obtain ⟨q, hq⟩ : ∃ q, q = joinFill ((r.walk.position + 1) / 4) (goWait c (.fill ((r.walk.position + 1) / 4)) y) :=
    ⟨_, rfl⟩
  rw [← hq] at hrow' hwaits
  have hways : q.ways = w.ways := by rw [hq, joinFill_ways, goWait_ways, horder.ways]
  have hdomains : q.domains = w.domains := by rw [hq, joinFill_domains, goWait_domains, horder.domains]
  have hunit' : unitOf q x = none := by rw [hq, unitOf_joinFill, unitOf_goWait, horder.unitOf, hunit]
  obtain ⟨m, hm⟩ := unitOf_issueProduced s q x
  refine ⟨_, hrow', ?_, hretired.record.congr rfl ?_, hretired.domain.congr rfl ?_, (hwaits.issued s).goesOn⟩
  · rw [unitOf_finish, hm, hunit']
    rfl
  · rw [finish_ways, issueProduced_ways, hways]
  · rw [finish_domains, issueProduced_domains, hdomains]

/-- Settles O55: the drained granule's row, the grant of a unit, and the ends that a zero write can have. -/
theorem scrubbedGranuleIsFinishedOrPoisoned : Obligations.ScrubbedGranuleIsFinishedOrPoisoned := by
  refine ⟨fun c a d f n k rec s h hphase hwait hwork hno hclaim hrec hsound => ?_, ?_, ?_⟩
  · exact granuleDrainDone_row c h hphase hwait ⟨d, f, n, k, rfl, hwork⟩ hno hclaim hrec hsound
  · rintro s u k c a hfree hk hk4 hc ha hwait hbefore
    exact scrubUnitGrant_row hfree (nextServed_eq hk hk4 hc ha hwait hbefore) ha
  · intro tag o u i z s hout hjob hunit hquiet
    have h : ZeroEnds tag o u i z s := ⟨hout, hjob, hunit, hquiet⟩
    refine ⟨fun hleft => ⟨h.counts hleft, ?_⟩, ?_⟩
    · intro c a rec hc hfailed hflush hruns hphase hwait hrec
      rw [← hc] at hruns ⊢
      exact h.poisons (hc ▸ c.isLt) hruns hfailed hflush hrec hleft
    · intro c a g rec hc hhalted hruns hphase hwait hrec hnone hwaits
      have hlast : granuleAt a.work = g → LastZero tag u z c.val a rec s := fun hgranule =>
        ⟨hc, hhalted, hruns, hphase, hgranule.symm ▸ hrec, hnone, hwaits⟩
      refine ⟨?_, ?_, fun hwork => h.restores (hlast (by rw [hwork]; rfl)) c.isLt hwork, ?_⟩
      · rintro d f n hwork rfl hclaim hsound
        exact h.assigns (hlast (by rw [hwork]; rfl)) c.isLt hwork hclaim hsound
      · rintro d f n hwork rfl hclaim hsound
        exact h.releases (hlast (by rw [hwork]; rfl)) c.isLt hwork hclaim hsound
      · rintro r hwork rfl hown hsound
        have l := hlast (by rw [hwork]; rfl)
        exact ⟨h.retire_ends l c.isLt hwork hown hsound, h.retire_goesOn l c.isLt hwork hown hsound⟩

end Sys2Proof.Machine
end

section
/-!
PROOFS. The grant commands that complete in their step, ACTIVATE_GRANT and GRANT_READ (R146, R148): O5.
-/

namespace Sys2Proof.Machine
variable {s : State} {c : Nat} {b : Line} {g : Grant}

theorem activateGrant_refused (hb : 1024 ≤ wordA b) :
    runCommand .activateGrant c b (dequeue c s) = respond c b .parameter {} (dequeue c s) := by
  have hhigh : Config.grantEntries ≤ wordA b := hb
  simp only [runCommand, doActivateGrant, if_pos hhigh]

theorem activateGrant_noEntry (hb : ¬1024 ≤ wordA b) (hg : grantAt s (wordA b) = none) :
    runCommand .activateGrant c b (dequeue c s) = respond c b .noEntry {} (dequeue c s) := by
  have hlow : ¬Config.grantEntries ≤ wordA b := hb
  simp only [runCommand, doActivateGrant, if_neg hlow, grantAt_dequeue, hg]

theorem activateGrant_activates (hb : ¬1024 ≤ wordA b) (hg : grantAt s (wordA b) = some g)
    (hoffered : g.state = .offered) :
    runCommand .activateGrant c b (dequeue c s) =
      respond c b .done (grantReport { g with state := .active })
        (setGrant (wordA b) { g with state := .active } (dequeue c s)) := by
  have hlow : ¬Config.grantEntries ≤ wordA b := hb
  simp only [runCommand, doActivateGrant, if_neg hlow, grantAt_dequeue, hg, if_pos hoffered]

theorem activateGrant_wrongState (hb : ¬1024 ≤ wordA b) (hg : grantAt s (wordA b) = some g)
    (hoffered : g.state ≠ .offered) :
    runCommand .activateGrant c b (dequeue c s) = respond c b .grantState (grantReport g) (dequeue c s) := by
  have hlow : ¬Config.grantEntries ≤ wordA b := hb
  simp only [runCommand, doActivateGrant, if_neg hlow, grantAt_dequeue, hg, if_neg hoffered]

theorem grantRead_refused (hb : 1024 ≤ wordA b) :
    runCommand .grantRead c b (dequeue c s) = respond c b .parameter {} (dequeue c s) := by
  have hhigh : Config.grantEntries ≤ wordA b := hb
  simp only [runCommand, doGrantRead, if_pos hhigh]

theorem grantRead_noEntry (hb : ¬1024 ≤ wordA b) (hg : grantAt s (wordA b) = none) :
    runCommand .grantRead c b (dequeue c s) = respond c b .noEntry { w2 := s.grants.length } (dequeue c s) := by
  have hlow : ¬Config.grantEntries ≤ wordA b := hb
  simp only [runCommand, doGrantRead, if_neg hlow, grantAt_dequeue, hg, dequeue_grants]

theorem grantRead_reads (hb : ¬1024 ≤ wordA b) (hg : grantAt s (wordA b) = some g) :
    runCommand .grantRead c b (dequeue c s) =
      respond c b .done { grantReport g with w2 := s.grants.length } (dequeue c s) := by
  have hlow : ¬Config.grantEntries ≤ wordA b := hb
  simp only [runCommand, doGrantRead, if_neg hlow, grantAt_dequeue, hg, dequeue_grants]

/-- An OFFERED entry that ACTIVATE_GRANT names is ACTIVE, and of the Grant Table no other entry has changed (R146). -/
theorem activateGrant_effect (h : TakesControl .activateGrant c b s) (hb : ¬1024 ≤ wordA b)
    (hg : grantAt s (wordA b) = some g) (hoffered : g.state = .offered) :
    ∃ t, answerStep s (takeControl .activateGrant c s) = .next t ∧
      Answered c b .done (grantReport { g with state := .active }) s t ∧ NoticesKept c s t ∧
      grantAt t (wordA b) = some { g with state := .active } ∧ (∀ i, i ≠ wordA b → grantAt t i = grantAt s i) ∧
      Untouched s { t with grants := s.grants } := by
  have hrun := activateGrant_activates (c := c) hb hg hoffered
  refine ⟨_, answerStep_takeControl h (by rw [hrun]; simp), ?_⟩
  rw [hrun]
  refine ⟨answered_of_respond h.head fun _ => rfl, noticesKept_respond fun n _ => sourceOf_dequeue s c n, ?_,
    fun i hi => ?_, by unfold Untouched; simp⟩
  · rw [grantAt_finish, grantAt_respond, grantAt_setGrant_same]
  · rw [grantAt_finish, grantAt_respond, grantAt_setGrant, if_neg hi, grantAt_dequeue]

/-- Settles O5: each command is decided by the entry at its index. -/
theorem activateGrantAndGrantReadAnswerByTheEntry : Obligations.ActivateGrantAndGrantReadAnswerByTheEntry := by
  refine ⟨fun c b s h => ?_, fun c b s h => ?_⟩
  · split
    next hb => exact exists_onlyAnswered h (activateGrant_refused hb)
    next hb =>
      split
      next hg => exact exists_onlyAnswered h (activateGrant_noEntry hb hg)
      next g hg =>
        split
        next hoffered => exact activateGrant_effect h hb hg hoffered
        next hoffered => exact exists_onlyAnswered h (activateGrant_wrongState hb hg hoffered)
  · split
    next hb => exact exists_onlyAnswered h (grantRead_refused hb)
    next hb =>
      split
      next hg => exact exists_onlyAnswered h (grantRead_noEntry hb hg)
      next g hg => exact exists_onlyAnswered h (grantRead_reads hb hg)

end Sys2Proof.Machine
end

section
/-!
PROOFS. The Domain Request Unit between its steps (R139, R140): what can go on once its requests have changed.
-/

namespace Sys2Proof.Machine
variable {s t u v : State} {x : GuestRequest} {rest : List GuestRequest}

/-! ### What can go on outside the channels -/

/-- Nothing goes on outside the channels where the running request waits, the unit has no head to finish at once, every
poisoning waits, and the revocation stage waits. -/
theorem restJob_eq_none_iff : restJob s = none ↔
    (∀ r, s.running = some r → waitOver r.wait = false) ∧ unknownHead s = none ∧
      (∀ p ∈ s.poisonings, waitOver p.wait = false) ∧ revocationRuns s = false := by
  have hrun : (∀ r, s.running = some r → waitOver r.wait = false) ↔
      ¬s.running.any (fun r => waitOver r.wait) = true := by cases s.running <;> simp
  have hpoison : (∀ p ∈ s.poisonings, waitOver p.wait = false) ↔
      s.poisonings.find? (fun p => waitOver p.wait) = none := by simp
  rw [hrun, hpoison, restJob]
  split
  next hover => simp [hover]
  next hwaits =>
    cases unknownHead s with
    | some x => simp
    | none =>
      cases s.poisonings.find? (fun p => waitOver p.wait) with
      | some p => simp
      | none => simp [hwaits]

/-- The kinds of R180 are the codes 1 to 5. -/
theorem guestKindOf_isSome_iff (n : Nat) : (guestKindOf n).isSome = true ↔ 1 ≤ n ∧ n ≤ 5 := by
  unfold guestKindOf
  split
  case h_6 h1 h2 h3 h4 h5 =>
    have hno : ¬(1 ≤ n ∧ n ≤ 5) := fun ⟨hlo, hhi⟩ => by interval_cases n <;> contradiction
    simpa using hno
  all_goals simp

/-- A head request of a kind is not finished at once (R140). -/
theorem unknownHead_of_known (h : ∀ y, u.requests.head? = some y → 1 ≤ y.kind ∧ y.kind ≤ 5) : unknownHead u = none := by
  unfold unknownHead headRequest
  split
  · rw [Option.filter_eq_none_iff]
    intro y hy
    have hsome := (guestKindOf_isSome_iff y.kind).2 (h y hy)
    simp [Option.isSome_iff_ne_none.1 hsome]
  · rfl

theorem unknownHead_of_busy (h : canStartRequest u = false) : unknownHead u = none := by
  simp [unknownHead, headRequest, h]

/-- From s to u the channels and what else can go on outside the Domain Request Unit are as they were. -/
structure BesideRequests (s u : State) : Prop where
  channels   : u.channels = s.channels
  warm       : u.warm = s.warm
  flush      : u.flush = s.flush
  poisonings : u.poisonings = s.poisonings

theorem BesideRequests.refl (s : State) : BesideRequests s s := ⟨rfl, rfl, rfl, rfl⟩

theorem BesideRequests.trans (h : BesideRequests s u) (k : BesideRequests u v) : BesideRequests s v :=
  ⟨k.channels.trans h.channels, k.warm.trans h.warm, k.flush.trans h.flush, k.poisonings.trans h.poisonings⟩

theorem BesideRequests.chan (h : BesideRequests s u) (c : Nat) : chan u c = chan s c := by
  rw [Machine.chan, h.channels]
  rfl

/-- Beside a quiet part only the Domain Request Unit can go on. -/
theorem BesideRequests.nextJob (h : BesideRequests s u) (hq : Quiet s) : nextJob u = restJob u := by
  have hnone : ∀ c, c < 4 → channelJob u c = none := fun c hc =>
    (channelJob_congr (by rw [h.chan]; exact .refl _)).trans (hq.channelJob hc)
  rw [Machine.nextJob, List.findSome?_eq_none_iff.2 fun c hc => hnone c (channelNumbers_lt hc)]
  rfl

/-- With its request waiting and no head to finish at once it does not go on. -/
theorem BesideRequests.quiet (h : BesideRequests s u) (hq : Quiet s)
    (hwait : ∀ r, u.running = some r → waitOver r.wait = false) (hhead : unknownHead u = none) : Quiet u := by
  obtain ⟨-, -, hpoison, hrev⟩ := restJob_eq_none_iff.1 hq.restJob
  refine (h.nextJob hq).trans (restJob_eq_none_iff.2 ⟨hwait, hhead, by rw [h.poisonings]; exact hpoison, ?_⟩)
  rw [revocationRuns, h.warm]
  exact hrev

/-- A running request that waits for nothing makes its next step. -/
theorem BesideRequests.step {n : Nat} {entry : Option (Nat × Nat)} (h : BesideRequests s u) (hq : Quiet s)
    (hrun : u.running = some { wait := .running, entry := entry }) (hstep : ComesTo n (requestStep u) v) :
    ComesTo (n + 1) u v := by
  refine .next (j := .request) ((h.nextJob hq).trans ?_) hstep
  simp [restJob, hrun, waitOver]

end Sys2Proof.Machine
end

section
/-!
PROOFS. The domain request line (R138, R139): a guest's write, which queues its request or is refused, and its read:
O41.
-/

namespace Sys2Proof.Machine
variable {s t u v : State} {r : Request} {x : GuestRequest}

/-! ### The way of an access to the line (R65, R138) -/

/-- An access at an offset of the aperture lies in the aperture, at the offset of its line (R21). -/
theorem classify_apertureRequest (hs : SpanLegal s) (kind : AccessKind) (tag : Fin 1024) (d : Fin 512)
    {off : Nat} (hoff : off < 65536) (mask : ByteMask) (data : Line) :
    classify s (apertureRequest s kind tag d off mask data).address = .aperture (off / 64 * 64) := by
  have hbase : apertureBase s = s.base + s.size := rfl
  have hfits : s.base + s.size + 65536 ≤ 2 ^ 46 := hs.2.2
  have haddr : (apertureRequest s kind tag d off mask data).address.toNat = s.base + s.size + off := by
    rw [apertureRequest, BitVec.toNat_ofNat, hbase, Nat.mod_eq_of_lt (by omega)]
  obtain ⟨-, haperture, -⟩ := addressClassesFollowTheSpan s (apertureRequest s kind tag d off mask data).address hs
  rw [haperture (by omega) (by omega), haddr, Nat.add_sub_cancel_left]

/-- A guest's access to the domain request line is answered by that line, in mode HALTED too (R65, R138). -/
theorem checkAperture_requestLine (hd : r.domain ≠ 0) : checkAperture r 0x8000 u = guestLine r u := by
  have hline : apertureLine 0x8000 = .request := by decide
  by_cases hmode : u.mode = .halted
  · rw [checkAperture, if_pos hmode, guestLine, hmode]
  · rw [checkAperture, if_neg hmode, if_neg hd, if_pos hline]

/-- A guest's access to the domain request line, taken and checked (R3, R65, R138). -/
theorem exec_requestTaken_requestLine {kind : AccessKind} {tag : Fin 1024} {d : Fin 512} {mask : ByteMask} {data : Line}
    (hs : SpanLegal s) (htakes : PortTakes s) (hfree : tag.val ∉ s.tagsInUse) (hd : d ≠ 0)
    (hr : r = apertureRequest s kind tag d 0x8000 mask data) :
    exec (.requestTaken r) s = .next (finish (issueProduced s (guestLine r (arrived r s)))) := by
  have hclass : classify (arrived r s) r.address = .aperture 0x8000 := by
    rw [hr]
    exact classify_apertureRequest hs kind tag d (by decide) mask data
  have harrives : Arrives r s := ⟨htakes, by rw [hr]; exact hfree⟩
  have hguest : r.domain ≠ 0 := by rw [hr]; exact hd
  rw [exec_requestTaken_arrives harrives, check_aperture hclass, checkAperture_requestLine hguest]

/-- A guest's write to the domain request line. -/
def lineWrite (tag : Fin 1024) (d : Fin 512) (masked : Bool) (mask : ByteMask) (data : Line) (s : State) : Request :=
  apertureRequest s (if masked then .writeMasked else .write) tag d 0x8000 mask data

/-- A guest's read of the domain request line. -/
def lineRead (tag : Fin 1024) (d : Fin 512) (s : State) : Request := apertureRequest s .read tag d 0x8000 0 0

theorem exec_domainRequestWrite {tag : Fin 1024} {d : Fin 512} {masked : Bool} {mask : ByteMask} {data : Line}
    (hr : r = lineWrite tag d masked mask data s) (hs : SpanLegal s) (htakes : PortTakes s)
    (hfree : tag.val ∉ s.tagsInUse) (hd : d ≠ 0) : exec (.domainRequestWrite tag d masked mask data) s =
      .next (finish (issueProduced s (guestLine r (arrived r s)))) := by
  rw [← exec_requestTaken_requestLine hs htakes hfree hd hr]
  show execDomainRequestWrite tag d masked mask data s = _
  rw [execDomainRequestWrite, if_neg hd, hr]
  rfl

theorem exec_domainRequestRead {tag : Fin 1024} {d : Fin 512} (hr : r = lineRead tag d s) (hs : SpanLegal s)
    (htakes : PortTakes s) (hfree : tag.val ∉ s.tagsInUse) (hd : d ≠ 0) : exec (.domainRequestRead tag d) s =
      .next (finish (issueProduced s (guestLine r (arrived r s)))) := by
  rw [← exec_requestTaken_requestLine hs htakes hfree hd hr]
  show execDomainRequestRead tag d s = _
  rw [execDomainRequestRead, if_neg hd, hr]
  rfl

/-! ### A write (R139) -/

theorem guestLine_write (hmode : u.mode = .operational) (hstate : (dom u r.domain.val).state = .running)
    (hkind : r.kind ≠ .read) : guestLine r u = guestWrite r u := by
  rw [guestLine, hmode]
  dsimp only
  rw [hstate]
  exact if_neg hkind

/-- The first test of R139 that refuses a write, with its request decoded. -/
abbrev WriteRefused (r : Request) (x : GuestRequest) (s : State) : Prop :=
  r.kind = .writeMasked ∨ x.kind = 0 ∨ (∃ q ∈ s.requests, q.requester = x.requester) ∨ 16 ≤ s.requests.length

theorem guestWrite_eq (hx : x = decodeGuestRequest r.domain.val r.data) :
    guestWrite r u = if WriteRefused r x u then answer r .refused u else decideFor r .ok 0 (takeGuestRequest x u) := by
  subst hx
  simp only [guestWrite, WriteRefused, List.any_eq_true, beq_iff_eq]
  rfl

/-- The state in which a request has joined the queue and its requester's record is PENDING (R139). -/
def requestQueued (x : GuestRequest) (u : State) : State :=
  setResult x.requester { kind := x.kind, result := .pending, granule := x.granule, grant := none, query := .absent }
    { u with requests := u.requests ++ [x] }

/-- A request of a kind, or one that does not come to the head of an idle unit, waits in the queue (R139, R140). -/
theorem takeGuestRequest_queues (hq : Quiet s) (h : BesideRequests s u) (hrun : u.running = s.running)
    (hreq : u.requests = s.requests) (hkind : s.requests = [] → s.flush = .none → 1 ≤ x.kind ∧ x.kind ≤ 5) :
    takeGuestRequest x u = requestQueued x u := by
  obtain ⟨hwait, hhead, -, -⟩ := restJob_eq_none_iff.1 hq.restJob
  have hbeside : BesideRequests s (requestQueued x u) := ⟨h.channels, h.warm, h.flush, h.poisonings⟩
  refine settle_quiet (hbeside.quiet hq (fun r hr => hwait r (hrun.symm.trans hr)) ?_)
  have hstarts : canStartRequest (requestQueued x u) = canStartRequest s := by
    show (u.running.isNone && u.warm.isNone && !(u.flush != .none)) = _
    rw [hrun, h.warm, h.flush]
    rfl
  have hqueue : (requestQueued x u).requests = s.requests ++ [x] := congrArg (· ++ [x]) hreq
  cases hl : s.requests with
  | nil =>
    rw [hl] at hqueue
    cases hcan : canStartRequest s with
    | false => exact unknownHead_of_busy (hstarts.trans hcan)
    | true =>
      have hflush : s.flush = .none := by simpa [canStartRequest, warned] using (Bool.and_eq_true_iff.1 hcan).2
      refine unknownHead_of_known fun y hy => ?_
      rw [hqueue] at hy
      cases hy
      exact hkind hl hflush
  | cons y l =>
    rw [← hhead, unknownHead, unknownHead, headRequest, headRequest, hstarts, hqueue, hl]
    rfl

/-- Of the part an access to the line has changed its completion, its tag, the requests and their results alone. -/
def OnlyRequests (s t : State) : Prop :=
  Untouched s { t with
    completions := s.completions, tagsInUse := s.tagsInUse, requests := s.requests, results := s.results } ∧
    ∀ c, chan t c = chan s c

/-- The completion of a write, which carries no data (R4). -/
def writeCompletes (tag : Fin 1024) (status : Status) : Completion :=
  { tag := tag.val, status := status, data := none, duplicate := false }

theorem decideFor_write (hkind : r.kind ≠ .read) (status : Status) (line : Line) (v : State) :
    decideFor r status line v = { v with completions := v.completions ++ [writeCompletes r.tag status] } := by
  rw [decideFor, if_neg hkind]
  rfl

theorem requestLine_write_refused (hkind : r.kind ≠ .read) (hmode : s.mode = .operational)
    (hstate : (dom s r.domain.val).state = .running) (hx : x = decodeGuestRequest r.domain.val r.data)
    (hbad : WriteRefused r x s) (ht : t = finish (issueProduced s (guestLine r (arrived r s)))) :
    OnlyRequests s t ∧ Decided (writeCompletes r.tag .refused) s t ∧ t.requests = s.requests ∧ t.results = s.results := by
  rw [guestLine_write (u := arrived r s) hmode hstate hkind, guestWrite_eq hx,
    if_pos (show WriteRefused r x (arrived r s) from hbad), answer, decideFor_write hkind, rowEnd_eq (by rfl)] at ht
  subst ht
  exact ⟨⟨by unfold Untouched; simp [arrived], fun c => by rw [chan_finish]; rfl⟩, decided_finish rfl, finish_requests _,
    finish_results _⟩

theorem requestLine_write_queued (hkind : r.kind ≠ .read) (hmode : s.mode = .operational)
    (hstate : (dom s r.domain.val).state = .running) (hx : x = decodeGuestRequest r.domain.val r.data)
    (hgood : ¬WriteRefused r x s) (hq : Quiet s) (hknown : s.requests = [] → s.flush = .none → x.kind ≤ 5)
    (ht : t = finish (issueProduced s (guestLine r (arrived r s)))) :
    OnlyRequests s t ∧ Decided (writeCompletes r.tag .ok) s t ∧ t.requests = s.requests ++ [x] ∧
      resultOf t x.requester =
        { kind := x.kind, result := .pending, granule := x.granule, grant := none, query := .absent } ∧
      ∀ d, d ≠ x.requester → resultOf t d = resultOf s d := by
  have hqueued : takeGuestRequest x (arrived r s) = requestQueued x (arrived r s) :=
    takeGuestRequest_queues hq (.mk rfl rfl rfl rfl) rfl rfl fun hempty hflush =>
      ⟨Nat.pos_of_ne_zero fun h0 => hgood (.inr (.inl h0)), hknown hempty hflush⟩
  rw [guestLine_write (u := arrived r s) hmode hstate hkind, guestWrite_eq hx,
    if_neg (show ¬WriteRefused r x (arrived r s) from hgood), hqueued, decideFor_write hkind, rowEnd_eq (by rfl)] at ht
  subst ht
  refine ⟨⟨by unfold Untouched; simp [requestQueued, arrived], fun c => by rw [chan_finish]; rfl⟩, decided_finish rfl,
    finish_requests _, ?_, fun d hd => ?_⟩
  · rw [resultOf_finish]
    exact resultOf_setResult_same ..
  · rw [resultOf_finish]
    exact (resultOf_setResult ..).trans (if_neg hd)

/-! ### A read (R138) -/

/-- The status with which the line refuses an access by the mode and the domain's state (R138). -/
def lineRefusal (d : Nat) (s : State) : Status :=
  if s.mode = .halted then .halted
  else if s.mode = .unformatted ∨ s.mode = .formatting then .stopped
  else if s.mode = .contained ∨ (dom s d).state = .free ∨ (dom s d).state = .fenced then .blocked
  else .stopped

/-- The record of an access by a FREE domain (R75, R138). -/
def lineViolation (r : Request) (s : State) : Violation :=
  { domain := r.domain.val, write := decide (r.kind ≠ .read), address := requestLine s, reason := .unknownDomain
    counted := false, ownerSeen := none, stateSeen := none }

/-- Outside OPERATIONAL, and for a guest that is not RUNNING, the line answers as a check would; it logs the access of a
FREE domain, which is counted nowhere (R75, R138). -/
theorem guestLine_refuses (hno : ¬(u.mode = .operational ∧
      ((dom u r.domain.val).state = .running ∨ (dom u r.domain.val).state = .root))) :
    guestLine r u = answer r (lineRefusal r.domain.val u)
      (if u.mode = .operational ∧ (dom u r.domain.val).state = .free then logViolation (lineViolation r u) u else u) := by
  unfold guestLine lineRefusal
  cases hmode : u.mode with
  | operational =>
    cases hstate : (dom u r.domain.val).state with
    | running => exact absurd ⟨hmode, .inl hstate⟩ hno
    | root => exact absurd ⟨hmode, .inr hstate⟩ hno
    | free => rfl
    | preparing | paused | fenced | retiring => simp
  | unformatted | formatting | contained | halted => simp

theorem guestLine_read (hmode : u.mode = .operational) (hstate : (dom u r.domain.val).state = .running)
    (hkind : r.kind = .read) : guestLine r u = decideFor r .ok (encodeLastResult (resultOf u r.domain.val)) u := by
  rw [guestLine, hmode]
  dsimp only
  rw [hstate]
  exact if_pos hkind

theorem guestLine_root (hmode : u.mode = .operational) (hstate : (dom u r.domain.val).state = .root) :
    guestLine r u = answer r .refused u := by
  rw [guestLine, hmode]
  dsimp only
  rw [hstate]

/-- A read that is answered leaves the part as it was but for its completion, its tag and the log. -/
def ReadAnswered (x : Completion) (l : List Violation) (s t : State) : Prop :=
  Untouched s { t with completions := s.completions, tagsInUse := s.tagsInUse, log := s.log } ∧
    (∀ c, chan t c = chan s c) ∧ Decided x s t ∧ t.log = l

theorem readAnswered_decideFor {status : Status} {line : Line} {log : List Violation} {notices : Table Source}
    (hkind : r.kind = .read) (hv : v = { arrived r s with log := log, notices := notices }) :
    ReadAnswered { tag := r.tag.val, status := status, data := some line, duplicate := false } log s
      (finish (issueProduced s (decideFor r status line v))) := by
  subst hv
  rw [decideFor, if_pos hkind, rowEnd_eq (by rfl)]
  exact ⟨by unfold Untouched; simp [arrived], fun c => by rw [chan_finish]; rfl, decided_finish rfl, finish_log _⟩

/-- The address at which the line's violation is logged (R138). -/
theorem lineViolation_read (hkind : r.kind = .read) : lineViolation r s =
    { domain := r.domain.val, write := false, address := s.base + s.size + 0x8000, reason := .unknownDomain
      counted := false, ownerSeen := none, stateSeen := none } := by
  rw [lineViolation, hkind]
  rfl

theorem requestLine_read_refused (hkind : r.kind = .read) (hno : ¬(s.mode = .operational ∧
      ((dom s r.domain.val).state = .running ∨ (dom s r.domain.val).state = .root))) :
    ReadAnswered { tag := r.tag.val, status := lineRefusal r.domain.val s, data := some 0, duplicate := false }
      (if s.mode = .operational ∧ (dom s r.domain.val).state = .free then logWith s.log (lineViolation r s) else s.log) s
      (finish (issueProduced s (guestLine r (arrived r s)))) := by
  have hline : guestLine r (arrived r s) = answer r (lineRefusal r.domain.val s)
      (if s.mode = .operational ∧ (dom s r.domain.val).state = .free then logViolation (lineViolation r s) (arrived r s)
        else arrived r s) := guestLine_refuses (u := arrived r s) hno
  rw [hline]
  split
  · exact readAnswered_decideFor hkind (by rw [logViolation_shape, logViolation_log]; rfl)
  · exact readAnswered_decideFor hkind rfl

theorem requestLine_read_answered (hkind : r.kind = .read) (hmode : s.mode = .operational)
    (hstate : (dom s r.domain.val).state = .running) :
    ReadAnswered
      { tag := r.tag.val, status := .ok, data := some (encodeLastResult (resultOf s r.domain.val)), duplicate := false }
      s.log s (finish (issueProduced s (guestLine r (arrived r s)))) := by
  rw [guestLine_read (u := arrived r s) hmode hstate hkind]
  exact readAnswered_decideFor hkind rfl

/-- A guest's domain is not ROOT in a run (`noGuestRoot_step`); if it were, the line would refuse its read. -/
theorem requestLine_read_root (hkind : r.kind = .read) (hmode : s.mode = .operational)
    (hstate : (dom s r.domain.val).state = .root) :
    ReadAnswered { tag := r.tag.val, status := .refused, data := some 0, duplicate := false } s.log s
      (finish (issueProduced s (guestLine r (arrived r s)))) := by
  rw [guestLine_root (u := arrived r s) hmode hstate]
  exact readAnswered_decideFor hkind rfl

/-- Settles O41: the line refuses a write or queues its request, and answers a read by the mode, the domain's state and
its last-result record. -/
theorem domainRequestLineTakesARequestAndAnswers : Obligations.DomainRequestLineTakesARequestAndAnswers := by
  refine ⟨fun tag d masked mask data s hs htakes hfree hd hmode hstate hq hknown => ?_,
    fun tag d s hs htakes hfree hd => ?_⟩
  · obtain ⟨r, hr⟩ : ∃ r, r = lineWrite tag d masked mask data s := ⟨_, rfl⟩
    obtain ⟨htag, hdom, hdata⟩ : r.tag = tag ∧ r.domain = d ∧ r.data = data := by rw [hr]; exact ⟨rfl, rfl, rfl⟩
    obtain ⟨hkind, hmasked⟩ : r.kind ≠ .read ∧ (r.kind = .writeMasked ↔ masked = true) := by
      rw [hr]
      cases masked <;> simp [lineWrite, apertureRequest]
    refine ⟨_, exec_domainRequestWrite hr hs htakes hfree hd, ?_⟩
    subst htag hdom hdata
    split
    next hbad =>
      rw [← hmasked] at hbad
      obtain ⟨⟨hkept, hchan⟩, hrest⟩ := requestLine_write_refused hkind hmode hstate rfl hbad rfl
      exact ⟨hkept, hchan, hrest⟩
    next hgood =>
      rw [← hmasked] at hgood
      obtain ⟨⟨hkept, hchan⟩, hrest⟩ := requestLine_write_queued hkind hmode hstate rfl hgood hq hknown rfl
      exact ⟨hkept, hchan, hrest⟩
  · obtain ⟨r, hr⟩ : ∃ r, r = lineRead tag d s := ⟨_, rfl⟩
    obtain ⟨htag, hdom, hkind⟩ : r.tag = tag ∧ r.domain = d ∧ r.kind = .read := by rw [hr]; exact ⟨rfl, rfl, rfl⟩
    refine ⟨_, exec_domainRequestRead hr hs htakes hfree hd, ?_⟩
    subst htag hdom
    by_cases hno : s.mode = .operational ∧ ((dom s r.domain.val).state = .running ∨ (dom s r.domain.val).state = .root)
    · obtain ⟨hmode, hstate | hstate⟩ := hno
      · obtain ⟨hkept, hchan, hdecided, hlog⟩ := requestLine_read_answered hkind hmode hstate
        exact ⟨hkept, hchan, fun _ _ => ⟨hdecided, hlog⟩, fun h => absurd ⟨hmode, .inl hstate⟩ h⟩
      · obtain ⟨hkept, hchan, -, -⟩ := requestLine_read_root hkind hmode hstate
        refine ⟨hkept, hchan, fun _ h => ?_, fun h => absurd ⟨hmode, .inr hstate⟩ h⟩
        rw [hstate] at h
        cases h
    · obtain ⟨hkept, hchan, hdecided, hlog⟩ := requestLine_read_refused hkind hno
      rw [lineViolation_read hkind] at hlog
      exact ⟨hkept, hchan, fun hmode hstate => absurd ⟨hmode, .inl hstate⟩ hno, fun _ => ⟨hdecided, hlog⟩⟩

end Sys2Proof.Machine
end

section
/-!
PROOFS. Revocation (R136): the move of an entry to REVOKING with its drain, its removal at the record's cached line, and
the remover that is a channel's REVOKE_GRANT (R147).
-/

namespace Sys2Proof.Machine
variable {s t u v : State} {c i : Nat} {b : Line} {a : Active} {ch : Channel} {g : Grant} {r : RevokeWork}
  {rec : TagRecord}

/-! ### The move and the drain (R85, R136) -/

theorem not_pairTraffic_iff {y d : Nat} : ¬PairTraffic y d s ↔
    (∀ p ∈ s.inFlight, ¬(p.2.granule = y ∧ p.2.domain = d)) ∧
      ∀ h, s.stage = some h → ¬(h.granule = y ∧ h.request.domain.val = d) := by
  simp only [PairTraffic, Option.mem_toList]
  push Not
  rfl

/-- What the drain of a grant picks: the grantee's transactions on the granule (R136). -/
def pairPicks (g : Grant) (y d : Nat) : Bool := y == g.granule && d == g.grantee

/-- The entry g at index i has become REVOKING, and the drain over its grantee's transactions is in progress. -/
def grantDraining (x : DrainUser) (i : Nat) (g : Grant) (u : State) : State :=
  { moveGrant i g u with drains := u.drains ++ [counting x (pairPicks g) u] }

/-- With a transaction of the grantee on the granule the drain counts it. -/
theorem beginDrain_moveGrant_waits (x : DrainUser) (i : Nat) (h : PairTraffic g.granule g.grantee u) :
    beginDrain x (.pair g.granule g.grantee) (moveGrant i g u) = grantDraining x i g u := by
  have hkey : keyMatches (.pair g.granule g.grantee) = pairPicks g := rfl
  have hcount : counting x (pairPicks g) (moveGrant i g u) = counting x (pairPicks g) u := rfl
  have hcounts : ¬((counting x (pairPicks g) u).members.isEmpty && !(counting x (pairPicks g) u).held) = true := by
    refine fun hnone => not_pairTraffic_iff.2 ?_ h
    cases hstage : u.stage <;> simpa [counting, pairPicks, hstage, or_iff_not_imp_left] using hnone
  rw [beginDrain_eq, hkey, hcount, if_neg hcounts]
  rfl

/-- Without one the drain has finished as it begins. -/
theorem beginDrain_moveGrant_ends (x : DrainUser) (i : Nat) (h : ¬PairTraffic g.granule g.grantee u) :
    beginDrain x (.pair g.granule g.grantee) (moveGrant i g u) = moveGrant i g u := by
  obtain ⟨hflight, hstage⟩ := not_pairTraffic_iff.1 h
  exact beginDrain_empty (fun p hp => by simpa [keyMatches] using hflight p hp)
    (fun y hy => by simpa [keyMatches] using hstage y hy)

theorem grantAt_grantDraining (x : DrainUser) (i : Nat) (g : Grant) (u : State) (j : Nat) :
    grantAt (grantDraining x i g u) j = if j = i then some { g with state := .revoking } else grantAt u j :=
  grantAt_setGrant u i j _

theorem not_drained_grantDraining (x : DrainUser) (i : Nat) (g : Grant) (u : State) :
    drained (grantDraining x i g u) x = false :=
  not_drained_of_mem (d := counting x (pairPicks g) u) (List.mem_append_right _ (by simp)) rfl

/-! ### The removal at the cached line (R136) -/

/-- From u to t the entry g at index i has gone, its record's count and its two domains' counts have fallen by one, and
no other entry, record or domain has changed. -/
structure GrantRemoved (i : Nat) (g : Grant) (rec : TagRecord) (u t : State) : Prop where
  entry   : grantAt t i = none
  entries : ∀ j, j ≠ i → grantAt t j = grantAt u j
  record  : RecordNow g.granule { rec with count := rec.count - 1 } u t
  owner   : g.owner ≠ g.grantee → dom t g.owner = { dom u g.owner with given := (dom u g.owner).given - 1 }
  grantee : g.owner ≠ g.grantee → dom t g.grantee = { dom u g.grantee with held := (dom u g.grantee).held - 1 }
  domains : ∀ d, d ≠ g.owner → d ≠ g.grantee → dom t d = dom u d

theorem grantRemoved_removeGrant (hg : grantAt u i = some g) (hrec : recordAt u g.granule = some rec) :
    GrantRemoved i g rec u (removeGrant i g rec u) where
  entry := by rw [grantAt_removeGrant rec hg, if_pos rfl]
  entries j hj := by rw [grantAt_removeGrant rec hg, if_neg hj]
  record := recordNow_removeGrant hrec
  owner hne := by rw [dom_removeGrant rec hg hne, if_neg hne, if_pos rfl]
  grantee hne := by rw [dom_removeGrant rec hg hne, if_pos rfl]
  domains d ho hgr := by
    rw [removeGrant, dropGrant, grantAt_putRecord, hg]
    dsimp only
    rw [dom_setDom, if_neg hgr, dom_setDom, if_neg ho]
    exact dom_putRecord ..

/-- The removal seen from states with the same tables. -/
theorem GrantRemoved.congr {s' t' : State} (h : GrantRemoved i g rec u t) (hgrants : s'.grants = u.grants)
    (hdomains : s'.domains = u.domains) (hways : s'.ways = u.ways) (hgrants' : t'.grants = t.grants)
    (hdomains' : t'.domains = t.domains) (hways' : t'.ways = t.ways) : GrantRemoved i g rec s' t' := by
  have hentry : ∀ {x y : State}, x.grants = y.grants → ∀ j, grantAt x j = grantAt y j := fun e j => by
    rw [grantAt, e]
    rfl
  have hdom := dom_congr hdomains
  have hdom' := dom_congr hdomains'
  refine ⟨(hentry hgrants' i).trans h.entry, fun j hj => ?_, h.record.congr hways hways', fun hne => ?_, fun hne => ?_,
    fun d ho hgr => ?_⟩
  · rw [hentry hgrants', hentry hgrants, h.entries j hj]
  · rw [hdom', hdom, h.owner hne]
  · rw [hdom', hdom, h.grantee hne]
  · rw [hdom', hdom, h.domains d ho hgr]

/-- The removal of an entry that its revocation has moved before, seen from before the move. -/
theorem GrantRemoved.of_moved (h : GrantRemoved i { g with state := .revoking } rec (moveGrant i g u) t) :
    GrantRemoved i g rec u t :=
  ⟨h.entry, fun j hj => (h.entries j hj).trans (by rw [moveGrant, grantAt_setGrant, if_neg hj]), h.record, h.owner,
    h.grantee, h.domains⟩

theorem entryIs_of_grantAt (hg : grantAt u i = some g) : entryIs u i g.serial = some g := by simp [entryIs, hg]

/-! ### A channel's removal (R147) -/

/-- The response of a REVOKE_GRANT that has removed its entry itself (R147). -/
def revokeReport (r : RevokeWork) : Report :=
  { finished := 1, next := r.granule + 1, w0 := r.granule, w1 := grantWord r.owner r.grantee r.readWrite none, w2 := 1 }

/-- REVOKE_GRANT's removal step at the cached line. -/
theorem chanStep_revoke_removes (hwork : a.work = .revoke r) (hphase : a.phase = .removal)
    (hg : grantAt u r.index = some g) (hserial : g.serial = r.serial) (hgranule : r.granule = g.granule)
    (hrec : recordAt u g.granule = some rec) :
    ∃ k, chanStep c a u = completeWork c .done (revokeReport r) (removeGrant r.index g rec (touch k u)) := by
  have hentry : entryIs u r.index r.serial = some g := hserial ▸ entryIs_of_grantAt hg
  obtain ⟨k, hk⟩ := withRecord_hit (c := c) (f := fun rec t => revokeDone c r true (removeGrant r.index g rec t)) hrec
  refine ⟨k, ?_⟩
  rw [chanStep, hphase]
  dsimp only
  rw [hwork]
  dsimp only
  rw [revokeStep, hentry, hgranule]
  exact hk

/-- A REVOKE_GRANT at its removal with the line cached ends in its step. -/
theorem Stands.revokes (h : Stands c ch a s u) (hq : Quiet s) (hc : c < 4) (hch : NothingWaits ch) (hwarm : s.warm = none)
    (hwork : a.work = .revoke r) (hphase : a.phase = .removal) (hwait : a.wait = .running)
    (hg : grantAt u r.index = some g) (hserial : g.serial = r.serial) (hgranule : r.granule = g.granule)
    (hrec : recordAt u g.granule = some rec) :
    ∃ v, ComesTo 2 u v ∧ v.produced = u.produced ∧ Completed c ch a.block .done (revokeReport r) s (finish v) ∧
      GrantRemoved r.index g rec u (finish v) ∧ (finish v).drains = u.drains := by
  obtain ⟨k, hk⟩ := chanStep_revoke_removes (c := c) hwork hphase hg hserial hgranule hrec
  have hremoved := grantRemoved_removeGrant (u := Machine.touch k u) hg hrec
  obtain ⟨v, hcome, hdone, hproduced, horder⟩ := ((h.touch k).removeGrant r.index g rec).ends (res := .done)
    (p := revokeReport r) hq hc hch hwarm
  have hgrants : (finish v).grants = _ := (congrArg State.grants horder :)
  exact ⟨v, h.step hq hc hch hwait (by rw [hk]; exact hcome), hproduced.trans (removeGrant_produced ..), hdone,
    hremoved.congr rfl rfl rfl hgrants horder.domains horder.ways, horder.drains.trans (removeGrant_drains ..)⟩

/-! ### REVOKE_GRANT's row (R147) -/

theorem exec_revokeGrant (c : Fin 4) (s : State) :
    exec (.revokeGrant c) s = answerStep s (takeRun .revokeGrant c.val s) := rfl

theorem exec_revocationRemoval (who : Remover) (s : State) :
    exec (.revocationRemoval who) s = answerStep s (removalDue who s) := rfl

/-- The progress of a REVOKE_GRANT of the entry g at index i. -/
def revokeOf (i : Nat) (g : Grant) : RevokeWork :=
  { index := i, serial := g.serial, granule := g.granule, owner := g.owner, grantee := g.grantee,
    readWrite := g.readWrite }

theorem pairTraffic_dequeue {y d : Nat} : PairTraffic y d (dequeue c s) ↔ PairTraffic y d s := by
  simp only [PairTraffic, dequeue_inFlight, dequeue_stage]

theorem doRevokeGrant_refused (hb : 1024 ≤ wordA b) :
    doRevokeGrant c b (dequeue c s) = refuse c b .parameter { remaining := 1 } (dequeue c s) := by
  have hhigh : Config.grantEntries ≤ wordA b := hb
  simp only [doRevokeGrant, if_pos hhigh, refusal]

theorem doRevokeGrant_noEntry (hb : ¬1024 ≤ wordA b) (hg : grantAt s (wordA b) = none) :
    doRevokeGrant c b (dequeue c s) = refuse c b .noEntry { remaining := 1 } (dequeue c s) := by
  have hlow : ¬Config.grantEntries ≤ wordA b := hb
  simp only [doRevokeGrant, if_neg hlow, grantAt_dequeue, hg, refusal]

theorem doRevokeGrant_waits (hb : ¬1024 ≤ wordA b) (hg : grantAt s (wordA b) = some g)
    (htraffic : PairTraffic g.granule g.grantee s) :
    doRevokeGrant c b (dequeue c s) = activate c b (.revoke (revokeOf (wordA b) g)) .drain .drain
      (grantDraining (.command c) (wordA b) g (dequeue c s)) := by
  have hlow : ¬Config.grantEntries ≤ wordA b := hb
  simp only [doRevokeGrant, if_neg hlow, grantAt_dequeue, hg,
    beginDrain_moveGrant_waits (.command c) (wordA b) (pairTraffic_dequeue.2 htraffic), not_drained_grantDraining,
    Bool.false_eq_true, if_false]
  rfl

theorem doRevokeGrant_removes (hb : ¬1024 ≤ wordA b) (hg : grantAt s (wordA b) = some g)
    (htraffic : ¬PairTraffic g.granule g.grantee s) (hno : NoDrain (.command c) s) :
    doRevokeGrant c b (dequeue c s) = activate c b (.revoke (revokeOf (wordA b) g)) .removal .running
      (moveGrant (wordA b) g (dequeue c s)) := by
  have hlow : ¬Config.grantEntries ≤ wordA b := hb
  have hdrained : drained (moveGrant (wordA b) g (dequeue c s)) (.command c) = true := by
    rw [drained_iff, NoDrain, moveGrant, setGrant_drains, dequeue_drains]
    exact hno
  simp only [doRevokeGrant, if_neg hlow, grantAt_dequeue, hg,
    beginDrain_moveGrant_ends (.command c) (wordA b) (mt pairTraffic_dequeue.1 htraffic), hdrained, if_true]
  rfl

/-- With a transaction of the grantee REVOKE_GRANT stands in its drain, which counts it (R85, R147). -/
theorem revokeGrant_waits (h : StartsWork .revokeGrant c b s) (hc : c < 4) (hb : ¬1024 ≤ wordA b)
    (hg : grantAt s (wordA b) = some g) (htraffic : PairTraffic g.granule g.grantee s)
    (ht : t = finish (issueProduced s (settle (doRevokeGrant c b (dequeue c s))))) :
    t.drains = s.drains ++ [counting (.command c) (pairPicks g) s] ∧
      grantAt t (wordA b) = some { g with state := .revoking } ∧ t.ways = s.ways ∧
      (∀ j, j ≠ wordA b → grantAt t j = grantAt s j) ∧
      Starts c b (.revoke (revokeOf (wordA b) g)) .drain .drain (chan s c).claim s t := by
  have hcount : counting (.command c) (pairPicks g) (dequeue c s) = counting (.command c) (pairPicks g) s := by
    rw [counting, dequeue_inFlight, dequeue_stage]
    rfl
  have hstands := h.stands (u := grantDraining (.command c) (wordA b) g (dequeue c s)) rfl
    ⟨by simp [grantDraining, moveGrant], by simp [grantDraining, moveGrant], by simp [grantDraining, moveGrant],
      by simp [grantDraining, moveGrant], by simp [grantDraining, moveGrant]⟩
    (.revoke (revokeOf (wordA b) g)) .drain .drain
  have hquiet := (hstands.at (h.nothingWaits hc)).quiet h.quiet hc rfl
  rw [doRevokeGrant_waits hb hg htraffic, rowEnd_of_comesTo (.here hquiet) (by decide)
    (by simp [grantDraining, moveGrant])] at ht
  subst ht
  refine ⟨?_, ?_, ?_, fun j hj => ?_, hstands.starts⟩
  · rw [finish_drains, activate_drains, grantDraining, hcount, dequeue_drains]
  · rw [grantAt_finish, grantAt_activate, grantAt_grantDraining, if_pos rfl]
  · rw [finish_ways, activate_ways]
    exact dequeue_ways s c
  · rw [grantAt_finish, grantAt_activate, grantAt_grantDraining, if_neg hj, grantAt_dequeue]

/-- Without one, and with the line cached, it removes the entry in the step that takes it (R136, R147). -/
theorem revokeGrant_removes (h : StartsWork .revokeGrant c b s) (hc : c < 4) (hb : ¬1024 ≤ wordA b)
    (hg : grantAt s (wordA b) = some g) (htraffic : ¬PairTraffic g.granule g.grantee s) (hno : NoDrain (.command c) s)
    (hrec : recordAt s g.granule = some rec)
    (ht : t = finish (issueProduced s (settle (doRevokeGrant c b (dequeue c s))))) :
    t.drains = s.drains ∧ GrantRemoved (wordA b) g rec s t ∧
      EndsAtOnce c b .done (revokeReport (revokeOf (wordA b) g)) s t := by
  have hstands := h.stands (u := moveGrant (wordA b) g (dequeue c s)) rfl
    ⟨by simp [moveGrant], by simp [moveGrant], by simp [moveGrant], by simp [moveGrant], by simp [moveGrant]⟩
    (.revoke (revokeOf (wordA b) g)) .removal .running
  obtain ⟨v, hcome, hproduced, hdone, hremoved, hdrains⟩ := hstands.revokes (g := { g with state := .revoking }) h.quiet hc
    (h.nothingWaits hc) h.warm rfl rfl rfl (grantAt_setGrant_same ..) rfl rfl ((recordAt_dequeue s c g.granule).trans hrec)
  rw [doRevokeGrant_removes hb hg htraffic hno, rowEnd_of_comesTo hcome (by decide)
    (hproduced.trans (by simp [moveGrant]))] at ht
  subst ht
  have hfrom : GrantRemoved (wordA b) g rec (dequeue c s) (finish v) :=
    GrantRemoved.of_moved (hremoved.congr rfl rfl rfl rfl rfl rfl)
  exact ⟨hdrains.trans (dequeue_drains s c),
    hfrom.congr (dequeue_grants s c).symm (dequeue_domains s c).symm (dequeue_ways s c).symm rfl rfl rfl,
    h.endsAtOnce_of_completed hdone⟩

/-- The removal of a drained REVOKE_GRANT ends it (R136, R147). -/
theorem revocationRemoval_channel (c : Fin 4) (h : Runs c.val a s) (hwork : a.work = .revoke r) (hphase : a.phase = .drain)
    (hwait : a.wait = .drain) (hno : NoDrain (.command c.val) s) (hg : grantAt s r.index = some g)
    (hserial : g.serial = r.serial) (hgranule : r.granule = g.granule) (hrec : recordAt s g.granule = some rec) :
    ∃ t, exec (.revocationRemoval (.channel c)) s = .next t ∧ GrantRemoved r.index g rec s t ∧
      Ends c.val a .done (revokeReport r) s t := by
  obtain ⟨v, hcome, hproduced, hdone, hremoved, -⟩ := (h.stands.goPhase .removal .running).revokes h.quiet c.isLt
    (h.nothingWaits c.isLt) h.warm hwork rfl rfl hg hserial hgranule hrec
  have hdue : removalDue (.channel c) s = some (settle (goPhase c.val .removal .running s)) := by
    have hdone : drainDone c.val .drain (.command c.val) s = some a.work := by
      simp only [drainDone, h.active]
      exact if_pos ⟨hphase, hwait, drained_iff.2 hno⟩
    rw [removalDue, hdone, hwork]
  refine ⟨finish v, ?_, hremoved.congr rfl rfl rfl rfl rfl rfl, hdone⟩
  rw [exec_revocationRemoval, hdue]
  exact congrArg _ (rowEnd_of_comesTo hcome (by decide) hproduced)

end Sys2Proof.Machine
end

section
/-!
PROOFS. Guest requests in the Domain Request Unit (R140, R51): the start tests, the step at the granule's record, the
wait for its line and the end, for every kind alike.
-/

namespace Sys2Proof.Machine
variable {s t u v : State} {x : GuestRequest} {rest : List GuestRequest} {kind i : Nat} {k : GuestKind} {res : Result}
  {grant : Option Nat} {q : QueryPart} {entry : Option (Nat × Nat)} {g : Grant} {rec : TagRecord}
  {f : TagRecord → State → State}

/-! ### The rows -/

/-- The row of the table that starts a head request of each kind. -/
def kindRow : GuestKind → Instr
  | .offer => .offer
  | .withdraw => .withdraw
  | .pin => .pin
  | .unpin => .unpin
  | .query => .query

theorem exec_kindRow (k : GuestKind) (s : State) : exec (kindRow k) s = answerStep s (startHead k s) := by
  cases k <;> rfl

/-- The state at the end of the step that starts head request x. -/
def requestRow (x : GuestRequest) (s : State) : State := finish (issueProduced s (settle (startRequest x s)))

section
variable (h : HeadAtItsTests kind x rest s)
include h

theorem HeadAtItsTests.requests : s.requests = x :: rest := h.1

theorem HeadAtItsTests.kind_eq : x.kind = kind := by
  obtain ⟨-, -, -, -, hkind, -⟩ := h
  exact hkind

theorem HeadAtItsTests.known : ∀ y, rest.head? = some y → 1 ≤ y.kind ∧ y.kind ≤ 5 := by
  obtain ⟨-, -, -, -, -, hknown⟩ := h
  exact hknown

theorem HeadAtItsTests.row (hk : guestKindOf kind = some k) : exec (kindRow k) s = .next (requestRow x s) := by
  obtain ⟨hreq, hrun, hwarm, hflush, hkind, -⟩ := h
  have hhead : headRequest s = some x := by simp [headRequest, canStartRequest, warned, hreq, hrun, hwarm, hflush]
  rw [exec_kindRow, startHead, hhead]
  dsimp only
  rw [if_pos (hkind.symm ▸ hk)]
  rfl

/-- A head request of a kind meets the start tests that do not ask for its kind (R140). -/
theorem HeadAtItsTests.startTest_eq (hk : guestKindOf kind = some k) : startTest x s = startRefusal x s := by
  have hsome : ¬(guestKindOf x.kind).isNone = true := by simp [h.kind_eq, hk]
  rw [startTest, startRefusal, if_neg hsome]

end

section
variable (h : HeadStarts kind x rest s)
include h

theorem HeadStarts.atItsTests : HeadAtItsTests kind x rest s := by
  obtain ⟨hreq, hrun, hwarm, hflush, hkind, -, -, -, hknown⟩ := h
  exact ⟨hreq, hrun, hwarm, hflush, hkind, hknown⟩

theorem HeadStarts.running : (dom s x.requester).state = .running := by
  obtain ⟨-, -, -, -, -, -, hrunning, -, -⟩ := h
  exact hrunning

theorem HeadStarts.startRefusal_eq : startRefusal x s = none := by
  obtain ⟨-, -, -, -, -, hmode, hrunning, hgranule, -⟩ := h
  simp [startRefusal, hmode, hrunning, hgranule]

end

/-! ### The end of a request (R140) -/

/-- From s to u no request has come or gone, and what can go on beside the Domain Request Unit is as it was. -/
structure HeadKept (s u : State) : Prop extends BesideRequests s u where
  requests : u.requests = s.requests
  results  : u.results = s.results

theorem finishRequest_eq (h : u.requests = x :: rest) : finishRequest res grant q u =
    setResult x.requester { resultOf u x.requester with result := res, grant := grant, query := q }
      { u with requests := rest, running := none } := by
  rw [finishRequest, h]

/-- A request that finishes leaves a part that rests, its result in its requester's record (R140). -/
theorem HeadKept.finishes (h : HeadKept s u) (hq : Quiet s) (hreq : s.requests = x :: rest)
    (hknown : ∀ y, rest.head? = some y → 1 ≤ y.kind ∧ y.kind ≤ 5) :
    ComesTo 0 (finishRequest res grant q u) (finishRequest res grant q u) ∧
      Finished x rest res grant q s (finish (finishRequest res grant q u)) := by
  have hresult : ∀ d, resultOf u d = resultOf s d := fun d => by
    rw [resultOf, h.results]
    rfl
  have hbeside : BesideRequests s (finishRequest res grant q u) :=
    h.toBesideRequests.trans ⟨by simp, by simp, by simp, by simp⟩
  rw [finishRequest_eq (h.requests.trans hreq)] at hbeside ⊢
  refine ⟨.here (hbeside.quiet hq nofun (unknownHead_of_known hknown)), finish_requests _, finish_running _, ?_,
    fun d hd => ?_⟩
  · rw [resultOf_finish, resultOf_setResult_same, hresult]
  · rw [resultOf_finish, resultOf_setResult, if_neg hd]
    exact hresult d

theorem tablesKept_finished (h : TablesKept s u) : TablesKept s (finish (finishRequest res grant q u)) := by
  simpa [TablesKept] using h

/-- A head request that fails a start test finishes with it, and no table changes (R140). -/
theorem HeadAtItsTests.refused (h : HeadAtItsTests kind x rest s) (hk : guestKindOf kind = some k) (hq : Quiet s)
    (hres : startRefusal x s = some res) :
    ∃ t, exec (kindRow k) s = .next t ∧ Finished x rest res none .absent s t ∧ TablesKept s t := by
  have hkept : HeadKept s s := ⟨.refl s, rfl, rfl⟩
  obtain ⟨hcome, hfinished⟩ := hkept.finishes (res := res) (grant := none) (q := .absent) hq h.requests h.known
  have hrow : requestRow x s = finish (finishRequest res none .absent s) := by
    rw [requestRow, startRequest, h.startTest_eq hk, hres]
    exact rowEnd_of_comesTo hcome (by decide) (finishRequest_produced ..)
  refine ⟨_, h.row hk, ?_⟩
  rw [hrow]
  exact ⟨hfinished, tablesKept_finished ⟨rfl, rfl, fun _ => rfl, rfl, rfl, rfl, fun _ => rfl⟩⟩

/-! ### The first step of a request that has started (R140) -/

/-- The part in which the head request runs. -/
def requestBegun (s : State) : State := { s with running := some { wait := .running, entry := none } }

theorem headKept_requestBegun (s : State) : HeadKept s (requestBegun s) := ⟨⟨rfl, rfl, rfl, rfl⟩, rfl, rfl⟩

/-- What a request of each kind does in its first step (R142 to R145). -/
def kindStep (x : GuestRequest) : GuestKind → State → State
  | .offer => withRequestRecord x.granule (offerStep x)
  | .withdraw => withdrawStart x
  | .pin => withRequestRecord x.granule (pinStep x true)
  | .unpin => withRequestRecord x.granule (pinStep x false)
  | .query => withRequestRecord x.granule (queryStep x)

theorem requestStep_kind {w : Wait} (hreq : u.requests = x :: rest)
    (hrun : u.running = some { wait := w, entry := none }) (hkind : guestKindOf x.kind = some k) :
    requestStep u = kindStep x k u := by
  rw [requestStep, hreq, hrun]
  dsimp only
  rw [hkind]
  cases k <;> rfl

/-- A request that passes its start tests makes the first step of its kind, and what comes of that ends the row. -/
theorem HeadStarts.begins {n : Nat} (h : HeadStarts kind x rest s) (hk : guestKindOf kind = some k) (hq : Quiet s)
    (hstep : ComesTo n (kindStep x k (requestBegun s)) v) (hn : n ≤ 10) :
    requestRow x s = finish (issueProduced s v) := by
  have hstarts : startRequest x s = requestBegun s := by
    rw [startRequest, h.atItsTests.startTest_eq hk, h.startRefusal_eq]
    rfl
  have hfirst : requestStep (requestBegun s) = kindStep x k (requestBegun s) :=
    requestStep_kind h.atItsTests.requests rfl (h.atItsTests.kind_eq ▸ hk)
  rw [requestRow, hstarts, settle_to ((headKept_requestBegun s).step hq rfl (by rw [hfirst]; exact hstep)) (by omega)]

/-- The part in which the running request has found its granule's record: its way has moved in its set's order (R41). -/
def requestFound (key : Nat) (s : State) : State := touch key (requestBegun s)

theorem headKept_requestFound (key : Nat) (s : State) : HeadKept s (requestFound key s) :=
  ⟨⟨rfl, rfl, rfl, rfl⟩, rfl, rfl⟩

/-- A request whose granule is cached makes its step at the record; if it finishes then, that ends the row. -/
theorem HeadStarts.changes {w : Nat → State} (h : HeadStarts kind x rest s) (hk : guestKindOf kind = some k) (hq : Quiet s)
    (hf : kindStep x k = withRequestRecord x.granule f) (hrec : recordAt s x.granule = some rec)
    (hstep : ∀ key, f rec (requestFound key s) = finishRequest res grant q (w key))
    (hkept : ∀ key, HeadKept s (w key)) (hproduced : ∀ key, (w key).produced = s.produced) :
    ∃ key, requestRow x s = finish (finishRequest res grant q (w key)) ∧
      Finished x rest res grant q s (requestRow x s) := by
  obtain ⟨key, hkey⟩ := lookup_hit (s := requestBegun s) hrec
  obtain ⟨hcome, hfinished⟩ :=
    (hkept key).finishes (res := res) (grant := grant) (q := q) hq h.atItsTests.requests h.atItsTests.known
  have hfirst : kindStep x k (requestBegun s) = finishRequest res grant q (w key) := by
    rw [hf, withRequestRecord, hkey]
    exact hstep key
  have hrow : requestRow x s = _ := h.begins hk hq (by rw [hfirst]; exact hcome) (by decide)
  rw [issueProduced_same _ ((finishRequest_produced ..).trans (hproduced key))] at hrow
  exact ⟨key, hrow, hrow ▸ hfinished⟩

/-- A request that finishes at the record without a change leaves every table as it was. -/
theorem HeadStarts.answers (h : HeadStarts kind x rest s) (hk : guestKindOf kind = some k) (hq : Quiet s)
    (hf : kindStep x k = withRequestRecord x.granule f) (hrec : recordAt s x.granule = some rec)
    (hstep : ∀ key, f rec (requestFound key s) = finishRequest res grant q (requestFound key s)) :
    Finished x rest res grant q s (requestRow x s) ∧ TablesKept s (requestRow x s) := by
  obtain ⟨key, hrow, hfinished⟩ := h.changes hk hq hf hrec hstep (fun key => headKept_requestFound key s) fun _ => rfl
  refine ⟨hfinished, ?_⟩
  rw [hrow]
  exact tablesKept_finished ⟨rfl, rfl, fun _ => rfl, rfl, rfl, rfl, fun _ => rfl⟩

/-! ### The wait for a line (R51) -/

/-- A part whose request waits rests. -/
theorem BesideRequests.quiet_waiting {r : GuestRun} (h : BesideRequests s u) (hq : Quiet s) (hrun : u.running = some r)
    (hwait : waitOver r.wait = false) : Quiet u := by
  refine h.quiet hq (fun y hy => ?_) (unknownHead_of_busy ?_)
  · obtain rfl : r = y := Option.some.inj (hrun.symm.trans hy)
    exact hwait
  · rw [canStartRequest, hrun]
    rfl

/-- A running request that makes a step at a granule whose line is not cached waits for its fill. -/
theorem HeadKept.waits (h : HeadKept s u) (hq : Quiet s) (hrun : u.running = some { wait := .running, entry := entry })
    (hways : u.ways = s.ways) (hdom : u.domains = s.domains) (hrec : recordAt u x.granule = none) :
    let v := withRequestRecord x.granule f u
    ComesTo 0 v v ∧ RequestWaitsForFill x entry s (finish (issueProduced s v)) ∧
      (finish (issueProduced s v)).grants = u.grants := by
  have hline : tagLineOf x.granule = x.granule / 4 := rfl
  dsimp only
  rw [withRequestRecord, lookup_miss hrec, hline]
  dsimp only
  have hwaits : (requestWait (.fill (x.granule / 4)) u).running =
      some { wait := .fill (x.granule / 4), entry := entry } := by
    rw [requestWait, hrun]
    rfl
  have hbeside : BesideRequests s (joinFill (x.granule / 4) (requestWait (.fill (x.granule / 4)) u)) :=
    h.toBesideRequests.trans ⟨by simp, by simp, by simp, by simp⟩
  have hjoined := joinFill_joined (x.granule / 4) (requestWait (.fill (x.granule / 4)) u)
  have hrunning := (joinFill_running (requestWait (.fill (x.granule / 4)) u) (x.granule / 4)).trans hwaits
  refine ⟨.here (hbeside.quiet_waiting hq hrunning rfl), ⟨?_, ?_, ?_, ?_, ?_, ?_, ?_⟩, ?_⟩
  · simp [h.requests]
  · rw [finish_running, issueProduced_running, hrunning]
  · rw [finish_fills, finish_fillWaits, issueProduced_fillWaits]
    exact hjoined.imp_left issueProduced_filled
  · simp [hways]
  · exact fun d => by simp [dom_congr hdom]
  · exact fun d => by simp [resultOf, h.results]
  · exact fun c => by simp [h.chan]
  · simp

/-- A request of a kind that begins at its granule's record waits for the line where it is not cached. -/
theorem HeadStarts.waits (h : HeadStarts kind x rest s) (hk : guestKindOf kind = some k) (hq : Quiet s)
    (hf : kindStep x k = withRequestRecord x.granule f) (hrec : recordAt s x.granule = none) :
    ∃ t, exec (kindRow k) s = .next t ∧ RequestWaitsForFill x none s t ∧ t.grants = s.grants := by
  obtain ⟨hcome, hwaits, hgrants⟩ := (headKept_requestBegun s).waits (f := f) hq rfl rfl rfl hrec
  refine ⟨_, h.atItsTests.row hk, ?_⟩
  rw [h.begins hk hq (by rw [hf]; exact hcome) (by decide)]
  exact ⟨hwaits, hgrants⟩

end Sys2Proof.Machine
end

section
/-!
PROOFS. OFFER (R142): its tests at the record, and the entry it creates: O42.
-/

namespace Sys2Proof.Machine
variable {s t u : State} {x : GuestRequest} {rest : List GuestRequest} {i : Nat} {res : Result} {rec : TagRecord}

/-! ### The entry (R134, R142) -/

/-- The entry that an OFFER creates. -/
def offeredGrant (x : GuestRequest) (u : State) : Grant :=
  { serial := u.grantSerial, granule := x.granule, owner := x.requester, grantee := x.grantee,
    readWrite := x.access == 2, state := .offered }

/-- The state in which the entry stands in the table and its record's count is raised. -/
def offerEntered (i : Nat) (x : GuestRequest) (rec : TagRecord) (u : State) : State :=
  putRecord x.granule { rec with count := rec.count + 1 }
    (setGrant i (offeredGrant x u) { u with grantSerial := u.grantSerial + 1 })

theorem dom_offerEntered (i : Nat) (x : GuestRequest) (rec : TagRecord) (u : State) (d : Nat) :
    dom (offerEntered i x rec u) d = dom u d := dom_putRecord ..

/-- The requester has given one grant more, and then the grantee holds one more (R99). -/
theorem offerGrant_eq (i : Nat) (x : GuestRequest) (rec : TagRecord) (u : State) : offerGrant i x rec u =
    let v := setDom x.requester { dom u x.requester with given := (dom u x.requester).given + 1 }
      (offerEntered i x rec u)
    setDom x.grantee { dom v x.grantee with held := (dom v x.grantee).held + 1 } v := by
  rw [← dom_offerEntered i x rec u x.requester]
  rfl

theorem grantAt_offerGrant (i j : Nat) (x : GuestRequest) (rec : TagRecord) (u : State) :
    grantAt (offerGrant i x rec u) j = if j = i then some (offeredGrant x u) else grantAt u j := by
  rw [offerGrant_eq, grantAt_setDom, grantAt_setDom, offerEntered, grantAt_putRecord, grantAt_setGrant]
  rfl

theorem recordNow_offerGrant (i : Nat) (hrec : recordAt u x.granule = some rec) :
    RecordNow x.granule { rec with count := rec.count + 1 } u (offerGrant i x rec u) := by
  have hbefore : recordAt (setGrant i (offeredGrant x u) { u with grantSerial := u.grantSerial + 1 }) x.granule =
      some rec :=
    (recordAt_congr rfl _).trans hrec
  exact (recordNow_putRecord hbefore).congr (by simp) (by simp [offerGrant_eq, offerEntered])

theorem dom_offerGrant (i : Nat) (hne : x.grantee ≠ x.requester) (d : Nat) :
    dom (offerGrant i x rec u) d =
      if d = x.grantee then { dom u d with held := (dom u d).held + 1 }
      else if d = x.requester then { dom u d with given := (dom u d).given + 1 }
      else dom u d := by
  rw [offerGrant_eq, dom_setDom, dom_setDom, if_neg hne, dom_offerEntered]
  split
  next hd => rw [hd]
  next =>
    rw [dom_setDom, dom_offerEntered]
    split
    next hr => rw [hr]
    next => rfl

theorem HeadKept.offerGrant (h : HeadKept s u) (i : Nat) (x : GuestRequest) (rec : TagRecord) :
    HeadKept s (offerGrant i x rec u) := by
  obtain ⟨⟨hchannels, hwarm, hflush, hpoisonings⟩, hrequests, hresults⟩ := h
  unfold Machine.offerGrant
  exact ⟨⟨by simpa using hchannels, by simpa using hwarm, by simpa using hflush, by simpa using hpoisonings⟩,
    by simpa using hrequests, by simpa using hresults⟩

/-! ### The row -/

theorem HeadStarts.offer_refused (h : HeadStarts 1 x rest s) (hq : Quiet s) (hrec : recordAt s x.granule = some rec)
    (htest : offerTest x rec s = some res) :
    Finished x rest res none .absent s (requestRow x s) ∧ TablesKept s (requestRow x s) := by
  refine h.answers (k := .offer) rfl hq rfl hrec fun key => ?_
  have hfound : offerTest x rec (requestFound key s) = some res := htest
  rw [offerStep, hfound]

/-- From s to t OFFER has made its entry at index i, raised its record's count and its two domains' counts by one, and
changed no other entry, record or domain. -/
structure Offered (i : Nat) (x : GuestRequest) (rec : TagRecord) (s t : State) : Prop where
  entry    : grantAt t i = some (offeredGrant x s)
  entries  : ∀ j, j ≠ i → grantAt t j = grantAt s j
  record   : RecordNow x.granule { rec with count := rec.count + 1 } s t
  owner    : dom t x.requester = { dom s x.requester with given := (dom s x.requester).given + 1 }
  grantee  : dom t x.grantee = { dom s x.grantee with held := (dom s x.grantee).held + 1 }
  domains  : ∀ d, d ≠ x.requester → d ≠ x.grantee → dom t d = dom s d
  inFlight : t.inFlight = s.inFlight
  log      : t.log = s.log
  chan     : ∀ c, chan t c = chan s c

theorem HeadStarts.offers (h : HeadStarts 1 x rest s) (hq : Quiet s) (hrec : recordAt s x.granule = some rec)
    (htest : offerTest x rec s = none) (hi : tblFree 1024 s.grants = some i) (hne : x.grantee ≠ x.requester) :
    Finished x rest .done (some i) .absent s (requestRow x s) ∧ Offered i x rec s (requestRow x s) := by
  obtain ⟨key, hrow, hfinished⟩ := h.changes (k := .offer) (w := fun key => offerGrant i x rec (requestFound key s))
    (res := .done) (grant := some i) (q := .absent) rfl hq rfl hrec
    (fun key => by
      have hfound : offerTest x rec (requestFound key s) = none := htest
      have hfree : tblFree Config.grantEntries (requestFound key s).grants = some i := hi
      rw [offerStep, hfound]
      dsimp only
      rw [hfree])
    (fun key => (headKept_requestFound key s).offerGrant i x rec)
    (fun key => by simp [offerGrant, requestFound, requestBegun])
  refine ⟨hfinished, ?_⟩
  rw [hrow]
  have hdom : ∀ d, dom (finish (finishRequest .done (some i) .absent (offerGrant i x rec (requestFound key s)))) d = _ :=
    fun d => (dom_finish _ d).trans ((dom_finishRequest ..).trans (dom_offerGrant i hne d))
  have hentry : ∀ j, grantAt (finish (finishRequest .done (some i) .absent (offerGrant i x rec (requestFound key s)))) j
      = _ := fun j => (grantAt_finish _ j).trans ((grantAt_finishRequest ..).trans (grantAt_offerGrant i j x rec _))
  refine ⟨?_, fun j hj => ?_, ?_, ?_, ?_, fun d hr hg => ?_, ?_, ?_, fun c => ?_⟩
  · rw [hentry, if_pos rfl]
    rfl
  · rw [hentry, if_neg hj]
    rfl
  · exact (recordNow_offerGrant (u := requestFound key s) i hrec).congr rfl (by simp)
  · rw [hdom, if_neg hne.symm, if_pos rfl]
    rfl
  · rw [hdom, if_pos rfl]
    rfl
  · rw [hdom, if_neg hg, if_neg hr]
    rfl
  · simp [offerGrant, requestFound, requestBegun]
  · simp [offerGrant, requestFound, requestBegun]
  · rw [chan_finish, chan_finishRequest]
    exact ((headKept_requestFound key s).offerGrant i x rec).chan c

/-- Settles O42: OFFER refuses at its start tests, waits for its line, or finishes with the first test that fails or a
new entry at the lowest free index. -/
theorem offerCreatesAnEntryAtTheLowestFreeIndex : Obligations.OfferCreatesAnEntryAtTheLowestFreeIndex := by
  refine ⟨fun x rest r s h hq hres => h.refused (k := .offer) rfl hq hres,
    fun x rest s h hq hrec => h.waits (k := .offer) rfl hq rfl hrec,
    fun x rest rec s h hq hrec => ⟨_, h.atItsTests.row (k := .offer) rfl, ?_⟩⟩
  have hrunning : ¬(dom s x.requester).state = .retiring := by simp [h.running]
  split
  next hstate => exact h.offer_refused hq hrec (by rw [offerTest, if_pos hstate])
  next hstate =>
  split
  next hbad => exact h.offer_refused hq hrec (by rw [offerTest, if_neg hstate, if_pos hbad])
  next hgood =>
  split
  next hdead =>
    have hdead' : (dom s x.grantee).state = .free ∨ (dom s x.grantee).state = .retiring ∨
      (dom s x.requester).state = .retiring := hdead.imp_right .inl
    exact h.offer_refused hq hrec (by rw [offerTest, if_neg hstate, if_neg hgood, if_pos hdead'])
  next hlive =>
  have hlive' : ¬((dom s x.grantee).state = .free ∨ (dom s x.grantee).state = .retiring ∨
    (dom s x.requester).state = .retiring) := by tauto
  split
  next hdup => exact h.offer_refused hq hrec (by rw [offerTest, if_neg hstate, if_neg hgood, if_neg hlive', if_pos hdup])
  next hnew =>
  split
  next hfull =>
    have hfull' : Config.grantsPerGranule ≤ rec.count := hfull
    exact h.offer_refused hq hrec
      (by rw [offerTest, if_neg hstate, if_neg hgood, if_neg hlive', if_neg hnew, if_pos hfull'])
  next hroom =>
  have hroom' : ¬Config.grantsPerGranule ≤ rec.count := hroom
  have htable : offerTest x rec s = if (tblFree Config.grantEntries s.grants).isNone then some .tableFull else none := by
    rw [offerTest, if_neg hstate, if_neg hgood, if_neg hlive', if_neg hnew, if_neg hroom']
  split
  next hi =>
    have hnone : tblFree Config.grantEntries s.grants = none := hi
    exact h.offer_refused hq hrec (by rw [htable, hnone]; rfl)
  next i hi =>
    have hsome : tblFree Config.grantEntries s.grants = some i := hi
    obtain ⟨hfinished, hentry, hentries, hrecord, howner, hgrantee, hdomains, hflight, hlog, hchan⟩ :=
      h.offers hq hrec (by rw [htable, hsome]; rfl) hi fun he => hgood (.inr (.inl he))
    exact ⟨hfinished, hentry, hentries, hrecord, howner, hgrantee, hdomains, hflight, hlog, hchan⟩

end Sys2Proof.Machine
end

section
/-!
PROOFS. PIN, UNPIN and QUERY (R144, R145): O43.
-/

namespace Sys2Proof.Machine
variable {s : State} {x : GuestRequest} {rest : List GuestRequest} {kind : Nat} {k : GuestKind} {rec : TagRecord}
  {flag : Bool}

/-! ### PIN and UNPIN (R144) -/

theorem pinStep_refuses (hother : rec.state ≠ .gPrivate ∨ rec.owner ≠ some x.requester) (u : State) :
    pinStep x flag rec u = finishRequest .granuleState none .absent u := if_pos hother

theorem pinStep_stands (howner : ¬(rec.state ≠ .gPrivate ∨ rec.owner ≠ some x.requester)) (hflag : rec.pinned = flag)
    (u : State) : pinStep x flag rec u = finishRequest .done none .absent u := by
  rw [pinStep, if_neg howner, if_pos hflag]

theorem pinStep_sets (howner : ¬(rec.state ≠ .gPrivate ∨ rec.owner ≠ some x.requester)) (hflag : rec.pinned ≠ flag)
    (u : State) : pinStep x flag rec u =
      finishRequest .done none .absent (putRecord x.granule { rec with pinned := flag } u) := by
  rw [pinStep, if_neg howner, if_neg hflag]

theorem HeadKept.putRecord {u : State} (h : HeadKept s u) (g : Nat) (r : TagRecord) : HeadKept s (putRecord g r u) := by
  obtain ⟨⟨hchannels, hwarm, hflush, hpoisonings⟩, hrequests, hresults⟩ := h
  exact ⟨⟨by simpa using hchannels, by simpa using hwarm, by simpa using hflush, by simpa using hpoisonings⟩,
    by simpa using hrequests, by simpa using hresults⟩

/-- PIN or UNPIN writes the flag where it stands otherwise, and changes nothing else. -/
theorem HeadStarts.pins (h : HeadStarts kind x rest s) (hk : guestKindOf kind = some k) (hq : Quiet s)
    (hf : kindStep x k = withRequestRecord x.granule (pinStep x flag)) (hrec : recordAt s x.granule = some rec)
    (howner : ¬(rec.state ≠ .gPrivate ∨ rec.owner ≠ some x.requester)) (hflag : rec.pinned ≠ flag) :
    let t := requestRow x s
    Finished x rest .done none .absent s t ∧ RecordNow x.granule { rec with pinned := flag } s t ∧
      t.grants = s.grants ∧ (∀ d, dom t d = dom s d) ∧ ∀ c, chan t c = chan s c := by
  have hkept : ∀ key, HeadKept s (Machine.putRecord x.granule { rec with pinned := flag } (requestFound key s)) :=
    fun key => (headKept_requestFound key s).putRecord _ _
  obtain ⟨key, hrow, hfinished⟩ := h.changes hk hq hf hrec (fun key => pinStep_sets howner hflag _) hkept
    fun key => putRecord_produced ..
  refine ⟨hfinished, ?_⟩
  rw [hrow]
  refine ⟨?_, ?_, fun d => ?_, fun c => ?_⟩
  · exact (recordNow_putRecord (s := requestFound key s) hrec).congr rfl (by simp)
  · rw [finish_grants, finishRequest_grants]
    exact putRecord_grants ..
  · rw [dom_finish, dom_finishRequest]
    exact dom_putRecord ..
  · rw [chan_finish, chan_finishRequest]
    exact (hkept key).chan c

/-- What PIN (flag true) and UNPIN (flag false) do at a cached granule (R144). -/
theorem HeadStarts.pinRow (h : HeadStarts kind x rest s) (hk : guestKindOf kind = some k) (hq : Quiet s)
    (hf : kindStep x k = withRequestRecord x.granule (pinStep x flag)) (hrec : recordAt s x.granule = some rec) :
    ∃ t, exec (kindRow k) s = .next t ∧
      if rec.state ≠ .gPrivate ∨ rec.owner ≠ some x.requester then
        Finished x rest .granuleState none .absent s t ∧ TablesKept s t
      else if rec.pinned = flag then Finished x rest .done none .absent s t ∧ TablesKept s t
      else
        Finished x rest .done none .absent s t ∧ RecordNow x.granule { rec with pinned := flag } s t ∧
          t.grants = s.grants ∧ (∀ d, dom t d = dom s d) ∧ ∀ c, chan t c = chan s c := by
  refine ⟨_, h.atItsTests.row hk, ?_⟩
  split
  next hother => exact h.answers hk hq hf hrec fun key => pinStep_refuses hother _
  next howner =>
  split
  next hflag => exact h.answers hk hq hf hrec fun key => pinStep_stands howner hflag _
  next hflag => exact h.pins hk hq hf hrec howner hflag

/-! ### QUERY (R145) -/

theorem queryStep_owner (howner : rec.owner = some x.requester) (u : State) :
    queryStep x rec u = finishRequest .done none (.ownerView rec.state rec.pinned rec.count) u := if_pos howner

theorem queryStep_grantee {u : State} {i : Nat} {g : Grant} (hother : ¬rec.owner = some x.requester)
    (hgrant : grantFor u x.granule x.requester = some (i, g)) :
    queryStep x rec u = finishRequest .done (some i) (.granteeView rec.state g.state g.readWrite) u := by
  rw [queryStep, if_neg hother, hgrant]

theorem queryStep_notOwner {u : State} (hother : ¬rec.owner = some x.requester)
    (hnone : grantFor u x.granule x.requester = none) : queryStep x rec u = finishRequest .notOwner none .absent u := by
  rw [queryStep, if_neg hother, hnone]

/-- QUERY finishes at the record and changes no table. -/
theorem HeadStarts.queries {res : Result} {grant : Option Nat} {q : QueryPart} (h : HeadStarts 5 x rest s) (hq : Quiet s)
    (hrec : recordAt s x.granule = some rec)
    (hstep : ∀ key, queryStep x rec (requestFound key s) = finishRequest res grant q (requestFound key s)) :
    TablesKept s (requestRow x s) ∧ Finished x rest res grant q s (requestRow x s) :=
  (h.answers (k := .query) rfl hq rfl hrec hstep).symm

/-! ### The rows -/

/-- The three kinds with their codes; none of them tests anything before its granule's record. -/
theorem kindRow_of_mem {i : Instr} (hmem : (i, kind) ∈ [(Instr.pin, 3), (.unpin, 4), (.query, 5)]) :
    ∃ (k : GuestKind) (f : GuestRequest → TagRecord → State → State), i = kindRow k ∧ guestKindOf kind = some k ∧
      ∀ x, kindStep x k = withRequestRecord x.granule (f x) := by
  simp only [List.mem_cons, Prod.mk.injEq, List.not_mem_nil, or_false] at hmem
  obtain ⟨rfl, rfl⟩ | ⟨rfl, rfl⟩ | ⟨rfl, rfl⟩ := hmem
  · exact ⟨.pin, fun x => pinStep x true, rfl, rfl, fun _ => rfl⟩
  · exact ⟨.unpin, fun x => pinStep x false, rfl, rfl, fun _ => rfl⟩
  · exact ⟨.query, queryStep, rfl, rfl, fun _ => rfl⟩

/-- Settles O43: PIN, UNPIN and QUERY meet their start tests, wait for a line not cached, and act by the record. -/
theorem pinUnpinAndQueryActForTheOwner : Obligations.PinUnpinAndQueryActForTheOwner := by
  refine ⟨fun i kind x rest r s hmem h hq hres => ?_, fun i kind x rest s hmem h hq hrec => ?_,
    fun i kind flag x rest rec s hmem h hq hrec => ?_,
    fun x rest rec s h hq hrec => ⟨_, h.atItsTests.row (k := .query) rfl, ?_⟩⟩
  · obtain ⟨k, f, rfl, hk, -⟩ := kindRow_of_mem hmem
    exact h.refused hk hq hres
  · obtain ⟨k, f, rfl, hk, hf⟩ := kindRow_of_mem hmem
    exact h.waits hk hq (hf x) hrec
  · simp only [List.mem_cons, Prod.mk.injEq, List.not_mem_nil, or_false] at hmem
    obtain ⟨rfl, rfl, rfl⟩ | ⟨rfl, rfl, rfl⟩ := hmem
    · exact h.pinRow (k := .pin) rfl hq rfl hrec
    · exact h.pinRow (k := .unpin) rfl hq rfl hrec
  · split
    next howner => exact h.queries hq hrec fun key => queryStep_owner howner _
    next hother =>
    split
    next i g hgrant => exact h.queries hq hrec fun key => queryStep_grantee hother hgrant
    next hnone => exact h.queries hq hrec fun key => queryStep_notOwner hother hnone

end Sys2Proof.Machine
end

section
/-!
PROOFS. WITHDRAW (R143): its tests, the drain over the grantee's transactions, and the removal of the entry: O44.
-/

namespace Sys2Proof.Machine
variable {s t u v : State} {x : GuestRequest} {rest : List GuestRequest} {i serial : Nat} {g : Grant} {rec : TagRecord}

/-! ### The removal step (R136, R143) -/

theorem requestStep_entry {w : Wait} (hreq : u.requests = x :: rest)
    (hrun : u.running = some { wait := w, entry := some (i, serial) }) : requestStep u = withdrawRemoval i serial u := by
  rw [requestStep, hreq, hrun]

/-- A WITHDRAW's removal of the entry g at index i, at its granule's record. -/
def withdrawEnd (i : Nat) (g : Grant) (r : TagRecord) (u : State) : State :=
  finishRequest .done (some i) .absent (removeGrant i g r u)

theorem withdrawRemoval_eq (hg : grantAt u i = some g) (hserial : g.serial = serial) :
    withdrawRemoval i serial u = withRequestRecord g.granule (withdrawEnd i g) u := by
  rw [withdrawRemoval, ← hserial, entryIs_of_grantAt hg]
  rfl

theorem HeadKept.touch (h : HeadKept s u) (key : Nat) : HeadKept s (Machine.touch key u) :=
  ⟨h.toBesideRequests.trans ⟨rfl, rfl, rfl, rfl⟩, h.requests, h.results⟩

theorem HeadKept.removeGrant (h : HeadKept s u) (i : Nat) (g : Grant) (r : TagRecord) :
    HeadKept s (removeGrant i g r u) :=
  ⟨h.toBesideRequests.trans ⟨by simp, by simp, by simp, by simp⟩, (removeGrant_requests ..).trans h.requests,
    (removeGrant_results ..).trans h.results⟩

/-- The running request that removes entry i makes its removal step at the cached line, and has finished. -/
theorem HeadKept.removes (h : HeadKept s u) (hq : Quiet s) (hreq : s.requests = x :: rest)
    (hknown : ∀ y, rest.head? = some y → 1 ≤ y.kind ∧ y.kind ≤ 5)
    (hrun : u.running = some { wait := .running, entry := some (i, serial) }) (hg : grantAt u i = some g)
    (hserial : g.serial = serial) (hrec : recordAt u g.granule = some rec) :
    ∃ v, ComesTo 1 u v ∧ v.produced = u.produced ∧ Finished x rest .done (some i) .absent s (finish v) ∧
      GrantRemoved i g rec u (finish v) ∧ ∀ c, chan (finish v) c = chan s c := by
  obtain ⟨key, hkey⟩ := lookup_hit hrec
  have hkept := (h.touch key).removeGrant i g rec
  obtain ⟨hcome, hfinished⟩ := hkept.finishes (res := .done) (grant := some i) (q := .absent) hq hreq hknown
  have hstep : requestStep u =
      finishRequest .done (some i) .absent (Machine.removeGrant i g rec (Machine.touch key u)) := by
    rw [requestStep_entry (h.requests.trans hreq) hrun, withdrawRemoval_eq hg hserial, withRequestRecord, hkey]
    rfl
  refine ⟨_, h.toBesideRequests.step hq hrun (by rw [hstep]; exact hcome), ?_, hfinished, ?_, fun c => ?_⟩
  · exact (finishRequest_produced ..).trans (removeGrant_produced ..)
  · exact (grantRemoved_removeGrant (u := Machine.touch key u) hg hrec).congr rfl rfl rfl (by simp) (by simp) (by simp)
  · rw [chan_finish, chan_finishRequest]
    exact hkept.chan c

/-! ### The first step (R143) -/

/-- The request has moved its entry g at index i, and goes on or waits. -/
def withdrawAt (w : Wait) (i : Nat) (g : Grant) (u : State) : State :=
  { u with running := some { wait := w, entry := some (i, g.serial) } }

theorem withdrawStart_parameter (hhigh : 511 < x.grantee) (u : State) :
    withdrawStart x u = finishRequest .parameter none .absent u := if_pos hhigh

theorem withdrawStart_noEntry (hlow : ¬511 < x.grantee) (hnone : grantFor u x.granule x.grantee = none) :
    withdrawStart x u = finishRequest .noEntry none .absent u := by
  rw [withdrawStart, if_neg hlow, hnone]

theorem withdrawStart_notOwner (hlow : ¬511 < x.grantee) (hgrant : grantFor u x.granule x.grantee = some (i, g))
    (howner : g.owner ≠ x.requester) : withdrawStart x u = finishRequest .notOwner none .absent u := by
  rw [withdrawStart, if_neg hlow, hgrant]
  exact if_pos howner

/-- With a transaction of the grantee on the granule it waits for its drain (R85). -/
theorem withdrawStart_waits (hlow : ¬511 < x.grantee) (hgrant : grantFor u x.granule x.grantee = some (i, g))
    (howner : ¬g.owner ≠ x.requester) (htraffic : PairTraffic g.granule g.grantee u) :
    withdrawStart x u = withdrawAt .drain i g (grantDraining .request i g u) := by
  rw [withdrawStart, if_neg hlow, hgrant]
  simp only [if_neg howner, beginDrain_moveGrant_waits .request i htraffic, not_drained_grantDraining,
    Bool.false_eq_true, if_false]
  rfl

/-- Without one it goes on to the removal. -/
theorem withdrawStart_goes (hlow : ¬511 < x.grantee) (hgrant : grantFor u x.granule x.grantee = some (i, g))
    (howner : ¬g.owner ≠ x.requester) (htraffic : ¬PairTraffic g.granule g.grantee u) (hno : NoDrain .request u) :
    withdrawStart x u = withdrawAt .running i g (moveGrant i g u) := by
  have hdrained : drained (moveGrant i g u) .request = true := drained_iff.2 hno
  rw [withdrawStart, if_neg hlow, hgrant]
  simp only [if_neg howner, beginDrain_moveGrant_ends .request i htraffic, hdrained, if_true]
  rfl

theorem grantDraining_drains (y : DrainUser) (i : Nat) (g : Grant) (u : State) :
    (grantDraining y i g u).drains = u.drains ++ [counting y (pairPicks g) u] := rfl

theorem withdraw_drains (i : Nat) (g : Grant) (s : State) :
    (withdrawAt .drain i g (grantDraining .request i g (requestBegun s))).drains =
      s.drains ++ [counting .request (pairPicks g) s] := by
  have hcount : counting .request (pairPicks g) (requestBegun s) = counting .request (pairPicks g) s := rfl
  rw [← hcount]
  exact grantDraining_drains .request i g (requestBegun s)

theorem HeadKept.withdrawAt (h : HeadKept s u) (w : Wait) (i : Nat) (g : Grant) : HeadKept s (withdrawAt w i g u) :=
  ⟨h.toBesideRequests.trans ⟨rfl, rfl, rfl, rfl⟩, h.requests, h.results⟩

theorem HeadKept.moveGrant (h : HeadKept s u) (i : Nat) (g : Grant) : HeadKept s (moveGrant i g u) :=
  ⟨h.toBesideRequests.trans ⟨rfl, rfl, rfl, rfl⟩, h.requests, h.results⟩

theorem HeadKept.grantDraining (h : HeadKept s u) (y : DrainUser) (i : Nat) (g : Grant) :
    HeadKept s (grantDraining y i g u) :=
  ⟨(h.moveGrant i g).toBesideRequests.trans ⟨rfl, rfl, rfl, rfl⟩, (h.moveGrant i g).requests, (h.moveGrant i g).results⟩

/-! ### The row -/

section
variable (h : HeadStarts 2 x rest s) (hq : Quiet s)
include h hq

/-- A WITHDRAW that finishes in its first step leaves every table as it was. -/
theorem HeadStarts.withdraw_refused {res : Result}
    (hstep : withdrawStart x (requestBegun s) = finishRequest res none .absent (requestBegun s)) :
    Finished x rest res none .absent s (requestRow x s) ∧ TablesKept s (requestRow x s) := by
  obtain ⟨hcome, hfinished⟩ :=
    (headKept_requestBegun s).finishes (res := res) (grant := none) (q := .absent) hq h.atItsTests.requests
      h.atItsTests.known
  have hrow : requestRow x s = _ := h.begins (k := .withdraw) rfl hq (by rw [kindStep, hstep]; exact hcome) (by decide)
  have hproduced : (finishRequest res none .absent (requestBegun s)).produced = s.produced := finishRequest_produced ..
  rw [issueProduced_same _ hproduced] at hrow
  rw [hrow]
  exact ⟨hfinished, tablesKept_finished ⟨rfl, rfl, fun _ => rfl, rfl, rfl, rfl, fun _ => rfl⟩⟩

/-- A WITHDRAW whose entry's grantee has a transaction on the granule stands in its drain. -/
theorem HeadStarts.withdraw_waits
    (hstep : withdrawStart x (requestBegun s) = withdrawAt .drain i g (grantDraining .request i g (requestBegun s))) :
    requestRow x s = finish (withdrawAt .drain i g (grantDraining .request i g (requestBegun s))) := by
  have hkept := (((headKept_requestBegun s).grantDraining .request i g).withdrawAt .drain i g)
  have hquiet := hkept.quiet_waiting hq rfl rfl
  exact (h.begins (k := .withdraw) rfl hq (by rw [kindStep, hstep]; exact .here hquiet) (by decide)).trans
    (congrArg finish (issueProduced_same _ (by simp [withdrawAt, grantDraining, moveGrant, requestBegun])))

/-- Without one it makes its removal step next. -/
theorem HeadStarts.withdraw_goes {n : Nat} (hstep : withdrawStart x (requestBegun s) =
      withdrawAt .running i g (moveGrant i g (requestBegun s)))
    (hcome : ComesTo n (withdrawAt .running i g (moveGrant i g (requestBegun s))) v) (hn : n ≤ 10) :
    requestRow x s = finish (issueProduced s v) :=
  h.begins (k := .withdraw) rfl hq (by rw [kindStep, hstep]; exact hcome) hn

/-- Where the line is not cached it waits for it with the entry REVOKING (R51). -/
theorem HeadStarts.withdraw_misses (hstep : withdrawStart x (requestBegun s) =
      withdrawAt .running i g (moveGrant i g (requestBegun s)))
    (hgranule : g.granule = x.granule) (hrec : recordAt s x.granule = none) :
    RequestWaitsForFill x (some (i, g.serial)) s (requestRow x s) ∧
      ∀ j, grantAt (requestRow x s) j = if j = i then some { g with state := .revoking } else grantAt s j := by
  have hkept := ((headKept_requestBegun s).moveGrant i g).withdrawAt .running i g
  have hentry : ∀ j, grantAt (withdrawAt .running i g (moveGrant i g (requestBegun s))) j =
      if j = i then some { g with state := .revoking } else grantAt s j := fun j => grantAt_setGrant (requestBegun s) i j _
  obtain ⟨hcome, hwaits, hgrants⟩ :=
    hkept.waits (x := x) (f := withdrawEnd i { g with state := .revoking }) hq rfl rfl rfl hrec
  have hremoval : requestStep (withdrawAt .running i g (moveGrant i g (requestBegun s))) = _ :=
    (requestStep_entry (hkept.requests.trans h.atItsTests.requests) rfl).trans
      ((withdrawRemoval_eq (g := { g with state := .revoking }) ((hentry i).trans (if_pos rfl)) rfl).trans
        (congrArg (fun y => withRequestRecord y _ _) hgranule))
  have hrow := h.withdraw_goes hq hstep
    (hkept.toBesideRequests.step hq rfl (by rw [hremoval]; exact hcome)) (by decide)
  rw [hrow]
  refine ⟨hwaits, fun j => ?_⟩
  rw [← hentry j, grantAt, hgrants]
  rfl

/-- Where it is cached the entry is removed, and the request has finished (R136, R143). -/
theorem HeadStarts.withdraw_removes (hstep : withdrawStart x (requestBegun s) =
      withdrawAt .running i g (moveGrant i g (requestBegun s))) (hrec : recordAt s g.granule = some rec) :
    Finished x rest .done (some i) .absent s (requestRow x s) ∧ GrantRemoved i g rec s (requestRow x s) ∧
      ∀ c, chan (requestRow x s) c = chan s c := by
  have hkept := ((headKept_requestBegun s).moveGrant i g).withdrawAt .running i g
  obtain ⟨v, hcome, hproduced, hfinished, hremoved, hchan⟩ := hkept.removes (g := { g with state := .revoking }) hq
    h.atItsTests.requests h.atItsTests.known rfl (grantAt_setGrant_same ..) rfl hrec
  have hrow := h.withdraw_goes hq hstep hcome (by decide)
  have hsame : v.produced = s.produced := hproduced
  rw [issueProduced_same _ hsame] at hrow
  rw [hrow]
  have hmoved : GrantRemoved i g rec (requestBegun s) (finish v) :=
    GrantRemoved.of_moved (hremoved.congr rfl rfl rfl rfl rfl rfl)
  exact ⟨hfinished, hmoved.congr rfl rfl rfl rfl rfl rfl, hchan⟩

end

theorem grantFor_some (hgrant : grantFor s x.granule x.grantee = some (i, g)) :
    g.granule = x.granule ∧ g.grantee = x.grantee := by
  simpa using List.find?_some hgrant

/-- Settles O44: WITHDRAW meets its start tests, makes its owner's entry REVOKING and removes it, at once, after its
drain or when its line has come. -/
theorem withdrawRevokesAGrantOfItsOwner : Obligations.WithdrawRevokesAGrantOfItsOwner := by
  refine ⟨fun x rest r s h hq hres => h.refused (k := .withdraw) rfl hq hres,
    fun x rest s h hq hno => ⟨_, h.atItsTests.row (k := .withdraw) rfl, ?_⟩⟩
  split
  next hhigh => exact h.withdraw_refused hq (withdrawStart_parameter hhigh _)
  next hlow =>
  split
  next hnone => exact h.withdraw_refused hq (withdrawStart_noEntry (u := requestBegun s) hlow hnone)
  next i g hgrant =>
  split
  next howner => exact h.withdraw_refused hq (withdrawStart_notOwner (u := requestBegun s) hlow hgrant howner)
  next howner =>
  obtain ⟨hgranule, hgrantee⟩ := grantFor_some hgrant
  split
  next htraffic =>
    rw [← not_pairTraffic_iff, ← hgranule, ← hgrantee] at htraffic
    have hstep := withdrawStart_goes (u := requestBegun s) hlow hgrant howner htraffic hno
    refine ⟨fun hrec hg => ?_, fun rec hrec hg => ?_⟩
    · obtain ⟨hwaits, hentry⟩ := h.withdraw_misses hq hstep hgranule hrec
      exact ⟨hwaits, (hentry i).trans (if_pos rfl), fun j hj => (hentry j).trans (if_neg hj)⟩
    · rw [← hgranule] at hrec ⊢
      obtain ⟨hfinished, ⟨hentry, hentries, hrecord, howner, hgrantee, hdomains⟩, hchan⟩ :=
        h.withdraw_removes hq hstep hrec
      exact ⟨hfinished, hentry, hentries, hrecord, fun hne => ⟨howner hne, hgrantee hne⟩, hdomains, hchan⟩
  next htraffic =>
    rw [← not_pairTraffic_iff, ← hgranule, ← hgrantee, not_not] at htraffic
    rw [h.withdraw_waits hq (withdrawStart_waits (u := requestBegun s) hlow hgrant howner htraffic)]
    have hentry : ∀ j, grantAt (finish (withdrawAt .drain i g (grantDraining .request i g (requestBegun s)))) j =
        if j = i then some { g with state := .revoking } else grantAt s j :=
      fun j => (grantAt_finish _ j).trans (grantAt_grantDraining .request i g (requestBegun s) j)
    refine fun hg => ⟨(hentry i).trans (if_pos rfl), fun j hj => (hentry j).trans (if_neg hj), ?_, ?_, ?_, ?_, fun d => ?_⟩
    · simp [withdrawAt, grantDraining, moveGrant, requestBegun]
    · simp [withdrawAt]
    · rw [finish_drains, ← hgranule, ← hgrantee]
      exact withdraw_drains i g s
    · simp [withdrawAt, grantDraining, moveGrant, requestBegun]
    · exact (dom_finish _ d).trans (dom_congr (by simp [withdrawAt, grantDraining, moveGrant, requestBegun]) d)
end Sys2Proof.Machine
end

section
/-!
PROOFS. The removal step of every remover (R136): the warm reset's (R151), whose last removal resumption follows (R174),
a channel's and a guest's: O58.
-/

namespace Sys2Proof.Machine
variable {s t u v : State} {i : Nat} {g : Grant} {rec : TagRecord} {w : WarmReset}
  {todo : List (Nat × Nat)} {drains : Bool}

/-! ### What goes on beside the warm reset -/

/-- From s to u what can go on beside the warm reset is as it was. -/
structure BesideWarm (s u : State) : Prop where
  duties     : ∀ c, sameDuty (chan u c) (chan s c)
  running    : u.running = s.running
  requests   : u.requests = s.requests
  poisonings : u.poisonings = s.poisonings

/-- Beside a quiet part without requests only the revocation stage can go on. -/
theorem BesideWarm.nextJob (h : BesideWarm s u) (hq : Quiet s) (hreq : s.requests = []) :
    nextJob u = if revocationRuns u then some .revocation else none := by
  have hnone : ∀ c, c < 4 → channelJob u c = none := fun c hc => (channelJob_congr (h.duties c)).trans (hq.channelJob hc)
  obtain ⟨hwait, -, hpoison, -⟩ := restJob_eq_none_iff.1 hq.restJob
  have hrun : u.running.any (fun r => waitOver r.wait) = false := by
    rw [h.running, Option.any_eq_false_iff_get]
    exact fun hsome => hwait _ (Option.some_get hsome).symm
  have hhead : unknownHead u = none := unknownHead_of_known fun y hy => by simp [h.requests, hreq] at hy
  have hpoisons : u.poisonings.find? (fun p => waitOver p.wait) = none := by
    rw [h.poisonings, List.find?_eq_none]
    simpa using hpoison
  rw [Machine.nextJob, List.findSome?_eq_none_iff.2 fun c hc => hnone c (channelNumbers_lt hc), restJob, hrun, hhead,
    hpoisons]
  rfl

theorem BesideWarm.quiet (h : BesideWarm s u) (hq : Quiet s) (hreq : s.requests = []) (hwarm : u.warm = none) :
    Quiet u := by
  rw [Quiet, h.nextJob hq hreq, revocationRuns, hwarm]
  rfl

/-- A revocation stage that waits for nothing makes its next step. -/
theorem BesideWarm.step {n : Nat} (h : BesideWarm s u) (hq : Quiet s) (hreq : s.requests = []) (hwarm : u.warm = some w)
    (hstage : w.stage = .revocation todo drains .running) (hstep : ComesTo n (revocationStep w todo drains u) v) :
    ComesTo (n + 1) u v := by
  refine .next (j := .revocation) ?_ ?_
  · have hruns : revocationRuns u = true := by
      obtain ⟨_, _, stage, _, _, _, _, _⟩ := w
      obtain rfl : stage = _ := hstage
      rw [revocationRuns, hwarm]
      rfl
    rw [h.nextJob hq hreq, if_pos hruns]
  · have hjob : runJob .revocation u = revocationStep w todo drains u := by
      rw [runJob, hwarm]
      dsimp only
      rw [hstage]
    rw [hjob]
    exact hstep

/-! ### Resumption (R174) -/

/-- The response of a warm reset that resumes (R151, R174). -/
def resumeReport (w : WarmReset) : Report :=
  { w0 := w.stopped, w1 := w.discarded, w2 := w.lost, w3 := w.removed, w4 := w.left }

/-- Without undos and poisonings resumption ends the warm reset and answers it. -/
theorem resumption_eq (hundo : ∀ x, x < 4 → (chan u x).undo = none) (hpoison : u.poisonings = []) :
    resumption w u = respond w.channel w.block .done (resumeReport w) { u with warm := none } := by
  have hsame : ({ u with warm := none, poisonings := [] } : State) = { u with warm := none } := by rw [← hpoison]
  have h0 := hundo 0 (by decide)
  have h1 := hundo 1 (by decide)
  have h2 := hundo 2 (by decide)
  have h3 := hundo 3 (by decide)
  simp only [resumption, hpoison, List.map_nil, hsame, channelNumbers]
  have hchan : ∀ x, chan { u with warm := none } x = chan u x := fun _ => rfl
  simp [hchan, h0, h1, h2, h3, resumeReport]

/-! ### The warm reset's removal (R151) -/

/-- The warm reset has removed the entry g at index i, and `todo` is left. -/
def warmRemoved (i : Nat) (g : Grant) (rec : TagRecord) (w : WarmReset) (todo : List (Nat × Nat)) (u : State) : State :=
  setRevocation todo false .running { removeGrant i g rec u with warm := some { w with removed := w.removed + 1 } }

theorem warmRemoved_warm (i : Nat) (g : Grant) (rec : TagRecord) (w : WarmReset) (todo : List (Nat × Nat)) (u : State) :
    (warmRemoved i g rec w todo u).warm =
      some { w with removed := w.removed + 1, stage := .revocation todo false .running } := rfl

theorem revocationStep_removes (hg : grantAt u i = some g) (hrec : recordAt u g.granule = some rec) :
    ∃ key, revocationStep w ((i, g.serial) :: todo) true u = warmRemoved i g rec w todo (touch key u) := by
  obtain ⟨key, hkey⟩ := lookup_hit hrec
  refine ⟨key, ?_⟩
  rw [revocationStep, entryIs_of_grantAt hg]
  dsimp only
  rw [if_pos rfl, hkey]
  rfl

theorem BesideWarm.removed (h : BesideWarm s u) (i : Nat) (g : Grant) (rec : TagRecord) (w : WarmReset)
    (todo : List (Nat × Nat)) : BesideWarm s (warmRemoved i g rec w todo u) := by
  have hchannels : (warmRemoved i g rec w todo u).channels = u.channels := by simp [warmRemoved, setRevocation]
  exact ⟨fun c => by rw [chan, hchannels]; exact h.duties c, by simpa [warmRemoved, setRevocation] using h.running,
    by simpa [warmRemoved, setRevocation] using h.requests, by simpa [warmRemoved, setRevocation] using h.poisonings⟩

theorem sameDuty.trans {x y z : Channel} (h : sameDuty x y) (k : sameDuty y z) : sameDuty x z := by
  obtain ⟨hactive, hundo, hretake⟩ := h
  obtain ⟨kactive, kundo, kretake⟩ := k
  exact ⟨hactive.trans kactive, hundo.trans kundo, hretake.trans kretake⟩

theorem sameDuty.undo {x y : Channel} (h : sameDuty x y) : x.undo = y.undo := by
  obtain ⟨-, hundo, -⟩ := h
  exact hundo

theorem sameDuty_respond (c x : Nat) (b : Line) (res : Result) (p : Report) (u : State) :
    sameDuty (chan (respond c b res p u) x) (chan u x) := by
  rw [chan_respond]
  split
  next hx => exact hx ▸ ⟨rfl, rfl, rfl⟩
  next => exact ⟨rfl, rfl, rfl⟩

/-- With nothing left to remove the warm reset ends. -/
theorem BesideWarm.resumes (h : BesideWarm s u) (hq : Quiet s) (hreq : s.requests = []) (hwarm : u.warm = some w)
    (hstage : w.stage = .revocation [] false .running) (hundo : ∀ x, x < 4 → (chan s x).undo = none)
    (hpoison : s.poisonings = []) :
    ComesTo 1 u (respond w.channel w.block .done (resumeReport w) { u with warm := none }) := by
  have hresumes : revocationStep w [] false u = _ := resumption_eq
    (fun x hx => (h.duties x).undo.trans (hundo x hx)) (h.poisonings.trans hpoison)
  have hended : BesideWarm s (respond w.channel w.block .done (resumeReport w) { u with warm := none }) :=
    ⟨fun c => (sameDuty_respond ..).trans (h.duties c), (respond_running ..).trans h.running,
      (respond_requests ..).trans h.requests, (respond_poisonings ..).trans h.poisonings⟩
  exact h.step hq hreq hwarm hstage (by rw [hresumes]; exact .here (hended.quiet hq hreq (respond_warm ..)))

theorem grantRemoved_warmRemoved (w : WarmReset) (todo : List (Nat × Nat)) (hg : grantAt u i = some g)
    (hrec : recordAt u g.granule = some rec) : GrantRemoved i g rec u (warmRemoved i g rec w todo u) :=
  (grantRemoved_removeGrant hg hrec).congr rfl rfl rfl (by simp [warmRemoved, setRevocation])
    (by simp [warmRemoved, setRevocation]) (by simp [warmRemoved, setRevocation])

theorem removalDue_warmReset (hwarm : s.warm = some w) (hstage : w.stage = .revocation todo drains .drain)
    (hno : NoDrain .warmReset s) : removalDue .warmReset s = some (settle (setRevocation todo true .running s)) := by
  obtain ⟨_, _, stage, _, _, _, _, _⟩ := w
  obtain rfl : stage = _ := hstage
  rw [removalDue, hwarm]
  exact if_pos (drained_iff.2 hno)

/-- The state of the warm reset w once it has removed its last entry. -/
def lastRemoved (w : WarmReset) : WarmReset :=
  { w with removed := w.removed + 1, stage := .revocation [] false .running }

/-- The part after the warm reset w has taken up its last entry, removed it and resumed. -/
def warmResumed (i : Nat) (g : Grant) (rec : TagRecord) (w : WarmReset) (u : State) : State :=
  respond w.channel w.block .done (resumeReport (lastRemoved w)) { warmRemoved i g rec w [] u with warm := none }

/-- The stage in which the warm reset may remove its last entry. -/
def removalStage (i serial : Nat) (w : WarmReset) : WarmReset :=
  { w with stage := .revocation [(i, serial)] true .running }

/-- The warm reset's last removal and the resumption after it are two steps. -/
theorem BesideWarm.removes (h : BesideWarm s u) (hq : Quiet s) (hreq : s.requests = [])
    (hwarm : u.warm = some (removalStage i g.serial w)) (hg : grantAt u i = some g)
    (hrec : recordAt u g.granule = some rec) (hundo : ∀ x, x < 4 → (chan s x).undo = none) (hpoison : s.poisonings = []) :
    ∃ key, ComesTo 2 u (warmResumed i g rec (removalStage i g.serial w) (touch key u)) := by
  obtain ⟨key, hkey⟩ := revocationStep_removes (w := removalStage i g.serial w) (todo := []) hg hrec
  have htouched : BesideWarm s (touch key u) := ⟨h.duties, h.running, h.requests, h.poisonings⟩
  have hresumes := (htouched.removed i g rec (removalStage i g.serial w) []).resumes hq hreq
    (warmRemoved_warm i g rec _ [] (touch key u)) rfl hundo hpoison
  exact ⟨key, h.step hq hreq hwarm rfl (by rw [hkey]; exact hresumes)⟩

/-- The warm reset's last removal, and then the resumption that answers it (R136, R151, R174). -/
theorem revocationRemoval_warmReset (hwarm : s.warm = some w)
    (hstage : w.stage = .revocation [(i, g.serial)] drains .drain) (hno : NoDrain .warmReset s) (hq : Quiet s)
    (hg : grantAt s i = some g) (hrec : recordAt s g.granule = some rec) (hundo : ∀ x, x < 4 → (chan s x).undo = none)
    (hpoison : s.poisonings = []) (hreq : s.requests = []) :
    ∃ t, exec (.revocationRemoval .warmReset) s = .next t ∧ GrantRemoved i g rec s t ∧ t.warm = none ∧
      chan t w.channel = { chan s w.channel with
        reserved := (chan s w.channel).reserved - 1
        ready := (chan s w.channel).ready ++
          [mkResponse w.block w.channel .done (resumeReport { w with removed := w.removed + 1 })] } ∧
      OtherChannels w.channel s t ∧ (sourceOf t (7 + w.channel)).pending = true := by
  have hbegun : BesideWarm s (setRevocation [(i, g.serial)] true .running s) :=
    ⟨fun _ => ⟨rfl, rfl, rfl⟩, rfl, rfl, rfl⟩
  have hrunning : (setRevocation [(i, g.serial)] true .running s).warm = some (removalStage i g.serial w) := by
    rw [setRevocation, hwarm]
    rfl
  obtain ⟨key, hcome⟩ := hbegun.removes hq hreq hrunning hg hrec hundo hpoison
  obtain ⟨u, hu⟩ : ∃ u, u = touch key (setRevocation [(i, g.serial)] true .running s) := ⟨_, rfl⟩
  rw [← hu] at hcome
  have hremoved := grantRemoved_warmRemoved (u := u) (removalStage i g.serial w) [] (by rw [hu]; exact hg)
    (by rw [hu]; exact hrec)
  have hchan : ∀ x, chan { warmRemoved i g rec (removalStage i g.serial w) [] u with warm := none } x = chan s x := by
    have hchannels : (warmRemoved i g rec (removalStage i g.serial w) [] u).channels = s.channels := by
      rw [hu]
      simp [warmRemoved, setRevocation]
    intro x
    rw [chan, hchannels]
    rfl
  refine ⟨finish (warmResumed i g rec (removalStage i g.serial w) u), ?_, ?_, ?_, ?_, fun x hx => ?_, ?_⟩
  · rw [exec_revocationRemoval, removalDue_warmReset hwarm hstage hno]
    refine congrArg _ (rowEnd_of_comesTo hcome (by decide) ?_)
    rw [hu]
    simp [warmResumed, warmRemoved, setRevocation]
  · refine hremoved.congr (by rw [hu]; rfl) (by rw [hu]; rfl) (by rw [hu]; rfl) ?_ ?_ ?_ <;> simp [warmResumed]
  · simp [warmResumed]
  · rw [chan_finish, warmResumed]
    exact (chan_respond ..).trans ((if_pos rfl).trans (by rw [hchan]; rfl))
  · rw [chan_finish, warmResumed]
    exact (chan_respond ..).trans ((if_neg hx).trans (hchan x))
  · rw [sourceOf_finish_pending, warmResumed]
    exact sourceOf_respond_same ..

/-! ### A guest's removal (R143) -/

/-- The removal of a drained WITHDRAW finishes it (R136, R143). -/
theorem revocationRemoval_request {x : GuestRequest} {rest : List GuestRequest} (hreq : s.requests = x :: rest)
    (hrun : s.running = some { wait := .drain, entry := some (i, g.serial) }) (hno : NoDrain .request s) (hq : Quiet s)
    (hg : grantAt s i = some g) (hrec : recordAt s g.granule = some rec)
    (hknown : ∀ y, rest.head? = some y → 1 ≤ y.kind ∧ y.kind ≤ 5) :
    ∃ t, exec (.revocationRemoval .request) s = .next t ∧ GrantRemoved i g rec s t ∧
      Finished x rest .done (some i) .absent s t ∧ ∀ c, chan t c = chan s c := by
  have hkept : HeadKept s (requestWait .running s) := ⟨⟨rfl, rfl, rfl, rfl⟩, rfl, rfl⟩
  have hrunning : (requestWait .running s).running = some { wait := .running, entry := some (i, g.serial) } := by
    rw [requestWait, hrun]
    rfl
  obtain ⟨v, hcome, hproduced, hfinished, hremoved, hchan⟩ := hkept.removes hq hreq hknown hrunning hg rfl hrec
  have hdue : removalDue .request s = some (settle (requestWait .running s)) := by
    rw [removalDue, hrun]
    exact if_pos ⟨rfl, drained_iff.2 hno⟩
  refine ⟨finish v, ?_, hremoved.congr rfl rfl rfl rfl rfl rfl, hfinished, hchan⟩
  rw [exec_revocationRemoval, hdue]
  exact congrArg _ (rowEnd_of_comesTo hcome (by decide) hproduced)

/-- Settles O58: REVOKE_GRANT's row, and the removal step of each of the three removers. -/
theorem revocationRemovesItsEntryAtTheLine : Obligations.RevocationRemovesItsEntryAtTheLine := by
  refine ⟨fun c b s h => ?_, fun c a r g rec s h hwork hphase hwait hno hg hserial hgranule hrec hne => ?_,
    fun x rest i g rec s hreq hrun hno hq hg hrec hknown => ?_,
    fun w i g drains rec s hwarm hstage hno hq hg hrec hne hundo hpoison hreq => ?_⟩
  · obtain ⟨t, ht⟩ : ∃ t, t = finish (issueProduced s (settle (doRevokeGrant c.val b (dequeue c.val s)))) := ⟨_, rfl⟩
    refine ⟨t, (exec_revokeGrant c s).trans (h.row.trans (congrArg _ ht.symm)), ?_⟩
    split
    next hb =>
      rw [ht, doRevokeGrant_refused hb]
      exact h.refused_end c.isLt _ _
    next hb =>
    split
    next hg =>
      rw [ht, doRevokeGrant_noEntry hb hg]
      exact h.refused_end c.isLt _ _
    next g hg =>
    refine fun hno => ⟨fun htraffic => revokeGrant_waits h c.isLt hb hg htraffic ht, fun htraffic rec hrec hne => ?_⟩
    obtain ⟨hdrains, ⟨hentry, hentries, hrecord, howner, hgrantee, hdomains⟩, hends⟩ :=
      revokeGrant_removes h c.isLt hb hg htraffic hno hrec ht
    exact ⟨hdrains, hentry, hentries, hrecord, howner hne, hgrantee hne, hdomains, hends⟩
  · obtain ⟨t, ht, ⟨hentry, hentries, hrecord, howner, hgrantee, -⟩, hends⟩ :=
      revocationRemoval_channel c h hwork hphase hwait hno hg hserial hgranule hrec
    exact ⟨t, ht, hentry, hentries, hrecord, howner hne, hgrantee hne, hgranule ▸ hends⟩
  · obtain ⟨t, ht, hremoved, hfinished, hchan⟩ := revocationRemoval_request hreq hrun hno hq hg hrec hknown
    exact ⟨t, ht, hremoved.entry, hremoved.entries, hremoved.record, hfinished, hchan⟩
  · obtain ⟨t, ht, ⟨hentry, hentries, hrecord, howner, hgrantee, hdomains⟩, hrest⟩ :=
      revocationRemoval_warmReset hwarm hstage hno hq hg hrec hundo hpoison hreq
    exact ⟨t, ht, hentry, hentries, hrecord, howner hne, hgrantee hne, hdomains, hrest⟩

end Sys2Proof.Machine
end
